-- ==== Sys2Proof/Word.lean ====
section
/-!
DEFINITION. Word.lean: the word types of the chipset and their plainest arithmetic (R8, R9, R10, R11).
-/
namespace Sys2Proof

/-- A register word: manager and worker registers are 32 bits wide (R9, R10). -/
abbrev Word := BitVec 32

/-- One byte of a wire format, an image or a message (R11). -/
abbrev Byte := BitVec 8

/-- The low `w` bits of a number. -/
def lowBits (w n : Nat) : Nat := n % 2 ^ w

/-- Bits `[hi:lo]` of a number (R8). -/
def bitsOf (n hi lo : Nat) : Nat := n / 2 ^ lo % 2 ^ (hi + 1 - lo)

/-- Bit `k` of a number. -/
def bitOf (n k : Nat) : Bool := n.testBit k

/-- A two's complement reading of the low `w` bits. -/
def signedOf (w n : Nat) : Int :=
  if n % 2 ^ w < 2 ^ (w - 1) then (n % 2 ^ w : Nat) else (n % 2 ^ w : Nat) - (2 ^ w : Nat)

/-- The `w`-bit two's complement pattern of an integer. -/
def patternOf (w : Nat) (z : Int) : Nat := (z % (2 ^ w : Nat)).toNat

/-- An integer held inside `[lo, hi]`: the counters of the manual that saturate. -/
def clampInt (lo hi z : Int) : Int := if z < lo then lo else if hi < z then hi else z

end Sys2Proof
end

