-- ==== Sys2Proof/Machine/Operands.lean ====
section
/-!
DEFINITION. Machine/Operands.lean: the operands of commands that are more than a number: which register space, which port,
and what the analog parts, the checkers and the self-tests find.
-/
namespace Sys2Proof

/-- Whose register a write addresses: the manager's, or those of the worker in a slot (R44, R47). -/
inductive Target
  | mgr
  | worker (slot : Nat)
  deriving DecidableEq, Repr

/-- The size of a register access over the bridge (R9). -/
inductive AccSize
  | byte | half | word
  deriving DecidableEq, Repr

/-- A Plom port: a manager port, PEER0 as 128 and PEER1 as 129 (R45), or the east or west port of a worker (R25). -/
inductive PortRef
  | mgr (p : Nat)
  | worker (slot : Nat) (west : Bool)
  deriving DecidableEq, Repr

/-- The coefficients an equaliser's adaptation has come to (R199). -/
structure EqVals where
  ctle : Int
  dfe1 : Int
  dfe2 : Int
  dfe3 : Int
  deriving DecidableEq, Repr

/-- Why PG of a tile is set: by a write, or by the manager within LIMITS after so many seconds without a validated hit
(R83, R366). -/
inductive PgCause
  | write
  | limits (idle : Nat)
  deriving DecidableEq, Repr

/-- What a check of a protected word of a worker finds: no error, a correctable one, or an uncorrectable one, with the
bits of the stored word that it has flipped (R91, R127). -/
inductive Finding
  | clean | corrected | uncorrectable (flips : Word)
  deriving DecidableEq, Repr

/-- What lifts a pixel's output: a crossing that the analog part has found, a deposit of so much charge (in 1/3,200 aC)
with its polarity (holes or electrons), or the charge of the pixel's last injecting step (R59, R70, R73, R76). -/
inductive Signal
  | crossing
  | charge (q : Nat) (hole : Bool)
  | injected
  deriving DecidableEq, Repr

/-- How a word is reached (R388 to R390, R392). -/
inductive EccAccess
  | scrub | read | partialWrite | fullWrite
  deriving DecidableEq, Repr

/-- What an access to a word meets: how it is reached, the bits of data and check bits that have been upset since, a
write from elsewhere between read and write-back (R391), and a disagreement of the two checkers with the results of
their retests (R384). -/
structure EccFind where
  access : EccAccess
  flipD : Nat
  flipK : Nat
  overtaken : Bool
  disagree : Option (Bool × Bool)
  deriving DecidableEq, Repr

/-- What the start-up self-test finds: words and beats with lasting faults, checkers that fail their fixed set (memory,
checker), stacks that fail to train or to decode, and entries of the remap table found corrupt. -/
structure StupFind where
  bad : List (Nat × Nat)
  checkers : List (Nat × Nat)
  badStacks : Nat
  corrupt : List (Nat × Nat)
  deriving DecidableEq, Repr

end Sys2Proof
end

