-- ==== Sys2Proof/Syntax.lean ====
section
/-!
DEFINITION. Syntax.lean: the commands the chipset takes, one constructor for each row of the opcode table. Operands carry
what the row leaves to the outside: which part it concerns, what the analog parts, the pins and the far side do, what a check
finds. The same names mean the same everywhere: `w` and `slot` a worker slot, `a` a pixel or an address, `t` a tile, `p` a
port or lane, `n` a port pair, `q` a queue (8 × slot + class), `g` a group, `v` the word written, `west` the port of a worker,
`ok` whether what the command starts succeeds. Some rows without operands stand at the end: a compiled constructor with
operands must be among the first 244.
-/
namespace Sys2Proof

/-- A command. -/
inductive Instr
  /-- An aligned 32-bit write to a manager or worker register that has no row of its own: RW fields are set, W1C bits
  clear, and RWL fields are judged against the writer's role (R16). `tgt` whose register, `size` the size of the
  access, `a` address, `data` value; `ok` whether the memory of a Chart operation it starts serves it. -/
  | registerWrite (tgt : Target) (size : AccSize) (a : Nat) (data : Word) (ok : Bool)
  /-- The low discriminator rises and the pixel captures C, p and v, starts dead time and restarts the RELAX timer, or
  ignores the edge and counts TC_LOST (R101). `w` slot, `a` pixel, `p` phase step, `v` Vernier code, `sig` what lifts
  the output. -/
  | leadingEdge (w : Nat) (a : Nat) (p : Nat) (v : Nat) (sig : Signal)
  /-- The high discriminator rises while the low one is high; the pulse is validated, Δt is captured and the tile's
  sighting count is updated (R73). `p` the phase step of the rise. -/
  | validationEvent (w : Nat) (a : Nat) (p : Nat) (sig : Signal)
  /-- The low discriminator falls; ToT is final and time capture forms the corrected hit record and writes it to the
  tile FIFO (R125). `p` the phase step of the fall, `ovr` whether the range was saturated. -/
  | lowDiscFall (w : Nat) (a : Nat) (p : Nat) (ovr : Bool)
  /-- ToT reaches 4,095 before the fall and the record is formed at once (R124). -/
  | totSaturate (w : Nat) (a : Nat) (ovr : Bool)
  /-- 25 ns after the low discriminator falls the dead time ends; at most one range step is applied and latched
  configuration changes load (R69). -/
  | deadTimeEnd (w : Nat) (a : Nat)
  /-- The RELAX interval expires; the pixel steps down one range if idle, or waits for the end of the dead time (R69).
  -/
  | relaxExpiry (w : Nat) (a : Nat)
  /-- The 25 ns feedback-switch settling after a range change ends and the pixel accepts leading edges again (R69). -/
  | rangeSettleEnd (w : Nat) (a : Nat)
  /-- The leakage compensator saturates; both discriminators are forced low, LEAK_SAT sets and any pulse in progress
  is lost and counted (R60). `p` the phase step, `ovr` whether the range of a pulse it cuts was saturated. -/
  | leakSaturate (w : Nat) (a : Nat) (p : Nat) (ovr : Bool)
  /-- 2 µs after the leakage falls below 100 nA the pixel returns to normal operation and LEAK_SAT clears (R60). -/
  | leakRecover (w : Nat) (a : Nat)
  /-- An edge on CAL_IN injects test charge into pixels with INJ_EN in tiles with INJ_SRC = 1 (R78). `level` of the
  pin after the edge, `amp` the height of the step in µV. -/
  | calInEdge (w : Nat) (level : Bool) (amp : Nat)
  /-- At a coarse count that is a multiple of the strobe period the strobe fires at INJ_PH while a burst runs; the
  burst ends after INJ_NUM strobes (R113). -/
  | injectionStrobe (w : Nat)
  /-- A write of TC_INJ with INJ_GO = 1 ends any burst in progress and starts a burst at the next qualifying cycle
  (R114). `v` the other bits of the word written. -/
  | injectionBurst (w : Nat) (v : Word)
  /-- PG is set to 1; the tile accepts no new leading edges, or abandons a power-up in progress (R83). `cause` a write
  of PG, or the manager within LIMITS. -/
  | tilePowerDown (w : Nat) (t : Nat) (cause : PgCause)
  /-- Every pixel of the tile has ended its dead time; the front ends power off and READY clears (R83). -/
  | tilePowerOff (w : Nat) (t : Nat)
  /-- PG is set to 0; the tile starts its power-up, or cancels a power-down still in progress (R85). -/
  | tilePowerUp (w : Nat) (t : Nat)
  /-- 32,768 WCK cycles after the power-up started, READY sets and the pixels start in their floor or fixed range
  (R85). -/
  | tileSettleEnd (w : Nat) (t : Nat)
  /-- Every 64 slow-clock cycles one pixel configuration word is checked and corrected; an uncorrectable word forces
  the pixel masked (R90). `find` what the check of the word finds. -/
  | pixelScrub (w : Nat) (find : Finding)
  /-- The manager's noisy-pixel masking sets or clears MASK_AUTO within LIMITS and records the change (R82). `on` set
  or clear, `rate` the noise rate measured, in mHz. -/
  | noisyPixelMask (slot : Nat) (a : Nat) (on : Bool) (rate : Nat)
  /-- Once per TRIM_INT, Trim sends TRIM_LO updates within LIMITS and writes one Logbook record per worker (R482).
  `updates` the changes Trim has decided: pixel and TRIM_LO. -/
  | trimUpdateCycle (slot : Nat) (updates : List (Nat × Nat))
  /-- A pulser edge enters a pixel of the tile under calibration; it is histogrammed and, if CAL_EMIT allows, sent as
  a test hit (R107). `bad` whether a counter word it reads fails its parity. -/
  | pulserHit (w : Nat) (p : Nat) (v : Nat) (bad : Bool)
  /-- The tile has collected N pulser hits; the unit computes new bin centres and accepts or rejects the table (R108).
  `bad` whether a counter word read fails its parity. -/
  | calTableComplete (w : Nat) (bad : Bool)
  /-- A write of 1 to CAL_FG abandons background calibration and starts a foreground pass over all 64 tiles (R112). -/
  | calFg (w : Nat)
  /-- The foreground pass ends; CAL_FG clears and background calibration resumes at tile 0 (R112). -/
  | fgPassEnd (w : Nat)
  /-- A write of SWAP_GO swaps the bin banks of the named tile at the next WCK edge and sets its CAL_VALID (R131). -/
  | swapGo (w : Nat) (t : Nat)
  /-- An access to TC_TBL_DATA reads or writes the selected table word and increments INDEX under AUTO_INC (R130).
  `write` the word written, or a read, with what the check of the word read finds. -/
  | tblDataAccess (w : Nat) (write : Option Word) (find : Finding)
  /-- A read of TC_CNT_LO returns counter bits [31:0] and captures bits [47:32] into TC_CNT_HI (R129). -/
  | cntLoRead (w : Nat)
  /-- One bin-table word and one offset word are scrubbed and corrected; an uncorrectable word is handled as R127
  gives (R126). What the checks of the bin word and of the offset word in turn find. -/
  | tableScrub (w : Nat) (fb : Finding) (fo : Finding)
  /-- After reset the tables are initialised; INIT_DONE sets and background calibration starts (R128). -/
  | tableInitDone (w : Nat)
  /-- In streaming mode the arbiter moves one record round-robin from a tile FIFO into the output queue when the queue
  has room (R135). -/
  | arbiterMove (w : Nat)
  /-- At each uplink block slot the worker fills the slot by the priority table with a sighting, packet block,
  forwarded block, reply, time reference or IDLE (R157). -/
  | uplinkSlot (w : Nat) (west : Bool)
  /-- An unpaired newest record has waited PAIR_WAIT block slots and may now be sent with an empty second slot (R142).
  -/
  | pairWaitExpiry (w : Nat)
  /-- The coarse count passes a multiple of 2^18, or another case arises, and a time reference becomes pending (R143).
  -/
  | timeReferenceDue (w : Nat)
  /-- A validation event leaves the tile's SW + 1 cycle window and the count falls, re-arming the tile once below ST
  (R153). -/
  | sightingWindowExpiry (w : Nat) (t : Nat)
  /-- A block arrives from the far neighbour and is forwarded in its own slot or placed in the slip buffer (R157). -/
  | forwardedBlockArrival (w : Nat)
  /-- A write of MODE in WK_GCTL switches between streaming and marked mode at the next WCK edge (R146). -/
  | modeChange (w : Nat) (marked : Bool)
  /-- A worker receives a downstream MARK block and queues it, refuses it, or answers it with a one-trailer result
  (R152). -/
  | markReceived (w : Nat) (west : Bool)
  /-- The mark at the head of the queue reaches START + LEN − 1 + 320 and the worker starts scanning the 64 rings
  (R148). -/
  | markServeStart (w : Nat)
  /-- The scan ends; the count of reserved records fixes the parts and PARTIAL_TILES bits are evaluated (R149). -/
  | markScanEnd (w : Nat)
  /-- A reserved record is copied from its ring into the output queue when the queue has room (R149). -/
  | markCopy (w : Nat)
  /-- A downstream THROTTLE block sets the RATE in force from the next block slot (R159). -/
  | throttleReceived (w : Nat) (west : Bool)
  /-- A downstream TRIM block applies up to four trim updates, or refuses those that hit an uncorrectable word (R161).
  `finds` what the checks of the words addressed find, in order. -/
  | trimReceived (w : Nat) (west : Bool) (finds : List Finding)
  /-- An enabled worker flag rises from 0 to 1 and a monitor report becomes pending (R163). `flag` the bit of
  WK_FLAGS. -/
  | flagRiseReport (w : Nat) (flag : Nat)
  /-- With MON_EN set, 2^(14 + MON_PER) WCK cycles pass and a periodic monitor report becomes pending (R163). -/
  | monitorPeriodExpiry (w : Nat)
  /-- A write of EN = 1 reaches the worker, which completes the enable check, sets RUNNING or refuses with a reason
  code (R165). -/
  | workerEnable (w : Nat)
  /-- A write of EN = 0 stops new records and sightings from the next WCK edge while queued data is still sent (R166).
  -/
  | workerDisable (w : Nat)
  /-- A write to OQ_HWM sets it to the current output queue depth (R167). -/
  | oqHwmWrite (w : Nat) (v : Word)
  /-- A write to SLIP_HWM sets it to the current slip buffer depth (R167). -/
  | slipHwmWrite (w : Nat) (v : Word)
  /-- A write to FIFO_HWM sets it to the tile FIFO's current depth (R168). -/
  | fifoHwmWrite (w : Nat) (t : Nat) (v : Word)
  /-- A 128-bit block arrives on a Plom receiver and is destuffed, descrambled, checked and decoded, or advances the
  lock state machine (R178). `bits` the 128 line bits, bit 0 first; `phase` the arrival in the block time. -/
  | blockReceived (port : PortRef) (bits : BitVec 128) (phase : Nat)
  /-- The receiver sees no transitions for 64 bit times or low amplitude and returns to HUNT (R179). -/
  | lossOfSignal (port : PortRef)
  /-- Transitions and amplitude return and loss of signal clears (R179). -/
  | signalReturn (port : PortRef)
  /-- A receiver has hunted for 100 µs without lock and sets NO_LOCK (R180). -/
  | noLockTimeout (port : PortRef)
  /-- A transmitter whose receiver is LOCKED sees FAR_ST become WAIT and starts 80,000 PRBS31 test blocks at the next
  slot (R184). -/
  | testSequenceStart (port : PortRef)
  /-- The transmitter's receiver leaves LOCKED, or FAR_ST leaves WAIT and TEST, and the test sequence stops (R184). -/
  | testSequenceAbandon (port : PortRef)
  /-- The wait after a failed rejoin test ends and the receiver requests a new test (R185). -/
  | rejoinBackoffExpiry (port : PortRef)
  /-- The transmit grid again lies 3 WCK cycles after the arrivals and the slew ends (R522). -/
  | gridSlewEnd (w : Nat) (west : Bool)
  /-- 2^FREEZE_LOG consecutive IDLE blocks freeze equaliser adaptation (R199). `eq` the coefficients adaptation has
  come to. -/
  | eqFreeze (port : PortRef) (eq : EqVals)
  /-- RESUME non-IDLE blocks since the freeze resume adaptation (R199). -/
  | eqResume (port : PortRef)
  /-- A write of CAPTURE copies the current coefficients into EQ_COMM and sets VALID (R200). `eq` the coefficients
  adaptation has come to. -/
  | eqCapture (port : PortRef) (eq : EqVals)
  /-- A write of INJ_GO in PRT_INJ or LNK_INJ applies the selected error to the next transmitted block or blocks
  (R202). `data` the other bits of the word written. -/
  | errorInject (port : PortRef) (data : Word)
  /-- Setting TEST, LPB_NEAR or LPB_FAR takes the port out of service; clearing them starts a new hunt (R204). `ctl`
  the word written. -/
  | testModeSet (port : PortRef) (ctl : Word)
  /-- SVC_EN changes; from 0 to 1 the receiver goes to IN or WAIT, from 1 to 0 it reports OUT and the segment is held
  (R222). -/
  | svcEnChange (port : PortRef) (on : Bool)
  /-- A write of CNT_CLR clears all the port's counters together (R207). -/
  | cntClr (port : PortRef)
  /-- One block time after the first receiver locks, an unenumerated worker takes WCK from that receiver or from east
  (R209). -/
  | wckSelect (w : Nat)
  /-- An unenumerated worker receives a CMD with POS 0 and sets POS and NEAR, or answers MALFORMED (R210). -/
  | enumerationCommand (w : Nat) (west : Bool)
  /-- The manager enumerates a port pair: it waits for service, sends enumeration commands from both ports and gives
  the initial split (R212). -/
  | enumeratePair (n : Nat)
  /-- A segment of the pair enters service and the loop controller sends enumeration commands for UNSEEN positions
  (R212). -/
  | unseenReenumerate (p : Nat)
  /-- A write of GO in PRT_CMD sends a CMD, applying the manager's role, SVC_EN ownership and enable checks first
  (R213). -/
  | prtCmdGo (p : Nat) (v : Word)
  /-- The manager matches a REPLY to its CMD by POS and SEQ and completes the transaction result (R213). -/
  | replyReceived (p : Nat)
  /-- REPLY_TO expires; the CMD is retried with the same SEQ, or ends with TIMEOUT (R213). -/
  | replyTimeout (p : Nat)
  /-- A worker executes a CMD read or write, or repeats a stored REPLY for a duplicate, and queues the REPLY (R214).
  `find` what the check of a protected word it reads finds. What the ring oscillator counter would show is a free
  value. -/
  | workerCmdExecute (w : Nat) (west : Bool) (find : Finding)
  /-- A worker receives a BEACON probe and returns an echo with arrival count, phase and turn time (R224). `sub` the
  arrival within the cycle, in fine LSBs. -/
  | probeReceived (w : Nat) (west : Bool) (sub : Nat)
  /-- The old serving port has drained its slip buffer and the worker sends EPOCH_END with the old epoch (R225). -/
  | epochEndSend (w : Nat)
  /-- The serving port has received no non-IDLE control block for 12.8 µs and the worker releases the hold it carries
  (R223). -/
  | holdSelfRelease (w : Nat) (west : Bool)
  /-- Every 3.2 µs the loop controller reads the held port's LNK_CTL on each worker that carries a hold and restores a
  lapsed hold (R223). -/
  | keepaliveRead (slot : Nat)
  /-- A planned move of the split point starts from PRT_LOOP_MOVE GO or the split policy, and runs its steps or is
  refused (R228). -/
  | plannedMove (n : Nat)
  /-- A probe echo arrives; the manager forms arr and rt, updates the hop table and steering, and advances any move in
  progress (R263). `age` fine LSBs since the first header bit arrived. -/
  | echoReceived (p : Nat) (age : Nat)
  /-- A probe gets no echo within REPLY_TO; it is retried, or the move becomes a fail-over (R228). -/
  | probeTimeout (slot : Nat)
  /-- A loop segment stays out of service and the loop controller moves the split point to it (R229). -/
  | failOver (n : Nat)
  /-- A RUNNING slot has sent no block for LIVE_TO and is probed (R229). -/
  | livenessTimeout (slot : Nat)
  /-- Both segments of a worker leave service or it answers no probe; the slot becomes LOST and its neighbours are
  turned (R231). -/
  | workerLost (slot : Nat)
  /-- A held far end of a LOST worker relocks and the loop controller brings the worker back (R232). `odd` the side
  whose held end has locked. -/
  | lostWorkerReturn (slot : Nat) (odd : Bool)
  /-- Every 2^20 WCK cycles the worker compares voted copies and passes a test record; it may enter or leave
  forward-only fallback (R233). What the comparison and the test record show. -/
  | selfCheck (w : Nat) (oneDiffers : Bool) (recordWrong : Bool)
  /-- A voter finds two copies differing from the previous vote and the worker falls back at once (R233). -/
  | voteFault (w : Nat)
  /-- A slot's drain timer reaches 0 and the drain closes (R236). -/
  | drainTimeout (slot : Nat)
  /-- Every REBAL_INT under BALANCE, the loop controller compares the halves and may start a move of one position
  (R237). -/
  | rebalanceCheck (n : Nat)
  /-- A subordinate forwards a peer mark, beacon or probe to its other peer port and acts on outward blocks only from
  its port in use (R52). `odd` PEER1; `age` as in ECHO_RECEIVED. -/
  | peerBlockForward (odd : Bool) (age : Nat)
  /-- The primary peer path loses lock and a ring subordinate switches to its other peer port in reckoning (R54). -/
  | peerPortSwitch
  /-- An active PPS_IN edge is taken as a measurement, ignored as spurious, or accepted as a new phase (R252).
  `rising` which edge, `sub` SUBNS LSBs into the cycle, `freq` the frequency measured. -/
  | ppsInEdge (rising : Bool) (sub : Nat) (freq : Int)
  /-- No PPS_IN edge for 1.1 s makes the source invalid and raises SRC_FAULT (R252). -/
  | ppsTimeout
  /-- No REF_IN edge for 1 µs makes the source invalid and raises SRC_FAULT (R252). `missed` edges of REF_IN in a row
  that have not come. -/
  | refInLoss (missed : Nat)
  /-- A write of MER_PADJ adds a phase correction to be slewed, counting as a PTP servo update (R248). -/
  | padjWrite (v : Word)
  /-- A write of MER_FADJ sets the PTP frequency estimate, clamped to ±100 ppm (R248). -/
  | fadjWrite (v : Word)
  /-- The firmware writes no servo update for 3 s and the PTP source becomes invalid (R249). -/
  | ptpServoTimeout
  /-- The reckoning error bound passes LOST_BOUND and Meridian becomes lost (R244). -/
  | reckoningBoundExceeded
  /-- A write of GO in MER_SET_CTL sets Meridian coarsely at the next MCK edge, or is refused while RUN_EN is 1
  (R245). -/
  | merSetGo
  /-- A write of SRC_SEL changes the time source and Meridian enters reckoning (R247). -/
  | sourceChange (sel : Nat)
  /-- Every 2^18 MCK cycles a lead sends a peer time beacon on each peer port (R253). -/
  | peerBeaconSend
  /-- A subordinate disciplines its phase, seconds and state from a peer time beacon, or a disciplined subordinate
  cross-checks it (R253). `age` SUBNS LSBs since the first header bit arrived, `freq` the frequency of the recovered
  clock. -/
  | peerBeaconReceived (age : Nat) (freq : Int)
  /-- Eight consecutive peer beacons are missing or out of sequence and the peer source becomes invalid (R253). -/
  | peerBeaconMiss
  /-- At each MCK count that is a multiple of 2^18, every worker port sends a broadcast check beacon (R258). -/
  | periodicBeacon
  /-- A worker handles a BEACON form 0b00 by setting, adjusting or checking its frame (R259). -/
  | beaconReceived (w : Nat) (west : Bool) (sub : Nat)
  /-- Every 4,096 WCK cycles the worker moves P one fine LSB toward 0 and shifts its frame (R257). -/
  | slewStep (w : Nat)
  /-- A worker has accepted no beacon for 2^20 WCK cycles and raises BEACON_MISS once (R260). -/
  | beaconMiss (w : Nat)
  /-- The loop controller probes each READY or RUNNING slot once per 2^(16 + PROBE_LOG) MCK cycles (R263). `ue` the
  address of a word the access finds uncorrectable, if it does. -/
  | probeSend (slot : Nat) (ue : Option Nat)
  /-- A segment has had no sample for 1 s and is marked STALE (R264). `ix` the segment. `ue` the address of a word the
  access finds uncorrectable, if it does. -/
  | hopStale (ix : Nat) (ue : Option Nat)
  /-- A subordinate probes the lead on its primary peer port and measures the peer path delay from the echo (R269). -/
  | peerProbe (age : Nat)
  /-- A read of MER_NOW_SEC_HI captures the other three Meridian time registers in the same MCK cycle (R272). `size`
  the size of the access. -/
  | merNowRead (size : AccSize)
  /-- A write of POP removes the head entry of the transmit timestamp queue (R250). -/
  | txtsPop
  /-- The pool reads a block from a dual-clock ingress queue that holds one (R275). `ue` the address of a word the
  access finds uncorrectable, if it does. -/
  | poolServe (p : Nat) (ue : Option Nat)
  /-- Every 25.6 µs while a rate below 0xFF is in force, and once after a return to 0xFF, the THROTTLE is sent again
  (R291). -/
  | throttleResend (slot : Nat)
  /-- Each 102.4 µs interval the manager measures port occupancy and recomputes share rates (R292). -/
  | shareInterval (p : Nat)
  /-- A group closes its next bucket when every member stream has advanced past its limit or is absent (R287). -/
  | bucketClose (g : Nat)
  /-- ABSENT_TO passes after a bucket's limit and a lagging stream is marked absent (R287). -/
  | absentTimeout (q : Nat)
  /-- A merge engine emits one element of a closed bucket, or the bucket end, when its parent accepts it (R298). `ue`
  a pool word the read finds uncorrectable, and whether it links a bucket list. -/
  | engineEmit (e : Nat) (ue : Option (Nat × Bool))
  /-- A write of GO in QUE_FLUSH discards the named queues' items at the next packet boundary (R294). -/
  | queFlushGo (v : Word)
  /-- An item being written receives no block for FLUSH_TO and is truncated to end the flush (R295). -/
  | flushTimeout (p : Nat)
  /-- Each 1 ms interval the manager may move one stream from a leaf above 90 % load (R299). The stream that would
  move, and the leaf it would move to. -/
  | streamRebalance (q : Nat) (target : Nat)
  /-- A write of GO in RSE_MIG moves the named stream to the target engine, or refuses (R299). -/
  | rseMigGo (v : Word)
  /-- MIG_TO expires after a move and the new engine stops waiting for the internal EPOCH_END (R299). -/
  | migrationTimeout
  /-- A sighting's valid toggle is sampled into MCK; tile-set counts and rules are evaluated and marks are formed
  (R304). -/
  | sightingArrival
  /-- A sighting's contribution to a tile-set count expires W cycles after its arrival (R301). -/
  | tileSetExpiry (set : Nat)
  /-- A MARK_OUT line has been high for MOUT_W MCK cycles and falls (R303). -/
  | markOutPulseEnd (line : Nat)
  /-- A write of 1 to a MOUT_TEST bit sends one pulse on that MARK_OUT line (R307). -/
  | moutTest (mask : Nat)
  /-- A write to QUE_DCQ HWM sets it to the queue's current level (R306). -/
  | dcqHwmWrite (p : Nat) (v : Word)
  /-- A write to QUE_POOL_MIN restarts it from FREE (R305). -/
  | poolMinWrite (v : Word)
  /-- An active MARK_IN edge is time-stamped and forms a mark unless it falls within MIN_GAP (R323). `line` the pin,
  `age` fine LSBs since the edge. -/
  | markInEdge (line : Nat) (rising : Bool) (age : Nat)
  /-- A write of GO in WKE_DM_CTL submits a deferred mark that is checked against each group and accepted or refused
  (R325). -/
  | deferredMark (v : Word)
  /-- A subordinate receives MARK form 1 on its peer port in use and forms a mark for PEER_GROUPS (R324). -/
  | peerMarkReceived
  /-- MARK_TO passes since a worker mark was sent without its last trailer (R328). -/
  | markTimeout (e : Nat)
  /-- A window's last bucket has closed and its worker marks are answered or timed out, so it becomes ready (R328). -/
  | windowReady (e : Nat)
  /-- One of at most four extractors reads a ready window from Wake and emits it as MARK_DATA with a SUMMARY (R329).
  `ue` a mark queue entry found uncorrectable, and its address. -/
  | windowExtract (ue : Option (Nat × Nat))
  /-- The bucket that holds a watch's last cycle closes and the watch closes (R332). -/
  | watchClose (g : Nat)
  /-- The watch builder fixes the next watch's span, halving or restoring it by its backlog, and emits it (R334). -/
  | watchBuild (g : Nat)
  /-- A watch passes its deadline unemitted and is later sent with LATE (R334). -/
  | watchDeadline (g : Nat)
  /-- A write of SPAN within LIMITS takes effect at the next boundary common to both grids, or is not performed
  (R331). -/
  | spanWrite (g : Nat) (v : Word)
  /-- The Wake high watermark is asserted or released by the age of the oldest unemitted watch (R336). -/
  | wakeHwm
  /-- A logical lane sends the next frame by strict priority, skipping paused priorities (R341). -/
  | frameSend (l : Nat)
  /-- CONFIRM_T passes after a frame with its lane up and the frame's pins are released (R343). -/
  | frameConfirm (l : Nat)
  /-- A PFC frame pauses or resumes priorities on the lane (R342). `enable` the priority enable vector, `quanta` the
  eight pause times, 16 bits each, priority 0 lowest. -/
  | pfcReceived (p : Nat) (enable : Nat) (quanta : Nat)
  /-- A received non-PFC frame is discarded and counted in RX_DISC (R342). -/
  | rxFrameDiscard (p : Nat)
  /-- A priority stays paused for PFC_WD; PFC_LONG is raised and recorded (R342). -/
  | pfcWatchdog (p : Nat) (prio : Nat)
  /-- A lane fault condition is declared and the spare takes over, or the fallback lane serves the destinations
  (R344). -/
  | laneFault (p : Nat) (cause : Nat) (corr : Nat) (unc : Nat)
  /-- A rebuilt frame is handed to the spare, at most 2,010 FCK cycles after the fault (R345). `ue` the address of a
  word the access finds uncorrectable, if it does. -/
  | firstResentFrame (l : Nat) (ue : Option Nat)
  /-- A failed lane up and free of faults for 1 s becomes the spare (R346). -/
  | laneRecover (p : Nat)
  /-- Every MON_INT ms the manager reads the listed registers and sends a MONITOR frame (R340). -/
  | monitorFrame
  /-- A write to FACTOR_MIN restarts it from FACTOR (R347). -/
  | factorMinWrite (v : Word)
  /-- STORE verifies the staged Chart and writes it to the slot, reads it back and sets it VALID (R371). `k` the slot;
  `ok` whether the memory, or for an activation the application, succeeds. -/
  | chartStore (k : Nat) (ok : Bool)
  /-- ACTIVATE verifies the slot's Chart and applies it to registers, ports, queues and slots (R374). `k` the slot;
  `ok` whether the memory, or for an activation the application, succeeds. -/
  | chartActivate (k : Nat) (ok : Bool)
  /-- ERASE sets the slot EMPTY, unless it is refused (R371). `k` the slot; `ok` whether the memory, or for an
  activation the application, succeeds. -/
  | chartErase (k : Nat) (ok : Bool)
  /-- At power-up the manager activates PRIMARY, FALLBACK or another valid slot (R375). `bad` the slots whose Chart
  fails to apply. -/
  | chartBootActivate (bad : List Nat)
  /-- Hourly the manager recomputes the slot digest and rewrites the slot on a mismatch (R376). `intact` whether the
  slot still holds what was written, `ok` whether a rewrite succeeds. -/
  | chartDigestCheck (intact : Bool) (ok : Bool)
  /-- A write of RUN_EN = 1 starts the consistency check (R377). -/
  | runEnSet
  /-- The check ends; RUN_EN sets and the run starts, or REASON and DETAIL report the first failure (R378). -/
  | consistencyCheckEnd
  /-- A write of RUN_EN = 0, or of 0 during the check, stops the run after groups close to the stop point (R290). -/
  | runEnClear
  /-- A write of GBL_TRIM_TGT sets the occupancy target, or is not performed outside LIMITS (R379). -/
  | trimTargetWrite (v : Word)
  /-- The scrubber reads, corrects and writes back one word, or poisons an uncorrectable one (R390). -/
  | scrubWord (m : Nat) (a : Nat) (find : EccFind)
  /-- A queued targeted self-test saves a unit, marches four patterns and restores it (R393). `fails` whether a
  pattern was read back wrong. -/
  | targetedTest (m : Nat) (fails : Bool)
  /-- A lasting fault takes a remap entry or spare row, or retires a pool cell or Wake page (R397). -/
  | remapInstall (m : Nat)
  /-- A write of GO in INT_STUP while RUN_EN is 0 runs the start-up self-test while preserving the cores' memories
  (R401). -/
  | stupGo
  /-- The start-up self-test ends and PASS and WAKE_FAIL are set (R401). -/
  | startupSelfTestEnd (find : StupFind)
  /-- A write of GO in INT_BYP_CTL performs a raw read or write of data and check bits, or is refused during a run
  (R402). -/
  | bypassAccess (v : Word)
  /-- A write of POP removes the head entry of the error log (R415). -/
  | elogPop
  /-- A check fails in the active Meridian unit and the standby takes authority over a gap of two block slots (R405).
  -/
  | muFault (cause : Nat)
  /-- A write of SWITCH in INT_MU performs a requested Meridian unit fail-over (R405). -/
  | muSwitchRequest
  /-- A check fails in the standby unit and it leaves standby for self-test (R404). -/
  | muStandbyFault
  /-- A yielded unit's 1 s self-test ends; it becomes standby or is set FAILED (R407). -/
  | muSelfTestEnd (u : Nat) (ok : Bool)
  /-- Every CKPT_INT ms the operating system writes a checkpoint of core state (R408). -/
  | checkpoint
  /-- A lockstep mismatch halts the active pair and the shadow pair resumes from the checkpoint, or the pair reboots
  (R409). -/
  | coreMismatch (p : Nat)
  /-- The former shadow pair runs the operating system and Helm answers again (R409). -/
  | coreFailoverEnd
  /-- A halted pair's lockstep self-test ends; it becomes the shadow or is set FAILED (R410). -/
  | coreSelfTestEnd (p : Nat) (ok : Bool)
  /-- With no shadow, the halted pair reboots from the firmware slots within 30 s (R411). -/
  | coreReboot
  /-- A memory stack suffers a functional interrupt and retrains, or is taken out after three failed retrains (R412).
  `k` the stack. -/
  | stackSefi (k : Nat)
  /-- Every 1 ms each stack temperature is read and four-fold refresh is set or cleared (R414). `k` the stack, `t` its
  temperature in °C. -/
  | stackTempRead (k : Nat) (t : Int)
  /-- A stack's corrected-beat rate sets or clears dose-driven four-fold refresh (R413). `k` the stack. -/
  | doseRefreshChange (k : Nat)
  /-- A converter's settling allowance ends and its integration starts (R416). `x` 0 for converter A, 1 for B. -/
  | settleEnd (x : Nat)
  /-- An integration ends; the code and value are formed, written to HK_LAST and the result queue, and the sequence
  advances (R416). `raw` the code the modulator has come to. -/
  | conversionEnd (x : Nat) (raw : Int)
  /-- TRIG_EVT or a write of TRIG starts the injected sequence, or queues it or counts an overrun (R430). `written` by
  a write of TRIG, else by TRIG_EVT. -/
  | urgentTrigger (written : Bool)
  /-- A write of HK_INCFG changes an input's configuration, abandons or restarts conversions, or is not performed
  (R427). -/
  | hkIncfgWrite (k : Nat) (v : Word)
  /-- A write of SEQ_EN stops every sequence, or restarts them all at slot 0 (R429). -/
  | seqEnWrite (en : Bool)
  /-- HK_BLANK asserts and abandons integrations on both converters (R432). -/
  | hkBlankAssert
  /-- HK_BLANK releases and each converter restarts with a settling allowance (R432). -/
  | hkBlankRelease
  /-- HK_BLANK stays asserted beyond BLANK_MAX and BLANK_LONG is raised (R432). -/
  | blankLong
  /-- A write of GO in HK_TEST, a Chart activation or the TEST_INT timer runs the converter self-test (R433). `timer`
  by TEST_INT, else by a write of GO. -/
  | hkTestGo (timer : Bool)
  /-- The converter self-test ends and TDAC_OK is set or cleared (R433). Gain errors of A and B in 0.002 %, and
  whether the offsets and residuals are good. -/
  | hkTestEnd (ga : Int) (gb : Int) (okA : Bool) (okB : Bool)
  /-- At each 1/20 mains cycle, converter B forms the bias-slope window sum and sends it to the interlock (R434).
  `charge` of the sub-interval, in codes. -/
  | slopeSubinterval (charge : Int)
  /-- A write of POP removes the head entry of the result queue (R435). -/
  | hkFifoPop
  /-- A read of word 0 of HK_LAST captures words 1 to 3 and clears NEW (R437). -/
  | hkLastRead (k : Nat)
  /-- VDD_SAFE enters range and the interlock enters TEST with every output low (R441). SAFE_SEL as read twice. -/
  | vddSafeUp (s1 : Nat) (s2 : Nat)
  /-- The power-up self-test ends and the interlock enters SAFE or LOCKED (R441). -/
  | interlockSelfTestEnd (logicOk : Bool) (sckOk : Bool) (convOk : Bool)
  /-- A demand channel filters open after 1,000 samples and a demand removes or ramps down the bias (R442). Which
  channels have filtered open. -/
  | channelOpen (a : Bool) (b : Bool)
  /-- A demand channel filters closed after 1,000 samples (R442). -/
  | channelClosed (a : Bool) (b : Bool)
  /-- A discrepancy lasts TDISC and DISC_FAULT latches (R443). -/
  | discrepancyTimeout
  /-- A switch readback reads open after removal and DSC_EN goes high (R445). Which readbacks go to open. -/
  | switchReadsOpen (hs : Bool) (ls : Bool)
  /-- 10 ms after removal, FB_FAULT latches if a switch is still closed, or DSC_FAULT if the discharge readback has
  not followed (R445). -/
  | removalWatchEnd (dscFb : Bool)
  /-- A bias-slope channel value reaches the interlock and the ramp is judged for completion or violation (R447).
  `good` whether the value passes its checks. -/
  | slopeValue (good : Bool)
  /-- The ramp reaches its profile's time limit; RAMP_TIMEOUT is set and the bias is removed (R447). -/
  | rampTimeLimit
  /-- More than three sub-intervals pass without a valid value; MON_LOST is raised and a ramp ends in removal (R448).
  -/
  | monitorGap
  /-- A readback disagrees with its command for 10 ms and FB_FAULT or DSC_FAULT latches (R449). Which readback: 0 HS,
  1 LS, 2 DSC. -/
  | readbackMismatch (which : Nat)
  /-- Each 10 ms precheck step checks its readbacks and proceeds, ends in ON, or latches a fault (R450). -/
  | precheckStep (hs : Bool) (ls : Bool) (dscFb : Bool)
  /-- A press of ILK_RST_N is released; a valid press clears faults and starts PRECHECK (R451). -/
  | resetPressRelease (ms : Nat)
  /-- ILK_RST_N stays low beyond 5 s and RST_STUCK is raised (R451). -/
  | resetStuck
  /-- ILK_RST_N reads high for 100 ms and presses are accepted again (R451). -/
  | resetStuckClear
  /-- Each 1 ms window counts SCK cycles and a count out of range latches SCK_FAULT (R452). -/
  | sckCheck (cycles : Nat)
  /-- VDD_SAFE falls below range and every interlock output goes low (R452). -/
  | vddSafeLow
  /-- A Helm request datagram is checked for form, target, key, counter, signature and role, then queued or refused
  (R468). The datagram, and the address and port it came from. -/
  | helmRequest (bytes : List Byte) (ip : Nat) (udp : Nat)
  /-- READ returns the values of up to 64 registers (R470). -/
  | helmRead
  /-- LOG_READ returns up to 16 Logbook records from a given SEQ (R470). -/
  | logRead
  /-- WRITE performs up to 32 masked register writes in order and stops at the first failure (R471). -/
  | write (ok : Bool)
  /-- TRIM_COMMIT verifies the staged trim set and writes it to the trim-set slot (R476). `ok` whether the memory
  serves it. -/
  | trimCommit (ok : Bool)
  /-- FW_COMMIT verifies the staged firmware, writes it to the idle slot and raises FW_FLOOR (R465). `ok` whether the
  memory serves it. -/
  | fwCommit (ok : Bool)
  /-- A subscription lapses 600 s after it was last renewed (R474). -/
  | subscriptionLapse (num : Nat)
  /-- An event's condition rises; DETAIL is latched, PEND and COUNT update and the CORE interrupt is raised (R479).
  The event and its DETAIL. -/
  | eventOccurrence (e : Nat) (d : Nat)
  /-- An event is sent as a notification to each subscriber whose mask selects its bank, rate-limited (R474). -/
  | notificationSend (num : Nat) (e : Nat)
  /-- An event routed to LOG produces an event record, at most one per event per second (R481). -/
  | eventRecordWrite (e : Nat)
  /-- A write of GO in LOG_WR_CTL seals a core record and queues it (R488). -/
  | logWrGo (v : Word)
  /-- The writer commits a queued record to non-volatile memory, verifies it and rewrites or skips a failed location
  (R485). `ok` whether the location verifies. -/
  | logbookCommit (ok : Bool)
  /-- Four consecutive locations fail or the die stops answering; records move to the SRAM ring and a failure record
  is written (R486). `written` whether the failure record could be written. -/
  | nvmFailure (written : Bool)
  /-- A management port frame reaches the cores with its timestamp trailer (R478). `sub` SUBNS LSBs into the cycle, of
  the start-of-frame delimiter. -/
  | mgmtFrameReceived (bytes : List Byte) (sub : Nat)
  /-- A transmit descriptor sends a frame, and its timestamp is queued under TS_ID when requested (R478). `sub` as for
  a frame received. -/
  | mgmtFrameSend (bytes : List Byte) (tsReq : Bool) (tsId : Nat) (sub : Nat)
  /-- The manager's power-on reset releases; straps are sampled, the self-test runs and the firmware boots (R496).
  `bootSel` the strap, `nvmOk` whether the memory answers. -/
  | powerOnResetRelease (bootSel : Nat) (stuckPol : Bool) (nvmOk : Bool)
  /-- RESET_N returns high and the manager restarts without changing the power-cycle count (R497). `bootSel` the
  strap, `nvmOk` whether the memory answers. -/
  | resetNRelease (bootSel : Nat) (nvmOk : Bool)
  /-- With RST_STUCK_POL = 1, RESET_N stays low for the held-low count; it is treated as failed and the manager starts
  (R498). `bootSel` the strap, `nvmOk` whether the memory answers. -/
  | resetNFailed (bootSel : Nat) (nvmOk : Bool)
  /-- A rail leaves its range for 10 µs and event 6 is raised (R494). `rail` the supply by its number. -/
  | supplyOutOfRange (rail : Nat)
  /-- A rail falls below its brown-out threshold for 2 µs with the effect its table row gives (R494). `rail` the
  supply by its number. -/
  | supplyBrownOut (rail : Nat)
  /-- The die junction crosses 115 °C or 125 °C and raises event 4 or 5, with hysteresis (R510). The junction
  temperature in °C. -/
  | dieTempEvent (temp : Int)
  /-- 100 µs after its last rail is in range the worker leaves reset and initialises its tables (R499). -/
  | workerPorRelease (w : Nat)
  /-- An honoured RST_N low resets the worker as a power-on reset does (R499). -/
  | workerRstN (w : Nat)
  /-- Both worker receivers stay out of LOCKED for 20 ms and the worker resets, keeping its configuration and tables
  (R499). -/
  | linkLossReset (w : Nat)
  /-- A rail that fell below its brown-out threshold returns to range; for VDD_HK both converters restart, each with a
  full settling allowance (R494). -/
  | supplyReturn (rail : Nat)
  /-- A worker rail leaves its range; the internal power-on reset asserts and the link outputs go to electrical idle
  (R499). -/
  | workerSupplyLoss (w : Nat)
  /-- The management port link goes up or down; the link state changes and event 254 is raised (R479). -/
  | mgmtLinkChange (up : Bool)
  /-- An egress lane finishes training and its link comes up, setting UP and making the lane usable as active or spare
  (R337). -/
  | laneLinkUp (p : Nat)
  /-- The pause time of a PFC-paused priority, in quanta of 512 bit times, runs out and the lane serves that priority
  again (R342). -/
  | pfcPauseExpiry (p : Nat) (prio : Nat)
  /-- A memory stack's retraining after a functional interrupt ends within 200 µs; accesses resume, or the stack is
  taken out after its third failure in 1 s (R412). `k` the stack, `ok` whether it trained. -/
  | stackRetrainEnd (k : Nat) (ok : Bool)
  /-- The manager finishes rebuilding a time index entry after an uncorrectable read, within 100 µs, and the waiting
  reader continues (R388). -/
  | indexEntryRebuilt (page : Nat)
  /-- A Rose fast-path or tree word found uncorrectable is reloaded from the Chart's working copy within 10 µs, and
  the tile, term or rule is in force again (R388). -/
  | wordReloaded (m : Nat) (a : Nat)
  /-- The transmitter has sent its 80,000th test block and returns to sending IDLE blocks (R184). -/
  | testSequenceEnd (port : PortRef)
  /-- ATTEST returns a report signed by the device identity key (R477). -/
  | attest
  /-- KEYS returns the enrolled keys and the identity certificate (R470). -/
  | keys
  /-- NET_GET returns the network configuration and link state in force (R470). -/
  | netGet
  /-- CHART_CHUNK writes data into the Chart staging buffer (R470). -/
  | chartChunk
  /-- TRIM_CHUNK writes data into the trim-set staging buffer (R470). -/
  | trimChunk
  /-- FW_CHUNK writes data into the firmware staging buffer (R470). -/
  | fwChunk
  /-- MARK submits a deferred mark through the WKE_DM_ logic and returns its result (R470). -/
  | mark
  /-- ENROL verifies a certificate and adds or replaces a key in the key table (R461). -/
  | enrol
  /-- REVOKE removes one key from the key table (R461). -/
  | revoke
  /-- SUBSCRIBE registers or renews a notification subscriber, or is refused when four exist (R474). -/
  | subscribe
  /-- NET sets the management port's network addresses (R470). -/
  | net
  /-- REKEY replaces the device identity key or advances the maker root slot (R462). -/
  | rekey
  /-- DIAG enters or leaves a maker diagnostic mode (R470). -/
  | diag
  /-- FUSE_READ returns one fuse word (R470). -/
  | fuseRead
  /-- A write of END in MGT_ROLE clears the role context of the signed request (R469). -/
  | roleEnd
  /-- A write of GO in LOG_RD fetches record RD_SEQ into LOG_RD_DATA (R488). -/
  | logRdGo
  /-- Every 14.0625 s the operating time increments (R484). -/
  | optimeTick
  /-- A low on RESET_N long enough is honoured and resets the manager while it stays low (R497). -/
  | resetNAssert
  /-- An ignored RESET_N stays high for the high count and is honoured again (R498). -/
  | resetNHonouredAgain
  /-- The JTAG TAP leaves Test-Logic-Reset and event 7 is raised (R504). -/
  | tapLeaveReset
  deriving DecidableEq, Repr

end Sys2Proof
end

