-- ==== Sys2Proof/Decode.lean ====
section
/-!
DEFINITION. Decode.lean: the commands that a word spells. The opcode table gives no row any bits: a command is an event
at the block, not a word, so no word spells one.
-/
namespace Sys2Proof

/-- The command a word of the opcode table's bits spells: none, as no row gives bits. -/
def decodeTableWord (_nbits _w : Nat) : Option Instr := none

end Sys2Proof
end

