-- ==== Sys2Proof/Machine/Bits.lean ====
section
/-!
DEFINITION. Machine/Bits.lean: bit and byte orders of the wire formats (R8, R11), and the two cyclic codes of the
links, images and records (R188, R191).
-/
namespace Sys2Proof

/-- `n` as `k` bytes, the most significant first (R11). -/
def beBytes : Nat → Nat → List Byte
  | 0, _ => []
  | k + 1, n => BitVec.ofNat 8 (n / 2 ^ (8 * k)) :: beBytes k n

/-- The number a byte list spells, the most significant byte first (R11). -/
def beNat (l : List Byte) : Nat := l.foldl (fun a b => a * 256 + b.toNat) 0

/-- `n` as `k` bits, the most significant first. -/
def beBits : Nat → Nat → List Bool
  | 0, _ => []
  | k + 1, n => n.testBit k :: beBits k n

/-- The number a bit list spells, the most significant bit first. -/
def bitsNat (l : List Bool) : Nat := l.foldl (fun a b => 2 * a + b.toNat) 0

/-- The bits of a byte list, in sending order. -/
def byteBits (l : List Byte) : List Bool := l.flatMap (fun b => beBits 8 b.toNat)

/-- One step of a most-significant-bit-first cyclic code of width `w` and generator `g` (without its top term). -/
def crcStep (w g : Nat) (r : Nat) (b : Bool) : Nat :=
  let fb := r.testBit (w - 1) != b
  let sh := (2 * r) % 2 ^ w
  if fb then Nat.xor sh g else sh

/-- CRC-8 of the control blocks: generator x⁸ + x² + x + 1, register preset to all ones (R188). -/
def crc8 (bs : List Bool) : Nat := bs.foldl (crcStep 8 0x07) 0xFF

/-- CRC-32C: generator 0x1EDC6F41, most significant bit first, preset and final inversion all ones (R191). -/
def crc32cBits (bs : List Bool) : Nat := Nat.xor (bs.foldl (crcStep 32 0x1EDC6F41) 0xFFFFFFFF) 0xFFFFFFFF

/-- CRC-32C of a byte string (R191). -/
def crc32c (l : List Byte) : Nat := crc32cBits (byteBits l)

/-- Bytes `[i, i + n)` of a list; what lies past its end reads as zero. -/
def sliceBytes (l : List Byte) (i n : Nat) : List Byte :=
  let x := (l.drop i).take n
  x ++ List.replicate (n - x.length) 0

/-- The big-endian field of `n` bytes at byte `i`. -/
def beField (l : List Byte) (i n : Nat) : Nat := beNat (sliceBytes l i n)

/-- The top position of a set bit, or 0 of zero: the integer logarithm. -/
def log2Floor (n : Nat) : Nat := n.log2

/-- `List.set` with growth: put `v` at `i`, padding with `z`. -/
def setPad {α : Type} (z : α) (l : List α) (i : Nat) (v : α) : List α :=
  let l := l ++ List.replicate (i + 1 - l.length) z
  l.set i v

end Sys2Proof
end

