-- ==== Sys2Proof/Machine/Crypto.lean ====
section
/-!
DEFINITION. Machine/Crypto.lean: SHAKE256 and Ed448, which the manual names for digests, fingerprints and signatures
(R367, R368). Both are written from the standards the manual refers to (PRESUMED, assumption 62): FIPS 202 for SHAKE256,
RFC 8032 for Ed448 in its pure form.
-/
namespace Sys2Proof

/-! ## SHAKE256 -/

/-- A 64-bit lane rotated left. -/
def rotl64 (x n : Nat) : Nat := Nat.lor (x * 2 ^ n % 2 ^ 64) (x / 2 ^ (64 - n))

/-- The rotation of each lane, lane x + 5y at that index: a walk from lane (1, 0) on to (y, 2x + 3y) turns the lane of its
step t by the (t + 1)st triangular number; lane (0, 0) stays. -/
def rhoWalk : Nat → Nat → Nat → Nat → List Nat → List Nat
  | 0, _, _, _, l => l
  | n + 1, x, y, t, l => rhoWalk n y ((2 * x + 3 * y) % 5) (t + 1) (l.set (x + 5 * y) ((t + 1) * (t + 2) / 2 % 64))

def rhoTurns : List Nat := rhoWalk 24 1 0 0 (List.replicate 25 0)

/-- Seven steps of the register that gives the round constants, and the constant they spell: step j sets bit 2^j − 1. -/
def iotaStep (s : Nat × Nat) (j : Nat) : Nat × Nat :=
  let r := 2 * s.1
  (if 256 ≤ r then Nat.xor r 0x171 else r, s.2 + s.1 % 2 * 2 ^ (2 ^ j - 1))

/-- The constants of so many rounds, from the register's state on. -/
def iotaConsts : Nat → Nat → List Nat
  | 0, _ => []
  | n + 1, r => let (r1, k) := (List.range 7).foldl iotaStep (r, 0); k :: iotaConsts n r1

/-- One round of Keccak-f[1600] on 25 lanes. -/
def keccakRound (a : List Nat) (rc : Nat) : List Nat :=
  let l := fun (s : List Nat) (i : Nat) => s.getD i 0
  let c := (List.range 5).map (fun x => (List.range 5).foldl (fun v y => Nat.xor v (l a (x + 5 * y))) 0)
  let d := (List.range 5).map (fun x => Nat.xor (l c ((x + 4) % 5)) (rotl64 (l c ((x + 1) % 5)) 1))
  let t := (List.range 25).map (fun i => rotl64 (Nat.xor (l a i) (l d (i % 5))) (l rhoTurns i))
  let b := (List.range 25).map (fun i => let x := i % 5; let y := i / 5; l t ((x + 3 * y) % 5 + 5 * x))
  let e := (List.range 25).map (fun i =>
    let y := 5 * (i / 5)
    Nat.xor (l b i) (Nat.land (Nat.xor (l b (y + (i + 1) % 5)) (2 ^ 64 - 1)) (l b (y + (i + 2) % 5))))
  match e with
  | h :: r => Nat.xor h rc :: r
  | [] => []

/-- The permutation. -/
def keccakF (a : List Nat) : List Nat := (iotaConsts 24 1).foldl keccakRound a

/-- Bytes as a number, the first byte the least significant. -/
def leNat (l : List Byte) : Nat := beNat l.reverse

/-- A number as bytes, the least significant first. -/
def leBytes (k n : Nat) : List Byte := (beBytes k n).reverse

/-- Absorb whole blocks of 136 bytes. -/
def absorb : Nat → List Nat → List Byte → List Nat
  | 0, a, _ => a
  | n + 1, a, m =>
    let blk := (List.range 25).map (fun i => if i < 17 then leNat (sliceBytes m (8 * i) 8) else 0)
    absorb n (keccakF (List.zipWith Nat.xor a blk)) (m.drop 136)

/-- SHAKE256 with an output of at most 136 bytes. -/
def shake256 (m : List Byte) (out : Nat) : List Byte :=
  let z := 136 - m.length % 136
  let pad : List Byte := if z = 1 then [0x9F] else 0x1F :: (List.replicate (z - 2) 0 ++ [0x80])
  let p := m ++ pad
  ((absorb (p.length / 136) (List.replicate 25 0) p).flatMap (leBytes 8)).take out

/-- The 64-byte digest of images, certificates and requests. -/
def digest64 (m : List Byte) : List Byte := shake256 m 64

/-- A key's fingerprint (R367). -/
def fingerprint (pub : List Byte) : Nat := beNat (shake256 pub 8)

/-! ## Ed448 -/

def edP : Nat := 2 ^ 448 - 2 ^ 224 - 1
def edL : Nat := 2 ^ 446 - 13818066809895115352007386748515426880336692474882178609894547503885
/-- d = −39081. -/
def edD : Nat := edP - 39081

/-- A power modulo p, by the bits of the exponent. -/
def edPow : Nat → Nat → Nat → Nat
  | 0, _, _ => 1
  | fuel + 1, b, e =>
    if e = 0 then 1
    else
      let h := edPow fuel (b * b % edP) (e / 2)
      if e % 2 = 1 then b * h % edP else h

def edInv (a : Nat) : Nat := edPow 449 a (edP - 2)
def edSub (a b : Nat) : Nat := (a + (edP - b % edP)) % edP

/-- A point in projective coordinates. -/
structure EdPoint where
  x : Nat
  y : Nat
  z : Nat
  deriving DecidableEq, Repr

def EdPoint.zero : EdPoint := ⟨0, 1, 1⟩

/-- Addition (RFC 8032, 5.2.4); it serves for doubling too. -/
def EdPoint.add (s t : EdPoint) : EdPoint :=
  let a := s.z * t.z % edP
  let b := a * a % edP
  let c := s.x * t.x % edP
  let d := s.y * t.y % edP
  let e := edD * (c * d % edP) % edP
  let f := edSub b e
  let g := (b + e) % edP
  let h := (s.x + s.y) * (t.x + t.y) % edP
  ⟨a * (f * edSub h (c + d) % edP) % edP, a * (g * edSub d c % edP) % edP, f * g % edP⟩

/-- A multiple of a point. -/
def EdPoint.mul : Nat → Nat → EdPoint → EdPoint
  | 0, _, _ => .zero
  | fuel + 1, n, s =>
    if n = 0 then .zero
    else
      let h := EdPoint.mul fuel (n / 2) (s.add s)
      if n % 2 = 1 then s.add h else h

/-- Points are equal. -/
def EdPoint.same (s t : EdPoint) : Bool := s.x * t.z % edP == t.x * s.z % edP && s.y * t.z % edP == t.y * s.z % edP

/-- The base point. -/
def edBase : EdPoint :=
  ⟨224580040295924300187604334099896036246789641632564134246125461686950415467406032909029192869357953282578032075146446173674602635247710,
   298819210078481492676017930443930673437544040154080242095928241372331506189835876003536878655418784733982303233503462500531545062832660, 1⟩

/-- The 57-byte encoding of a point. -/
def EdPoint.encode (s : EdPoint) : List Byte :=
  let i := edInv s.z
  leBytes 57 (s.y * i % edP + (s.x * i % edP % 2) * 2 ^ 455)

/-- Decode a point, if the bytes are the encoding of one. -/
def edDecode (l : List Byte) : Option EdPoint :=
  let n := leNat l
  let y := n % 2 ^ 455
  if l.length ≠ 57 ∨ edP ≤ y then none
  else
    let u := edSub (y * y % edP) 1
    let v := edSub (edD * (y * y % edP) % edP) 1
    let u2 := u * u % edP
    let u3 := u2 * u % edP
    let v3 := v * v % edP * v % edP
    let x := u3 * v % edP * edPow 449 (u2 * u3 % edP * v3 % edP) ((edP - 3) / 4) % edP
    if v * (x * x % edP) % edP ≠ u then none
    else
      let s := n / 2 ^ 455
      if x = 0 ∧ s = 1 then none
      else some ⟨if x % 2 = s then x else (edP - x) % edP, y, 1⟩

/-- The bytes of an ASCII string. -/
def ascii (s : String) : List Byte := s.toList.map (fun c => BitVec.ofNat 8 c.toNat)

/-- The domain prefix of Ed448 in its pure form with a context. -/
def edDom (ctx : List Byte) : List Byte := ascii "SigEd448" ++ [0, BitVec.ofNat 8 ctx.length] ++ ctx

/-- A signature is correct (RFC 8032, 5.2.7). -/
def edVerify (pub ctx msg sig : List Byte) : Bool :=
  let s := leNat (sig.drop 57)
  if sig.length ≠ 114 ∨ edL ≤ s then false
  else match edDecode pub, edDecode (sig.take 57) with
    | some a, some r =>
      let k := leNat (shake256 (edDom ctx ++ sig.take 57 ++ pub ++ msg) 114) % edL
      let four := fun (q : EdPoint) => EdPoint.mul 3 4 q
      (four (EdPoint.mul 447 s edBase)).same ((four r).add (four (EdPoint.mul 447 k a)))
    | _, _ => false

/-- The secret scalar and prefix of a 57-byte private key (RFC 8032, 5.2.5). -/
def edSecret (seed : List Byte) : Nat × List Byte :=
  let h := shake256 seed 114
  let n := leNat (h.take 57)
  let s := n % 2 ^ 446 / 4 * 4 % 2 ^ 446 + 2 ^ 447 + n % 2 ^ 447 / 2 ^ 446 * 2 ^ 446
  (s, h.drop 57)

/-- The public key of a private key. -/
def edPublic (seed : List Byte) : List Byte := (EdPoint.mul 448 (edSecret seed).1 edBase).encode

/-- Sign (RFC 8032, 5.2.6). -/
def edSign (seed ctx msg : List Byte) : List Byte :=
  let (s, pre) := edSecret seed
  let pub := edPublic seed
  let r := leNat (shake256 (edDom ctx ++ pre ++ msg) 114) % edL
  let rp := (EdPoint.mul 447 r edBase).encode
  let k := leNat (shake256 (edDom ctx ++ rp ++ pub ++ msg) 114) % edL
  rp ++ leBytes 57 ((r + k * s) % edL)

end Sys2Proof
end

