-- ==== Sys2Proof/Config.lean ====
section
/-!
DEFINITION. Config.lean: what an implementation fixes and the values the manual leaves open. Each is an opaque
constant: nothing in Lean can evaluate it, so a statement about it holds for every value.
-/
namespace Sys2Proof

/-- A fresh value the manual does not state, taken by the number of such values taken before. -/
opaque Config.freeBits : Nat → Nat

/-- ASYM_MW, measured on each manager at test and fused (R265): a 16-bit two's complement number of fine LSBs. -/
opaque Config.asymMw : Nat

/-- The pool words of an item status element, which the manual does not state (R285). -/
opaque Config.statusWords : Nat

/-- VALUE of a curve from 1 to 6 (R422, R425): curve, code with the lead loop subtracted, excitation code, and VALUE of the
cold junction; none where the result lies outside the curve's range. The reference functions are those of IEC 60751 and
IEC 60584-1, which the manual does not reproduce. -/
opaque Config.hkCurve : Nat → Int → Nat → Nat → Option Nat

/-- The linearisation error of curve 7 for a code and an excitation, in 1e-9 °C (R425): the manual bounds it only. -/
opaque Config.ntcError : Int → Nat → Int

/-- GBL_SERIAL, the fused serial number (R379). -/
opaque Config.serial : Nat

/-- The fuse word of a number (R470). -/
opaque Config.fuseWord : Nat → Nat

/-- The four fused maker root public keys, 57 bytes each as one big-endian number (R459, R462). -/
opaque Config.makerKey : Nat → Nat

/-- The private key of each generation of the device identity key, which no role can read (R462). -/
opaque Config.identityKey : Nat → Nat

/-- The certificate of the device identity key at manufacture, as one big-endian number of 274 bytes (R462). -/
opaque Config.identityCert : Nat

end Sys2Proof
end

