-- ==== Sys2Proof/Machine/AMap.lean ====
section
/-!
DEFINITION. Machine/AMap.lean: the one form of sparse data in the state. A map is a list of (key, value) pairs in
canonical form: keys strictly rising, and no pair equal to what an unlisted key reads as. What an unlisted key
reads as is the argument `d` of every operation, a definition of the model.
-/
namespace Sys2Proof

/-- Sparse data by key, as plain data. -/
abbrev AMap (α : Type) := List (Nat × α)

/-- The value at a key; an unlisted key reads as `d k`. -/
def AMap.get {α : Type} (d : Nat → α) : AMap α → Nat → α
  | [], k => d k
  | (a, v) :: r, k => if k = a then v else AMap.get d r k

/-- Put a pair at its place; a pair already listed at the key is replaced. -/
def AMap.put {α : Type} : AMap α → Nat → α → AMap α
  | [], k, v => [(k, v)]
  | (a, w) :: r, k, v =>
    if k < a then (k, v) :: (a, w) :: r
    else if k = a then (k, v) :: r
    else (a, w) :: AMap.put r k v

/-- Remove what is listed at a key. -/
def AMap.del {α : Type} : AMap α → Nat → AMap α
  | [], _ => []
  | (a, w) :: r, k => if k = a then AMap.del r k else (a, w) :: AMap.del r k

/-- Write a key: the value an unlisted key reads as is not listed. -/
def AMap.set {α : Type} [DecidableEq α] (d : Nat → α) (m : AMap α) (k : Nat) (v : α) : AMap α :=
  if v = d k then m.del k else m.put k v

/-- Change the value at a key. -/
def AMap.upd {α : Type} [DecidableEq α] (d : Nat → α) (m : AMap α) (k : Nat) (f : α → α) : AMap α :=
  m.set d k (f (m.get d k))

/-- Change every listed value. -/
def AMap.mapV {α : Type} [DecidableEq α] (d : Nat → α) (m : AMap α) (f : α → α) : AMap α :=
  (m.map (fun e => (e.1, f e.2))).filter (fun e => decide (e.2 ≠ d e.1))

/-- The canonical form: keys strictly rising above `b`, and no pair equal to what an unlisted key reads as. -/
def AMap.wfFrom {α : Type} [DecidableEq α] (d : Nat → α) : Option Nat → AMap α → Bool
  | _, [] => true
  | b, (a, v) :: r => (match b with | none => true | some x => decide (x < a)) && decide (v ≠ d a) && AMap.wfFrom d (some a) r

/-- A map in canonical form. -/
def AMap.wf {α : Type} [DecidableEq α] (d : Nat → α) (m : AMap α) : Bool := AMap.wfFrom d none m

/-- A constant default. -/
def always {α : Type} (x : α) (_ : Nat) : α := x

end Sys2Proof
end

