-- ==== Sys2Proof/Machine/HkTypes.lean ====
section
/-!
DEFINITION. Machine/HkTypes.lean: the state of the housekeeping converters (R416 to R437). Ends are given as ticks.
-/
namespace Sys2Proof

/-- A converter's phase (R416): idle with no slot; ready to start and held back; settling; integrating. -/
inductive HkPhase
  | idle
  | ready
  | settle (till : Nat)
  | integ (till : Nat)
  deriving DecidableEq, Repr

/-- A converter (R416 to R431): the slot it is at, whether that is an injected one, whether it measures the lead loop
first (R421) and the loop's code; what it was last connected to, and the allowance not yet settled in full (R426); the
regular slot to return to, and whether a trigger waits for it or its injected slots have ended (R430). -/
structure HkConv where
  ph : HkPhase
  slot : Nat
  inj : Bool
  lead : Bool
  loop : Int
  prevIn : Option Nat
  prevExc : Nat
  prevBurn : Bool
  owed : Nat
  resume : Nat
  injGo : Bool
  injDone : Bool
  deriving DecidableEq, Repr

def HkConv.init : HkConv := ⟨.idle, 0, false, false, 0, none, 0, false, 0, 0, false, false⟩

/-- A result of an input (R435): its words, the tick at the end of its integration, and that of its entry. -/
structure HkRes where
  w0 : Nat
  w1 : Nat
  w2 : Nat
  w3 : Nat
  at_ : Nat
  when : Nat
  deriving DecidableEq, Repr

/-- Housekeeping (R416 to R437). -/
structure Hk where
  a : HkConv
  b : HkConv
  last : AMap (Option HkRes)
  seqs : AMap Nat
  fifo : List HkRes
  /-- The range each HKI input was last integrated in, and consecutive results below the step-down limit (R428). -/
  ranges : AMap Nat
  lows : AMap Nat
  /-- HK_BLANK asserted since a tick, and BLANK_LONG raised for it. -/
  blankAt : Option Nat
  blankLong : Bool
  /-- When the last self-test ended, when the regular sequence last completed, and a write to CODE held back (R433). -/
  testAt : Nat
  wrapAt : Nat
  tdacNext : Option Nat
  /-- The ACK cycle of the last trigger: others in it are one with it (R430). -/
  trigAt : Option Nat
  /-- The bias-slope channel: charge of the latest sub-intervals, newest first, when the last one ended, and the window
  sum on its way to the interlock (R434); and the channel's mains frequency (R440). -/
  subs : List Int
  subAt : Nat
  slope : Option Int
  slope60 : Bool
  deriving DecidableEq, Repr

def Hk.init : Hk := ⟨.init, .init, [], [], [], [], [], none, false, 0, 0, none, none, [], 0, none, false⟩

end Sys2Proof
end

