-- ==== Sys2Proof/Machine/IntegTypes.lean ====
section
/-!
DEFINITION. Machine/IntegTypes.lean: the state of the manager's protected memories, Meridian units, core pairs and
memory stacks (R380 to R415).
-/
namespace Sys2Proof

/-- What a stored word differs by from the right code word of its contents (R382, R387): `d` over the data and `k` over
the check bits. Of a word placed through bypass the data themselves are known (R402), and `d`, `k` are what is stored. -/
structure EccErr where
  known : Bool
  d : Nat
  k : Nat
  deriving DecidableEq, Repr

/-- A word stored without error. -/
def EccErr.none : EccErr := ⟨false, 0, 0⟩

/-- A targeted self-test running or queued (R393, R396): its unit, the word that started it, whether that word was
uncorrectable, and whether it stood on the suspect list before. -/
structure TestReq where
  unit : Nat
  addr : Nat
  ue : Bool
  suspect : Bool
  deriving DecidableEq, Repr

/-- A protected memory (R380): the word the scrubber reads next, the words that hold errors, the suspect list with the
clean passes of each address (R394), targeted tests, lasting faults waiting for their entry (R397), words and rows
redirected to spares, words that stay in use for want of an entry, retired cells or pages (R398, R399), its checkers
(R384): the one that passed its latest test, and those taken out of use, and when the present scrub pass began (R390). -/
structure MemX where
  cursor : Nat
  errs : AMap EccErr
  suspects : List (Nat × Nat)
  tests : List TestReq
  installs : List (Nat × Bool)
  remaps : List Nat
  worn : List Nat
  retired : List Nat
  lastInstall : Option Nat
  chkUse : Nat
  chkOut : List Nat
  passAt : Nat
  deriving DecidableEq, Repr

def MemX.init : MemX := ⟨0, [], [], [], [], [], [], [], none, 0, [], 0⟩

/-- A memory stack (R412 to R414): when its corrected beats of the last hour came, newest first; when the count last
falls below 2,000; whether temperature has raised its refresh, and since when it has been below 100 °C; when its
interface lost function, and its failed retrains. -/
structure StackX where
  ces : List Nat
  highUntil : Nat
  hot : Bool
  coolSince : Option Nat
  readAt : Nat
  sefiAt : Option Nat
  fails : List Nat
  deriving DecidableEq, Repr

def StackX.init : StackX := ⟨[], 0, false, none, 0, none, []⟩

/-- An entry of the error log: its four words, and the tick of its push (R250, R415). -/
structure ELogEnt where
  w0 : Nat
  w1 : Nat
  w2 : Nat
  w3 : Nat
  when : Nat
  deriving DecidableEq, Repr

/-- The integrity logic (R380 to R415). -/
structure Integ where
  mems : AMap MemX
  badStacks : AMap StackX
  elog : List ELogEnt
  /-- Pages whose time index entry is being rebuilt (R388). -/
  rebuild : List Nat
  /-- A Meridian unit fail-over whose authority passes at a tick, with its CAUSE (R405). -/
  muAt : Option (Nat × Nat)
  /-- When each unit's self-test ends, and its yields of the last 24 h, newest first (R407). -/
  muTestA : Nat
  muTestB : Nat
  yieldsA : List Nat
  yieldsB : List Nat
  /-- The active unit went on with a fault, for want of a standby (R407). -/
  muWorn : Bool
  /-- The operating system runs (R408); a core fail-over, or a reboot, in progress since a tick. -/
  coresUp : Bool
  failAt : Option Nat
  rebootAt : Option Nat
  /-- When each core pair's self-test began (R410). -/
  coreTestA : Nat
  coreTestB : Nat
  /-- The newest checkpoint and the one before it (R408). -/
  ckptAt : Nat
  ckptPrev : Nat
  /-- The start-up self-test running: whether it follows a reset (R401). -/
  stup : Option Bool
  deriving DecidableEq, Repr

def Integ.init : Integ :=
  ⟨[], [], [], [], none, 0, 0, [], [], false, true, none, none, 0, 0, 0, 0, none⟩

end Sys2Proof
end

