-- ==== Sys2Proof/Machine/ChartFmt.lean ====
section
/-!
DEFINITION. Machine/ChartFmt.lean: the fields of a Chart image (R351 to R366), read from its bytes. A Chart is kept
as its bytes; the configuration the manager drives comes from the working copy through these readers (R370).
-/
namespace Sys2Proof

/-- A Chart image: its bytes from offset 0; the empty list is no Chart. -/
abbrev Image := List Byte

/-- The section types (R353). -/
def secTopology : Nat := 1
def secWorkers : Nat := 2
def secRose : Nat := 3
def secMarkRules : Nat := 4
def secQueues : Nat := 5
def secWake : Nat := 6
def secWatch : Nat := 7
def secEgress : Nat := 8
def secTime : Nat := 9
def secHk : Nat := 10
def secLimits : Nat := 11

/-- OFFSET of a section's directory entry (R353). -/
def secOff (g : Image) (t : Nat) : Nat := beField g (64 + 16 * (t - 1) + 4) 4

/-- LENGTH of a section's directory entry (R353). -/
def secLen (g : Image) (t : Nat) : Nat := beField g (64 + 16 * (t - 1) + 8) 4

/-- The field of `n` bytes at byte `o` of section `t`. -/
def chartF (g : Image) (t o n : Nat) : Nat := beField g (secOff g t + o) n

/-- A two's complement field. -/
def chartS (g : Image) (t o n : Nat) : Int := signedOf (8 * n) (chartF g t o n)

/-! ## TOPOLOGY (R355) -/

def topCfg (g : Image) (n : Nat) : Nat := chartF g secTopology (12 + 4 * n) 1 % 8
def topNEven (g : Image) (n : Nat) : Nat := chartF g secTopology (13 + 4 * n) 1
def topNOdd (g : Image) (n : Nat) : Nat := chartF g secTopology (14 + 4 * n) 1
def topPolicy (g : Image) (n : Nat) : Nat := bitsOf (chartF g secTopology (15 + 4 * n) 1) 6 5
def topHome (g : Image) (n : Nat) : Nat := chartF g secTopology (15 + 4 * n) 1 % 32

/-! ## WORKERS (R356) -/

def wkCount (g : Image) : Nat := chartF g secWorkers 64 2
def wkSlot (g : Image) (i : Nat) : Nat := chartF g secWorkers (72 + 16 * i) 2

/-- The entry that lists a slot. -/
def wkEntry (g : Image) (slot : Nat) : Option Nat :=
  if g = [] then none else (List.range (wkCount g)).find? (fun i => wkSlot g i == slot)

def wkPart (g : Image) (i : Nat) : Nat := chartF g secWorkers (74 + 16 * i) 2
def wkMinRev (g : Image) (i : Nat) : Nat := chartF g secWorkers (76 + 16 * i) 1
def wkFlags (g : Image) (i : Nat) : Nat := chartF g secWorkers (77 + 16 * i) 1
def wkWofs (g : Image) (i : Nat) : Int := chartS g secWorkers (78 + 16 * i) 2

/-- A worker matches the population (R357): PART equal, REV at least MIN_REV. -/
def wkMatches (g : Image) (slot part rev : Nat) : Bool :=
  match wkEntry g slot with
  | some i => part == wkPart g i && decide (wkMinRev g i ≤ rev)
  | none => false

/-! ## LIMITS (R366) -/

/-- A LIMITS flag permits its autonomous action; with no working copy nothing is permitted. -/
def limFlag (g : Image) (b : Nat) : Bool := g ≠ [] && bitOf (chartF g secLimits 0 4) b

def limTrimAuto : Nat := 31
def limMaskAuto : Nat := 30
def limEqTrack : Nat := 29
def limBalance : Nat := 28
def limStreamMove : Nat := 27
def limLaneSpare : Nat := 26
def limTilePg : Nat := 25
def limAutoReenable : Nat := 24
def limOccLo (g : Image) : Nat := chartF g secLimits 4 4
def limOccHi (g : Image) : Nat := chartF g secLimits 8 4
def limTrimStep (g : Image) : Nat := chartF g secLimits 12 1
def limTrimDev (g : Image) : Nat := chartF g secLimits 13 1
def limTrimInt (g : Image) : Nat := chartF g secLimits 14 2
def limMaskMax (g : Image) : Nat := chartF g secLimits 16 2
def limNoisyRate (g : Image) : Nat := chartF g secLimits 20 4
def limRebalMin (g : Image) : Nat := chartF g secLimits 28 1
def limMoves (g : Image) : Nat := chartF g secLimits 29 1
def limEngFirst (g : Image) : Nat := chartF g secLimits 30 1
def limPgIdle (g : Image) : Nat := chartF g secLimits 32 2
def limPgMax (g : Image) : Nat := chartF g secLimits 34 1
def limSpanMin (g : Image) : Nat := chartF g secLimits 36 4
def limSpanMax (g : Image) : Nat := chartF g secLimits 40 4
def limSplitLo (g : Image) (n : Nat) : Nat := chartF g secLimits (48 + 2 * n) 1
def limSplitHi (g : Image) (n : Nat) : Nat := chartF g secLimits (49 + 2 * n) 1

/-! ## TIME (R364): skews -/

def timeNSkew (g : Image) : Nat := chartF g secTime 30 2
def timeNPSkew (g : Image) : Nat := chartF g secTime 32 2
def timeHidx (g : Image) : Nat := chartF g secTime 4 1

/-- σ of a worker segment by its table index; 0 when no entry lists it. -/
def segSkew (g : Image) (ix : Nat) : Int :=
  if g = [] then 0
  else match (List.range (timeNSkew g)).find? (fun i => chartF g secTime (36 + 4 * i) 2 == ix) with
    | some i => chartS g secTime (38 + 4 * i) 2
    | none => 0

/-- σ of a peer segment; 0 when no entry lists it. -/
def peerSkew (g : Image) (seg : Nat) : Int :=
  if g = [] then 0
  else
    let b := 36 + 4 * timeNSkew g
    match (List.range (timeNPSkew g)).find? (fun j => chartF g secTime (b + 4 * j) 1 == seg) with
    | some j => chartS g secTime (b + 4 * j + 2) 2
    | none => 0

/-! ## ROSE (R358) -/

def roseNGroups (g : Image) : Nat := chartF g secRose 1 1
def roseNEng (g : Image) : Nat := chartF g secRose 2 1
/-- Offset of group record i, and of engine record i, in the section. -/
def roseGrp (i : Nat) : Nat := 8 + 16 * i
def roseEng (g : Image) (i : Nat) : Nat := 8 + 16 * roseNGroups g + 36 * i

/-! ## MARKRULES (R359) -/

def mrNMem (g : Image) : Nat := chartF g secMarkRules 0 4
def mrNSet (g : Image) : Nat := chartF g secMarkRules 4 2
def mrNRule (g : Image) : Nat := chartF g secMarkRules 6 2
def mrSetOff (g : Image) : Nat := 8 + 8 * mrNMem g
def mrRuleOff (g : Image) : Nat := mrSetOff g + 4 * mrNSet g

/-- The four tile-set numbers of a global tile; 0xFF: none (R308). -/
def mrSets (g : Image) (tile : Nat) : List Nat :=
  if g = [] then []
  else match (List.range (mrNMem g)).find? (fun i => chartF g secMarkRules (8 + 8 * i) 2 == tile) with
    | some i => (List.range 4).map (fun j => chartF g secMarkRules (8 + 8 * i + 2 + j) 1)
    | none => []

/-- The window W of a tile set, when it is listed. -/
def mrWindow (g : Image) (set : Nat) : Option Nat :=
  if g = [] then none
  else ((List.range (mrNSet g)).find? (fun i => chartF g secMarkRules (mrSetOff g + 4 * i) 1 == set)).map
    (fun i => chartF g secMarkRules (mrSetOff g + 4 * i + 2) 2 % 4096 + 1)

/-- The offset of a rule's record. -/
def mrRule (g : Image) (r : Nat) : Option Nat :=
  if g = [] then none
  else ((List.range (mrNRule g)).map (fun i => mrRuleOff g + 88 * i)).find? (fun o => chartF g secMarkRules o 1 == r)

/-- Term word j of a rule (R308). -/
def mrTerm (g : Image) (o j : Nat) : Nat := chartF g secMarkRules (o + 24 + 4 * j) 4

/-! ## QUEUES (R360) -/

/-- The values of a logical queue in cells: GUAR, MAX, HWM, LWM, FULL_WM. -/
structure QParam where
  guar : Nat
  max : Nat
  hwm : Nat
  lwm : Nat
  full : Nat
  deriving DecidableEq, Repr

/-- A class record at an offset of the section. -/
def qRecord (g : Image) (o : Nat) : QParam :=
  let f := fun i => chartF g secQueues (o + 2 * i) 2
  ⟨f 0, f 1, f 2, f 3, f 4⟩

def quNOvr (g : Image) : Nat := chartF g secQueues 10 2

/-- The values of queue q: its override, else its class record; all 0 for a slot WORKERS does not list. -/
def qParam (g : Image) (q : Nat) : QParam :=
  if (wkEntry g (q / 8)).isNone then ⟨0, 0, 0, 0, 0⟩
  else match (List.range (quNOvr g)).find? (fun i => chartF g secQueues (112 + 12 * i) 2 == q) with
    | some i => qRecord g (112 + 12 * i + 2)
    | none => qRecord g (16 + 12 * (q % 8))

/-! ## WAKE, WATCH, EGRESS (R361 to R363) -/

def wakePeerGroups (g : Image) : Nat := if g = [] then 0 else chartF g secWake 4 4
def wakeScrubMin (g : Image) : Nat := chartF g secWake 8 2
def watchN (g : Image) : Nat := chartF g secWatch 0 1

/-- The WATCH record of a group: its offset. -/
def watchRec (g : Image) (grp : Nat) : Option Nat :=
  if g = [] then none
  else ((List.range (watchN g)).map (fun i => 4 + 12 * i)).find? (fun o => chartF g secWatch o 1 == grp)

def egNDest (g : Image) : Nat := chartF g secEgress 3 1
def egNMon (g : Image) : Nat := chartF g secEgress 26 2

/-- Word w of destination d (R350, R363); what no record gives reads 0. -/
def destWord (g : Image) (d w : Nat) : Nat :=
  if g = [] ∨ egNDest g ≤ d ∨ 13 ≤ w then 0 else chartF g secEgress (128 + 52 * d + 4 * w) 4

/-- Register j of the MONITOR frames. -/
def monReg (g : Image) (j : Nat) : Nat := chartF g secEgress (128 + 52 * egNDest g + 4 * j) 4

def watchDest (g : Image) (grp : Nat) : Nat := if g = [] then 0xFF else chartF g secEgress (64 + 2 * grp) 1
def markDest (g : Image) (grp : Nat) : Nat := if g = [] then 0xFF else chartF g secEgress (65 + 2 * grp) 1
def mgrId (g : Image) : Nat := chartF g secTopology 0 2

end Sys2Proof
end

