-- ==== Sys2Proof/Machine/Blocks.lean ====
section
/-!
DEFINITION. Machine/Blocks.lean: the blocks of a Plom lane (R169 to R171), the control block codes (R187), the checks
(R188), the body layouts (R189), packet kinds and limits (R192), and the direction of a block (R521).
-/
namespace Sys2Proof

/-- A block: the header H[1:0] and the payload P[119:0] (R170). -/
structure Block where
  hdr : BitVec 2
  pay : BitVec 120
  deriving DecidableEq, Repr

/-- Bits `[hi:lo]` of the payload. -/
def Block.f (b : Block) (hi lo : Nat) : Nat := bitsOf b.pay.toNat hi lo

/-- A data block: header 0b01 (R171). -/
def Block.data (n : Nat) : Block := ⟨1, BitVec.ofNat 120 n⟩

/-- The block's header says data (R171). -/
def Block.isData (b : Block) : Bool := b.hdr == 1

/-- The block's header says control (R171). -/
def Block.isCtl (b : Block) : Bool := b.hdr == 2

/-- The header is one of the two valid ones (R171). -/
def Block.validHdr (b : Block) : Bool := b.isData || b.isCtl

/-- The control block types (R187). -/
inductive CtlType
  | idle | beacon | sighting | mark | cmd | reply | throttle | trim | epochEnd | pktStart | pktEnd
  deriving DecidableEq, Repr

/-- The TYPE code of a control block (R187). -/
def CtlType.code : CtlType → Nat
  | .idle => 0x1E | .beacon => 0x2D | .sighting => 0x33 | .mark => 0x4B | .cmd => 0x55 | .reply => 0x66
  | .throttle => 0x78 | .trim => 0x87 | .epochEnd => 0x99 | .pktStart => 0xAA | .pktEnd => 0xB4

/-- Every listed type (R187). -/
def CtlType.all : List CtlType :=
  [.idle, .beacon, .sighting, .mark, .cmd, .reply, .throttle, .trim, .epochEnd, .pktStart, .pktEnd]

/-- The type a TYPE field names, if it is listed (R187). -/
def ctlTypeOf (n : Nat) : Option CtlType := CtlType.all.find? (fun t => t.code == n)

/-- The type of a control block. -/
def Block.type (b : Block) : Option CtlType := if b.isCtl then ctlTypeOf (b.f 119 112) else none

/-- The block is a control block of type `t`. -/
def Block.is (b : Block) (t : CtlType) : Bool := b.type == some t

/-- The parity of the payload bits P[i] with i mod 3 = j (R188). -/
def parityClass (n j : Nat) : Bool :=
  (List.range 40).foldl (fun a k => a != n.testBit (3 * k + j)) false

/-- The CRC-8 of P[119:8] (R188). -/
def checkOf (n : Nat) : Nat := crc8 ((beBits 120 n).take 112)

/-- The check field of a control block holds (R188): parity for SIGHTING, CRC-8 for every other type. -/
def Block.checkOk (b : Block) : Bool :=
  if b.f 119 112 = CtlType.sighting.code then
    !parityClass b.pay.toNat 0 && !parityClass b.pay.toNat 1 && !parityClass b.pay.toNat 2
  else checkOf b.pay.toNat == b.f 7 0

/-- A control block with its CRC-8: `body` holds P[111:8] in place. -/
def ctlBlock (t : CtlType) (body : Nat) : Block :=
  let n := t.code * 2 ^ 112 + body
  ⟨2, BitVec.ofNat 120 (n + checkOf n)⟩

/-- A field value placed at bits `[hi:lo]`. -/
def at_ (hi lo n : Nat) : Nat := lowBits (hi + 1 - lo) n * 2 ^ lo

/-- IDLE (R189): RX_ST, POS, PART, REV and SIDE of the sending port. -/
def mkIdle (rxSt pos part rev side : Nat) : Block :=
  ctlBlock .idle (at_ 111 110 rxSt + at_ 109 105 pos + at_ 104 89 part + at_ 88 81 rev + at_ 80 79 side)

/-- BEACON form 0b00: time (R189). -/
def mkTimeBeacon (pos : Nat) (set : Bool) (count : Nat) (adj : Int) : Block :=
  ctlBlock .beacon (at_ 109 105 pos + at_ 104 104 set.toNat + at_ 103 56 count + at_ 55 36 (patternOf 20 adj))

/-- BEACON form 0b01: time reference (R143, R189). -/
def mkTimeRef (pos reason count : Nat) : Block :=
  ctlBlock .beacon (at_ 111 110 1 + at_ 109 105 pos + at_ 104 103 reason + at_ 102 55 count)

/-- BEACON form 0b10: probe (R189). -/
def mkProbe (pos tag : Nat) : Block := ctlBlock .beacon (at_ 111 110 2 + at_ 109 105 pos + at_ 103 88 tag)

/-- BEACON form 0b10: echo (R189). -/
def mkEcho (pos tag rxCount rxFine turn : Nat) : Block :=
  ctlBlock .beacon (at_ 111 110 2 + at_ 109 105 pos + at_ 104 104 1 + at_ 103 88 tag + at_ 87 40 rxCount
    + at_ 39 30 rxFine + at_ 29 10 turn)

/-- BEACON form 0b11: peer time (R189). -/
def mkPeerTime (state seq sec ns sub : Nat) : Block :=
  ctlBlock .beacon (at_ 111 110 3 + at_ 109 108 state + at_ 107 100 seq + at_ 99 68 sec + at_ 67 38 ns + at_ 37 28 sub)

/-- SIGHTING, with its three parity bits (R154, R188, R189). -/
def mkSighting (pos tiles stamp : Nat) : Block :=
  let n := CtlType.sighting.code * 2 ^ 112 + at_ 111 107 pos + at_ 106 43 tiles + at_ 42 3 stamp
  let c := (parityClass n 0).toNat + 2 * (parityClass n 1).toNat + 4 * (parityClass n 2).toNat
  ⟨2, BitVec.ofNat 120 (n + c)⟩

/-- MARK form 0: worker form (R146, R189). -/
def mkMark (pos id start lenM1 : Nat) : Block :=
  ctlBlock .mark (at_ 110 106 pos + at_ 105 94 id + at_ 93 54 start + at_ 53 39 lenM1)

/-- MARK form 1: peer form (R189). -/
def mkPeerMark (id sec ns sub pre post : Nat) : Block :=
  ctlBlock .mark (at_ 111 111 1 + at_ 110 99 id + at_ 98 83 sec + at_ 82 53 ns + at_ 52 43 sub + at_ 42 26 pre + at_ 25 9 post)

/-- CMD (R189). -/
def mkCmd (pos : Nat) (wr : Bool) (addr data seq : Nat) : Block :=
  ctlBlock .cmd (at_ 111 107 pos + at_ 106 106 wr.toNat + at_ 105 90 addr + at_ 89 58 data + at_ 57 50 seq)

/-- REPLY (R189). -/
def mkReply (pos status addr data seq : Nat) : Block :=
  ctlBlock .reply (at_ 111 107 pos + at_ 106 104 status + at_ 103 88 addr + at_ 87 56 data + at_ 55 48 seq)

/-- THROTTLE (R189). -/
def mkThrottle (pos rate : Nat) : Block := ctlBlock .throttle (at_ 111 107 pos + at_ 106 99 rate)

/-- One update of a TRIM block: VALID, pixel address, SEL and VALUE (R161, R189). -/
def trimUpd (a : Nat) (hi : Bool) (v : Nat) : Nat := 2 ^ 21 + at_ 20 7 a + at_ 6 6 hi.toNat + at_ 5 0 v

/-- TRIM, with up to four updates (R161, R189). -/
def mkTrim (pos : Nat) (us : List Nat) : Block :=
  let u := fun i => us.getD i 0
  ctlBlock .trim (at_ 111 107 pos + at_ 106 85 (u 0) + at_ 84 63 (u 1) + at_ 62 41 (u 2) + at_ 40 19 (u 3))

/-- EPOCH_END (R189). -/
def mkEpochEnd (pos epoch : Nat) : Block := ctlBlock .epochEnd (at_ 111 107 pos + at_ 106 99 epoch)

/-- PKT_START (R189). -/
def mkPktStart (pos kind len epoch : Nat) : Block :=
  ctlBlock .pktStart (at_ 111 107 pos + at_ 106 104 kind + at_ 103 92 len + at_ 91 84 epoch)

/-- PKT_END (R189): a packet cut short carries CRC 0. -/
def mkPktEnd (pos : Nat) (trunc : Bool) (sent crc : Nat) : Block :=
  ctlBlock .pktEnd (at_ 111 107 pos + at_ 106 106 trunc.toNat + at_ 105 94 sent + at_ 93 62 (if trunc then 0 else crc))

/-- The POS field of a control block, where its type carries one (R189). -/
def Block.pos (b : Block) : Nat :=
  match b.type with
  | some .idle => b.f 109 105
  | some .beacon => b.f 109 105
  | some .mark => b.f 110 106
  | _ => b.f 111 107

/-- The FORM field of a BEACON (R189). -/
def Block.form (b : Block) : Nat := b.f 111 110

/-- The upstream types and forms (R521). -/
def Block.upstream (b : Block) : Bool :=
  match b.type with
  | some .beacon => b.form == 1 || (b.form == 2 && b.f 104 104 == 1)
  | some .sighting | some .reply | some .epochEnd | some .pktStart | some .pktEnd => true
  | _ => false

/-- The downstream types and forms (R521). -/
def Block.downstream (b : Block) : Bool :=
  match b.type with
  | some .beacon => b.form == 0 || (b.form == 2 && b.f 104 104 == 0)
  | some .mark => b.f 111 111 == 0
  | some .cmd | some .throttle | some .trim => true
  | _ => false

/-- The types and forms a peer port accepts (R521). -/
def Block.peerKind (b : Block) : Bool :=
  match b.type with
  | some .beacon => b.form == 2 || b.form == 3
  | some .mark => b.f 111 111 == 1
  | _ => false

/-- What travels outward, away from the lead (R521). -/
def Block.outward (b : Block) : Bool :=
  match b.type with
  | some .mark => b.f 111 111 == 1
  | some .beacon => b.form == 3 || (b.form == 2 && b.f 104 104 == 1)
  | _ => false

/-- The packet kinds (R192). -/
def kindRecords : Nat := 0
def kindMarkResult : Nat := 1
def kindMonitor : Nat := 2

/-- A PKT_START's LEN is one the Packet kinds table allows for its KIND (R192). -/
def lenAllowed (kind len : Nat) : Bool :=
  match kind with
  | 0 => 1 ≤ len && len ≤ 255
  | 1 => 1 ≤ len && len ≤ 4095
  | 2 => len == 2
  | _ => false

/-- The status with which framing closes an item (R193). -/
inductive ItemStatus
  | ok | crcErr | lenErr | trunc
  deriving DecidableEq, Repr

/-- The packet CRC register taken over one more data block (R191). -/
def crcData (r : Nat) (b : Block) : Nat := (beBits 120 b.pay.toNat).foldl (crcStep 32 0x1EDC6F41) r

/-- An empty record slot: 60 one bits (R141). -/
def emptySlot : Nat := 2 ^ 60 - 1

end Sys2Proof
end

