-- ==== Sys2Proof/Machine/Line.lean ====
section
/-!
DEFINITION. Machine/Line.lean: the line code of a Plom lane: the scrambler (R172), bit stuffing (R173 to R177), the
PRBS generators and checkers (R184, R201) and error injection (R202).
-/
namespace Sys2Proof

/-- The transmit side of the line code: run count and last bit (R173), and the scrambler's 47 stored bits, the newest
in bit 0 (R172). -/
structure LineTx where
  run : Nat
  last : Bool
  scr : BitVec 47
  deriving DecidableEq, Repr

/-- The transmit line code after reset: the 47 stored bits are all 1 (R172). -/
def LineTx.init : LineTx := ⟨0, false, BitVec.allOnes 47⟩

/-- The receive side: run count and last bit (R177), and the last 47 scrambled bits, the newest in bit 0. -/
structure LineRx where
  run : Nat
  last : Bool
  desc : BitVec 47
  deriving DecidableEq, Repr

/-- The receive line code before any bit. -/
def LineRx.init : LineRx := ⟨0, false, 0⟩

/-- The run count after one more line bit (R173). -/
def runNext (run : Nat) (last b : Bool) : Nat := if run ≠ 0 ∧ b = last then run + 1 else 1

/-- Push one line bit on the transmitter. -/
def LineTx.bit (t : LineTx) (b : Bool) : LineTx := { t with run := runNext t.run t.last b, last := b }

/-- Push one line bit on the receiver. -/
def LineRx.bit (t : LineRx) (b : Bool) : LineRx := { t with run := runNext t.run t.last b, last := b }

/-- Scramble one payload bit (R172). -/
def scramble (s : BitVec 47) (d : Bool) : Bool × BitVec 47 :=
  let e := (d != s.getLsbD 41) != s.getLsbD 46
  (e, (s <<< 1) ||| BitVec.ofNat 47 e.toNat)

/-- Descramble one scrambled bit (R172). -/
def descramble (s : BitVec 47) (e : Bool) : Bool × BitVec 47 :=
  ((e != s.getLsbD 41) != s.getLsbD 46, (s <<< 1) ||| BitVec.ofNat 47 e.toNat)

/-- Send payload bits, scrambled and stuffed (R172, R174); the line bits come out in order. -/
def LineTx.payload : LineTx → List Bool → List Bool × LineTx
  | t, [] => ([], t)
  | t, d :: ds =>
    let (e, s) := scramble t.scr d
    let t1 := { t.bit e with scr := s }
    if t1.run = 20 then
      let t2 := t1.bit (!e)
      let (r, t3) := LineTx.payload t2 ds
      (e :: (!e) :: r, t3)
    else
      let (r, t3) := LineTx.payload t1 ds
      (e :: r, t3)

/-- Slack bits alternate, the first the complement of the bit before it (R175). -/
def LineTx.slack : Nat → LineTx → List Bool × LineTx
  | 0, t => ([], t)
  | n + 1, t =>
    let b := !t.last
    let (r, t2) := LineTx.slack n (t.bit b)
    (b :: r, t2)

/-- The 128 line bits of a block, line bit 0 first (R170). -/
def encodeBlock (t : LineTx) (b : Block) : List Bool × LineTx :=
  let h1 := b.hdr.getLsbD 1
  let h0 := b.hdr.getLsbD 0
  let (ps, t1) := ((t.bit h1).bit h0).payload (beBits 120 b.pay.toNat)
  let (ss, t2) := t1.slack (126 - ps.length)
  (h1 :: h0 :: ps ++ ss, t2)

/-- The result of destuffing a payload field: scrambled payload bits and whether a stuff error occurred (R177). -/
structure Destuffed where
  bits : List Bool
  err : Bool
  rx : LineRx
  deriving DecidableEq, Repr

/-- Take in slack bits: they count toward the run and are otherwise ignored (R173, R177). -/
def LineRx.slackBits (r : LineRx) (l : List Bool) : LineRx := l.foldl LineRx.bit r

/-- Remove stuffed bits until `n` payload bits are collected (R177). -/
def destuff : Nat → LineRx → List Bool → Destuffed
  | 0, r, l => ⟨[], false, r.slackBits l⟩
  | n + 1, r, [] => ⟨List.replicate (n + 1) false, true, r⟩
  | n + 1, r, b :: l =>
    let r1 := r.bit b
    if r1.run = 20 then
      match l with
      | [] => ⟨b :: List.replicate n false, true, r1⟩
      | s :: l2 =>
        let d := destuff n (r1.bit s) l2
        ⟨b :: d.bits, d.err || s == b, d.rx⟩
    else
      let d := destuff n r1 l
      ⟨b :: d.bits, d.err, d.rx⟩

/-- Descramble collected payload bits (R172). -/
def descrambleAll : BitVec 47 → List Bool → List Bool × BitVec 47
  | s, [] => ([], s)
  | s, e :: es =>
    let (d, s1) := descramble s e
    let (r, s2) := descrambleAll s1 es
    (d :: r, s2)

/-- Decode the 128 line bits of a block: the block, whether it had a stuff error, and the receiver after it. -/
def decodeBlock (r : LineRx) (l : List Bool) : Block × Bool × LineRx :=
  let h := l.take 2
  let r1 := r.slackBits h
  let d := destuff 120 r1 (l.drop 2)
  let (p, s) := descrambleAll d.rx.desc d.bits
  (⟨BitVec.ofNat 2 (bitsNat h), BitVec.ofNat 120 (bitsNat p)⟩, d.err, { d.rx with desc := s })

/-- One bit of a PRBS generator, PRBS31 or PRBS7; the newest output is in bit 0 of the register (R184, R201). -/
def prbsBit (p31 : Bool) (s : BitVec 31) : Bool × BitVec 31 :=
  let o := if p31 then s.getLsbD 27 != s.getLsbD 30 else s.getLsbD 5 != s.getLsbD 6
  (o, (s <<< 1) ||| BitVec.ofNat 31 o.toNat)

/-- The next `n` bits of a PRBS generator. -/
def prbsBits (p31 : Bool) : Nat → BitVec 31 → List Bool × BitVec 31
  | 0, s => ([], s)
  | n + 1, s =>
    let (o, s1) := prbsBit p31 s
    let (r, s2) := prbsBits p31 n s1
    (o :: r, s2)

/-- The self-synchronising checker over received bits: the number of mismatches and the register after them
(R185, R201). -/
def prbsCheck (p31 : Bool) : BitVec 31 → List Bool → Nat × BitVec 31
  | s, [] => (0, s)
  | s, b :: bs =>
    let o := if p31 then s.getLsbD 27 != s.getLsbD 30 else s.getLsbD 5 != s.getLsbD 6
    let (n, s2) := prbsCheck p31 ((s <<< 1) ||| BitVec.ofNat 31 b.toNat) bs
    (n + (o != b).toNat, s2)

/-- Invert line bits `[i, i + n)` (R202). -/
def invertBits (l : List Bool) (i n : Nat) : List Bool :=
  (l.zipIdx).map (fun (b, k) => if i ≤ k ∧ k < i + n then !b else b)

end Sys2Proof
end

