-- ==== Sys2Proof/Machine/Regs.lean ====
section
/-!
DEFINITION. Machine/Regs.lean: the register tables of the manual (R14): every register with its address, its value
after power-on reset, its writable bits by access code (R15) and the roles of its RWL fields (R16); and a name for
every field.
-/
namespace Sys2Proof

/-- A field of a register: bits `[hi:lo]` of the word at `reg` (R8). -/
structure Fld where
  reg : Nat
  hi : Nat
  lo : Nat
  deriving DecidableEq, Repr

/-- The Role column of a register table (R14, R458). -/
inductive RoleCol
  | any | operator | installer | instOrMaker
  deriving DecidableEq, Repr

/-- An RWL field: its bits, the role that may write it, and whether hardware clears it (R16). -/
structure RwlFld where
  hi : Nat
  lo : Nat
  role : RoleCol
  selfClear : Bool
  deriving DecidableEq, Repr

/-- A row of the register map: `count` words from `base`, `stride` addresses apart. -/
structure RegSpec where
  name : String
  base : Nat
  stride : Nat
  count : Nat
  reset : Nat
  rw : Nat
  w1c : Nat
  rwl : List RwlFld
  deriving DecidableEq, Repr

/-- The address `a` is one of the row's words. -/
def RegSpec.covers (r : RegSpec) (a : Nat) : Bool :=
  r.base ≤ a && (a - r.base) % r.stride == 0 && (a - r.base) / r.stride < r.count

/-- Rows of `mgrSpecs`, part 0. -/
def mgrSpecs0 : List RegSpec := [
  ⟨"GBL_ID", 0x40000000, 4, 1, 0xa313000, 0x0, 0x0, []⟩,
  ⟨"MER_CTL", 0x44000000, 4, 1, 0x0, 0x0, 0x0, [⟨31, 29, .installer, false⟩, ⟨28, 28, .installer, false⟩, ⟨27, 27, .installer, false⟩, ⟨26, 26, .installer, false⟩, ⟨23, 16, .installer, false⟩]⟩,
  ⟨"MER_STAT", 0x44000004, 4, 1, 0x0, 0x0, 0xf000, []⟩,
  ⟨"MER_NOW_SEC_HI", 0x44000008, 4, 1, 0x0, 0x0, 0x0, []⟩,
  ⟨"MER_NOW_SEC_LO", 0x4400000c, 4, 1, 0x0, 0x0, 0x0, []⟩,
  ⟨"MER_NOW_NS", 0x44000010, 4, 1, 0x0, 0x0, 0x0, []⟩,
  ⟨"MER_NOW_SUB", 0x44000014, 4, 1, 0x0, 0x0, 0x0, []⟩,
  ⟨"MER_SET_SEC_HI", 0x44000018, 4, 1, 0x0, 0x0, 0x0, [⟨31, 0, .installer, false⟩]⟩,
  ⟨"MER_SET_SEC_LO", 0x4400001c, 4, 1, 0x0, 0x0, 0x0, [⟨31, 0, .installer, false⟩]⟩,
  ⟨"MER_SET_NS", 0x44000020, 4, 1, 0x0, 0x0, 0x0, [⟨29, 0, .installer, false⟩]⟩,
  ⟨"MER_SET_CTL", 0x44000024, 4, 1, 0x0, 0x0, 0x0, [⟨31, 31, .installer, true⟩]⟩,
  ⟨"MER_OFFSET", 0x44000028, 4, 1, 0x0, 0x0, 0x0, []⟩,
  ⟨"MER_FREQ", 0x4400002c, 4, 1, 0x0, 0x0, 0x0, []⟩,
  ⟨"MER_SERVO", 0x44000030, 4, 1, 0xc801400, 0x0, 0x0, [⟨31, 21, .installer, false⟩, ⟨20, 8, .installer, false⟩]⟩,
  ⟨"MER_HOLD", 0x44000034, 4, 1, 0x64000a, 0x0, 0x0, [⟨31, 16, .installer, false⟩, ⟨15, 0, .installer, false⟩]⟩,
  ⟨"MER_RECK", 0x44000038, 4, 1, 0x0, 0x0, 0x0, []⟩,
  ⟨"MER_PADJ", 0x4400003c, 4, 1, 0x0, 0xffffffff, 0x0, []⟩,
  ⟨"MER_FADJ", 0x44000040, 4, 1, 0x0, 0xffffffff, 0x0, []⟩,
  ⟨"MER_PTP_LAT", 0x44000044, 4, 1, 0x0, 0x0, 0x0, [⟨31, 16, .installer, false⟩, ⟨15, 0, .installer, false⟩]⟩,
  ⟨"MER_REF_DLY", 0x44000048, 4, 1, 0x0, 0x0, 0x0, [⟨19, 0, .installer, false⟩]⟩,
  ⟨"MER_PPS_OUT", 0x4400004c, 4, 1, 0x0, 0x0, 0x0, [⟨31, 31, .installer, false⟩, ⟨30, 30, .installer, false⟩, ⟨29, 0, .installer, false⟩]⟩,
  ⟨"MER_TXTS_STAT", 0x44000050, 4, 1, 0x0, 0x0, 0x80000000, []⟩,
  ⟨"MER_TXTS_ID", 0x44000054, 4, 1, 0x0, 0x0, 0x0, []⟩,
  ⟨"MER_TXTS_SEC_HI", 0x44000058, 4, 1, 0x0, 0x0, 0x0, []⟩]

/-- Rows of `mgrSpecs`, part 1. -/
def mgrSpecs1 : List RegSpec := [
  ⟨"MER_TXTS_SEC_LO", 0x4400005c, 4, 1, 0x0, 0x0, 0x0, []⟩,
  ⟨"MER_TXTS_NS", 0x44000060, 4, 1, 0x0, 0x0, 0x0, []⟩,
  ⟨"MER_TXTS_SUB", 0x44000064, 4, 1, 0x0, 0x0, 0x0, []⟩,
  ⟨"MER_TXTS_POP", 0x44000068, 4, 1, 0x0, 0x80000000, 0x0, []⟩,
  ⟨"MER_WK_CTL", 0x44000070, 4, 1, 0x401a3300, 0x0, 0x0, [⟨31, 28, .installer, false⟩, ⟨27, 16, .installer, false⟩, ⟨15, 8, .installer, false⟩]⟩,
  ⟨"MER_ASYM", 0x44000074, 4, 1, 0x0, 0x0, 0x0, []⟩,
  ⟨"MER_PEER_STAT", 0x44000078, 4, 1, 0x0, 0x0, 0x0, []⟩,
  ⟨"MER_TBL_ADDR", 0x44000080, 4, 1, 0x0, 0xf000ffff, 0x0, []⟩,
  ⟨"MER_TBL_DATA", 0x44000084, 4, 1, 0x0, 0xffffffff, 0x0, []⟩,
  ⟨"QUE_CTL", 0x4b000000, 4, 1, 0x405f50, 0x0, 0x0, [⟨31, 31, .installer, false⟩, ⟨30, 30, .installer, false⟩, ⟨23, 16, .installer, false⟩, ⟨15, 8, .installer, false⟩, ⟨7, 0, .installer, false⟩]⟩,
  ⟨"QUE_STAT", 0x4b000004, 4, 1, 0x0, 0x0, 0xf8000000, []⟩,
  ⟨"QUE_POOL", 0x4b000008, 4, 1, 0x0, 0x0, 0x0, []⟩,
  ⟨"QUE_POOL_MIN", 0x4b00000c, 4, 1, 0x0, 0x3fffff, 0x0, []⟩,
  ⟨"QUE_BUSY", 0x4b000010, 4, 1, 0x40200200, 0x0, 0x0, [⟨31, 30, .installer, false⟩, ⟨29, 28, .installer, false⟩, ⟨25, 13, .installer, false⟩, ⟨12, 0, .installer, false⟩]⟩,
  ⟨"QUE_FLUSH", 0x4b000014, 4, 1, 0xa00000, 0x0, 0x0, [⟨31, 31, .installer, true⟩, ⟨29, 28, .installer, false⟩, ⟨27, 20, .installer, false⟩, ⟨12, 0, .installer, false⟩]⟩,
  ⟨"QUE_TBL_ADDR", 0x4b000018, 4, 1, 0x0, 0x8000ffff, 0x0, []⟩,
  ⟨"QUE_TBL_DATA", 0x4b00001c, 4, 1, 0x0, 0x0, 0x0, []⟩,
  ⟨"QUE_DCQ", 0x4b001000, 4, 128, 0x0, 0x3f00, 0x0, []⟩,
  ⟨"QUE_OCC", 0x4b001200, 4, 128, 0x0, 0x0, 0x0, []⟩,
  ⟨"RSE_CTL", 0x41000000, 4, 1, 0x1000000a, 0x0, 0x0, [⟨31, 31, .installer, false⟩, ⟨30, 24, .installer, false⟩, ⟨23, 20, .installer, false⟩, ⟨19, 16, .installer, true⟩, ⟨15, 0, .installer, false⟩]⟩,
  ⟨"RSE_STAT", 0x41000004, 4, 1, 0x0, 0x0, 0xfc000000, []⟩,
  ⟨"RSE_MIG", 0x41000008, 4, 1, 0x0, 0x0, 0x0, [⟨31, 31, .installer, true⟩, ⟨22, 13, .installer, false⟩, ⟨12, 12, .installer, false⟩, ⟨7, 0, .installer, false⟩]⟩,
  ⟨"RSE_RULE_EN", 0x41000010, 4, 8, 0x0, 0x0, 0x0, [⟨31, 0, .installer, false⟩]⟩,
  ⟨"RSE_TBL_ADDR", 0x41000030, 4, 1, 0x0, 0xe000ffff, 0x0, []⟩]

/-- Rows of `mgrSpecs`, part 2. -/
def mgrSpecs2 : List RegSpec := [
  ⟨"RSE_TBL_DATA", 0x41000034, 4, 1, 0x0, 0x0, 0x0, []⟩,
  ⟨"RSE_ENG", 0x41001000, 4, 224, 0xff0000, 0x0, 0x0, []⟩,
  ⟨"WKE_CTL", 0x42000000, 4, 1, 0x4b3203e8, 0x0, 0x0, [⟨31, 24, .installer, false⟩, ⟨23, 16, .installer, false⟩, ⟨15, 0, .installer, false⟩]⟩,
  ⟨"WKE_STAT", 0x42000004, 4, 1, 0x0, 0x0, 0x7f800000, []⟩,
  ⟨"WKE_DEPTH", 0x42000008, 4, 1, 0x0, 0x0, 0x0, []⟩,
  ⟨"WKE_FACTOR", 0x4200000c, 4, 1, 0xffff0000, 0xffff0000, 0x0, []⟩,
  ⟨"WKE_PAGES", 0x42000010, 4, 1, 0xf8000000, 0x0, 0x0, []⟩,
  ⟨"WKE_MQ", 0x42000014, 4, 1, 0x0, 0x0, 0x0, []⟩,
  ⟨"WKE_MIN0", 0x42000020, 16, 4, 0x400000, 0x0, 0x0, [⟨31, 31, .installer, false⟩, ⟨30, 30, .installer, false⟩, ⟨29, 29, .installer, false⟩, ⟨27, 16, .installer, false⟩, ⟨15, 0, .installer, false⟩]⟩,
  ⟨"WKE_MIN1", 0x42000024, 16, 4, 0x0, 0x0, 0x0, [⟨16, 0, .installer, false⟩]⟩,
  ⟨"WKE_MIN2", 0x42000028, 16, 4, 0x0, 0x0, 0x0, [⟨16, 0, .installer, false⟩]⟩,
  ⟨"WKE_MIN3", 0x4200002c, 16, 4, 0x0, 0x0, 0x0, [⟨31, 0, .installer, false⟩]⟩,
  ⟨"WKE_DM_SEC_HI", 0x42000060, 4, 1, 0x0, 0x0, 0x0, [⟨31, 0, .operator, false⟩]⟩,
  ⟨"WKE_DM_SEC_LO", 0x42000064, 4, 1, 0x0, 0x0, 0x0, [⟨31, 0, .operator, false⟩]⟩,
  ⟨"WKE_DM_NS", 0x42000068, 4, 1, 0x0, 0x0, 0x0, [⟨29, 0, .operator, false⟩]⟩,
  ⟨"WKE_DM_PRE", 0x4200006c, 4, 1, 0x0, 0x0, 0x0, [⟨16, 0, .operator, false⟩]⟩,
  ⟨"WKE_DM_POST", 0x42000070, 4, 1, 0x0, 0x0, 0x0, [⟨16, 0, .operator, false⟩]⟩,
  ⟨"WKE_DM_GROUPS", 0x42000074, 4, 1, 0x0, 0x0, 0x0, [⟨31, 0, .operator, false⟩]⟩,
  ⟨"WKE_DM_CTL", 0x42000078, 4, 1, 0x0, 0x0, 0x0, [⟨31, 31, .operator, true⟩, ⟨30, 30, .operator, false⟩, ⟨15, 0, .operator, false⟩]⟩,
  ⟨"WKE_TBL_ADDR", 0x42000080, 4, 1, 0x0, 0xe003ffff, 0x0, []⟩,
  ⟨"WKE_TBL_DATA", 0x42000084, 4, 1, 0x0, 0x0, 0x0, []⟩,
  ⟨"WKE_WGRP0", 0x42000100, 32, 32, 0xfa00, 0x0, 0x0, [⟨31, 0, .operator, false⟩]⟩,
  ⟨"WKE_WGRP1", 0x42000104, 32, 32, 0x7d0, 0x0, 0x0, [⟨31, 0, .installer, false⟩]⟩,
  ⟨"WKE_WGRP2", 0x42000108, 32, 32, 0x0, 0x0, 0x0, []⟩]

/-- Rows of `mgrSpecs`, part 3. -/
def mgrSpecs3 : List RegSpec := [
  ⟨"WKE_WGRP3", 0x4200010c, 32, 32, 0x0, 0x0, 0x0, []⟩,
  ⟨"WKE_WGRP4", 0x42000110, 32, 32, 0x0, 0x0, 0x0, []⟩,
  ⟨"WKE_WGRP5", 0x42000114, 32, 32, 0x0, 0x0, 0x0, []⟩,
  ⟨"EGR_CTL", 0x43000000, 4, 1, 0xc8, 0x0, 0x0, [⟨31, 23, .installer, false⟩, ⟨15, 0, .installer, false⟩]⟩,
  ⟨"EGR_STAT", 0x43000004, 4, 1, 0x3c00000, 0x0, 0xf8000000, []⟩,
  ⟨"EGR_MAP", 0x43000008, 4, 1, 0xffffffff, 0x0, 0x0, []⟩,
  ⟨"EGR_FAULT", 0x4300000c, 4, 1, 0x100064, 0x0, 0x0, [⟨31, 16, .installer, false⟩, ⟨15, 0, .installer, false⟩]⟩,
  ⟨"EGR_FALLBACK", 0x43000010, 4, 1, 0xffffffff, 0x0, 0x0, []⟩,
  ⟨"EGR_SYSDEST", 0x43000014, 4, 1, 0x0, 0x0, 0x0, []⟩,
  ⟨"EGR_LANE0", 0x43000100, 16, 9, 0x0, 0x0, 0x0, []⟩,
  ⟨"EGR_LANE1", 0x43000104, 16, 9, 0x0, 0x0, 0x0, []⟩,
  ⟨"EGR_LANE2", 0x43000108, 16, 9, 0x0, 0x0, 0x0, []⟩,
  ⟨"EGR_LANE3", 0x4300010c, 16, 9, 0x0, 0x0, 0x0, []⟩,
  ⟨"EGR_GDEST", 0x43000300, 4, 32, 0x0, 0x0, 0x0, []⟩,
  ⟨"EGR_DEST_ADDR", 0x43000200, 4, 1, 0x0, 0x3ff, 0x0, []⟩,
  ⟨"EGR_DEST_DATA", 0x43000204, 4, 1, 0x0, 0x0, 0x0, []⟩,
  ⟨"GBL_CTL", 0x40000004, 4, 1, 0x0, 0x0, 0x0, [⟨31, 31, .operator, false⟩]⟩,
  ⟨"GBL_STAT", 0x40000008, 4, 1, 0x0, 0x0, 0x0, []⟩,
  ⟨"GBL_SERIAL_HI", 0x4000000c, 4, 1, 0x0, 0x0, 0x0, []⟩,
  ⟨"GBL_SERIAL_LO", 0x40000010, 4, 1, 0x0, 0x0, 0x0, []⟩,
  ⟨"GBL_CHART_CMD", 0x40000014, 4, 1, 0x0, 0x0, 0x0, [⟨31, 31, .installer, true⟩, ⟨30, 28, .installer, false⟩, ⟨25, 24, .installer, false⟩]⟩,
  ⟨"GBL_STG_LEN", 0x40000018, 4, 1, 0x0, 0x0, 0x0, [⟨22, 0, .installer, false⟩]⟩,
  ⟨"GBL_CHART_STAT", 0x4000001c, 4, 1, 0x0, 0x0, 0x0, []⟩,
  ⟨"GBL_TRIM_TGT", 0x40000020, 4, 1, 0x0, 0x0, 0x0, [⟨31, 0, .operator, false⟩]⟩]

/-- Rows of `mgrSpecs`, part 4. -/
def mgrSpecs4 : List RegSpec := [
  ⟨"GBL_SLOT0", 0x40000040, 8, 4, 0x0, 0x0, 0x0, []⟩,
  ⟨"GBL_SLOT1", 0x40000044, 8, 4, 0x0, 0x0, 0x0, []⟩,
  ⟨"GBL_ACT_DIGEST", 0x40000080, 4, 16, 0x0, 0x0, 0x0, []⟩,
  ⟨"INT_CTL", 0x45000000, 4, 1, 0xf000000a, 0x0, 0x0, [⟨31, 31, .installer, false⟩, ⟨30, 30, .installer, false⟩, ⟨29, 29, .installer, false⟩, ⟨28, 28, .installer, false⟩, ⟨10, 0, .installer, false⟩]⟩,
  ⟨"INT_STAT", 0x45000004, 4, 1, 0x0, 0x0, 0xffc20000, []⟩,
  ⟨"INT_ELOG_STAT", 0x45000010, 4, 1, 0x0, 0x0, 0x80000000, []⟩,
  ⟨"INT_ELOG_W0", 0x45000014, 4, 1, 0x0, 0x0, 0x0, []⟩,
  ⟨"INT_ELOG_W1", 0x45000018, 4, 1, 0x0, 0x0, 0x0, []⟩,
  ⟨"INT_ELOG_W2", 0x4500001c, 4, 1, 0x0, 0x0, 0x0, []⟩,
  ⟨"INT_ELOG_W3", 0x45000020, 4, 1, 0x0, 0x0, 0x0, []⟩,
  ⟨"INT_ELOG_POP", 0x45000024, 4, 1, 0x0, 0x80000000, 0x0, []⟩,
  ⟨"INT_BYP_CTL", 0x45000040, 4, 1, 0x0, 0x0, 0x0, [⟨31, 31, .instOrMaker, false⟩, ⟨30, 30, .instOrMaker, true⟩, ⟨29, 29, .instOrMaker, false⟩, ⟨23, 16, .instOrMaker, false⟩]⟩,
  ⟨"INT_BYP_ADDR", 0x45000044, 4, 1, 0x0, 0x0, 0x0, [⟨31, 0, .instOrMaker, false⟩]⟩,
  ⟨"INT_BYP_DATA", 0x45000048, 4, 8, 0x0, 0x0, 0x0, [⟨31, 0, .instOrMaker, false⟩]⟩,
  ⟨"INT_BYP_CHK", 0x45000068, 4, 1, 0x0, 0x0, 0x0, [⟨31, 0, .instOrMaker, false⟩]⟩,
  ⟨"INT_BYP_SYND", 0x4500006c, 4, 1, 0x0, 0x0, 0x0, []⟩,
  ⟨"INT_BYP_RES", 0x45000070, 4, 1, 0x0, 0x0, 0x0, []⟩,
  ⟨"INT_MU", 0x45000080, 4, 1, 0x20000000, 0x0, 0x0, [⟨26, 26, .installer, true⟩]⟩,
  ⟨"INT_CORE", 0x45000084, 4, 1, 0x20000000, 0x0, 0x0, []⟩,
  ⟨"INT_CKPT", 0x45000088, 4, 1, 0xfa0000, 0x0, 0x0, [⟨31, 16, .installer, false⟩]⟩,
  ⟨"INT_STUP", 0x450000a0, 4, 1, 0x40000000, 0x0, 0x0, [⟨31, 31, .installer, true⟩]⟩,
  ⟨"INT_TEMP", 0x450000c0, 4, 8, 0x0, 0x0, 0x0, []⟩,
  ⟨"INT_MEM0", 0x45000100, 16, 24, 0x0, 0x0, 0x0, []⟩,
  ⟨"INT_MEM1", 0x45000104, 16, 24, 0x0, 0x0, 0x0, []⟩]

/-- Rows of `mgrSpecs`, part 5. -/
def mgrSpecs5 : List RegSpec := [
  ⟨"INT_MEM2", 0x45000108, 16, 24, 0x0, 0x0, 0x0, []⟩,
  ⟨"INT_MEM3", 0x4500010c, 16, 24, 0x0, 0x0, 0x0, []⟩,
  ⟨"HK_CTL", 0x46000000, 4, 1, 0x3e8, 0x0, 0x0, [⟨31, 31, .installer, false⟩, ⟨15, 0, .installer, false⟩]⟩,
  ⟨"HK_STAT", 0x46000004, 4, 1, 0x0, 0x0, 0xff000000, []⟩,
  ⟨"HK_INJ", 0x46000008, 4, 1, 0x40e00000, 0x0, 0x0, [⟨31, 31, .operator, true⟩, ⟨30, 30, .installer, false⟩, ⟨23, 16, .installer, false⟩]⟩,
  ⟨"HK_TDAC", 0x4600000c, 4, 1, 0x0, 0x0, 0x0, [⟨31, 31, .installer, false⟩, ⟨11, 0, .installer, false⟩]⟩,
  ⟨"HK_TEST", 0x46000010, 4, 1, 0x180000, 0x0, 0x0, [⟨31, 31, .installer, true⟩, ⟨23, 16, .installer, false⟩]⟩,
  ⟨"HK_CNT", 0x46000014, 4, 1, 0x0, 0x0, 0x0, []⟩,
  ⟨"HK_SLOPE", 0x46000018, 4, 1, 0x0, 0x0, 0x0, []⟩,
  ⟨"HK_FIFO_STAT", 0x46000020, 4, 1, 0x0, 0x0, 0x80000000, []⟩,
  ⟨"HK_FIFO_W", 0x46000024, 4, 4, 0x0, 0x0, 0x0, []⟩,
  ⟨"HK_FIFO_POP", 0x46000034, 4, 1, 0x0, 0x80000000, 0x0, []⟩,
  ⟨"HK_INCFG", 0x46000100, 4, 40, 0x0, 0x0, 0x0, [⟨31, 24, .installer, false⟩, ⟨23, 16, .installer, false⟩, ⟨15, 8, .installer, false⟩, ⟨7, 7, .installer, false⟩, ⟨6, 6, .installer, false⟩]⟩,
  ⟨"HK_LAST", 0x46000200, 4, 160, 0x0, 0x0, 0x0, []⟩,
  ⟨"SAF_STAT", 0x47000000, 4, 1, 0x400000, 0x0, 0x0, []⟩,
  ⟨"SAF_CFG", 0x47000004, 4, 1, 0x0, 0x0, 0x0, []⟩,
  ⟨"SAF_CNT", 0x47000008, 4, 1, 0x0, 0x0, 0x0, []⟩,
  ⟨"SAF_RAMP", 0x4700000c, 4, 1, 0x0, 0x0, 0x0, []⟩,
  ⟨"SAF_RTIME", 0x47000010, 4, 1, 0x0, 0x0, 0x0, []⟩,
  ⟨"SAF_DEM_SEC", 0x47000014, 4, 1, 0x0, 0x0, 0x0, []⟩,
  ⟨"SAF_DEM_NS", 0x47000018, 4, 1, 0x0, 0x0, 0x0, []⟩,
  ⟨"LOG_STAT", 0x48000000, 4, 1, 0x0, 0x0, 0x30000000, []⟩,
  ⟨"LOG_SEQ", 0x48000004, 4, 1, 0x0, 0x0, 0x0, []⟩,
  ⟨"LOG_OPTIME", 0x48000008, 4, 1, 0x0, 0x0, 0x0, []⟩]

/-- Rows of `mgrSpecs`, part 6. -/
def mgrSpecs6 : List RegSpec := [
  ⟨"LOG_PCYC", 0x4800000c, 4, 1, 0x0, 0x0, 0x0, []⟩,
  ⟨"LOG_RD", 0x48000010, 4, 1, 0x0, 0x80000000, 0x0, []⟩,
  ⟨"LOG_RD_SEQ", 0x48000014, 4, 1, 0x0, 0xffffffff, 0x0, []⟩,
  ⟨"LOG_RD_DATA", 0x48000020, 4, 16, 0x0, 0x0, 0x0, []⟩,
  ⟨"LOG_WR_HDR", 0x48000060, 4, 1, 0x0, 0xff00ffff, 0x0, []⟩,
  ⟨"LOG_WR_DATA", 0x48000064, 4, 5, 0x0, 0xffffffff, 0x0, []⟩,
  ⟨"LOG_WR_CTL", 0x48000078, 4, 1, 0x0, 0x80000000, 0x0, []⟩,
  ⟨"EVT_ROUTE", 0x49000000, 4, 256, 0x5, 0x7, 0x80000000, []⟩,
  ⟨"EVT_PEND", 0x49000400, 4, 8, 0x0, 0x0, 0xffffffff, []⟩,
  ⟨"EVT_DETAIL", 0x49000800, 4, 256, 0x0, 0x0, 0x0, []⟩,
  ⟨"EVT_CTL", 0x49000c00, 4, 1, 0x80000000, 0x80000000, 0x0, []⟩,
  ⟨"MGT_CTL", 0x4a000000, 4, 1, 0x0, 0x0, 0x0, [⟨31, 31, .installer, false⟩]⟩,
  ⟨"MGT_STAT", 0x4a000004, 4, 1, 0x0, 0x0, 0x0, []⟩,
  ⟨"MGT_ROLE", 0x4a000008, 4, 1, 0x0, 0x80000000, 0x0, []⟩,
  ⟨"MGT_ROLE_FP_HI", 0x4a00000c, 4, 1, 0x0, 0x0, 0x0, []⟩,
  ⟨"MGT_ROLE_FP_LO", 0x4a000010, 4, 1, 0x0, 0x0, 0x0, []⟩,
  ⟨"MGT_FW", 0x4a000014, 4, 1, 0x0, 0x0, 0x0, []⟩,
  ⟨"MGT_HELM", 0x4a000018, 4, 1, 0x0, 0x0, 0x0, []⟩]

/-- Manager registers at fixed addresses (R44). -/
def mgrSpecs : List RegSpec := mgrSpecs0 ++ mgrSpecs1 ++ mgrSpecs2 ++ mgrSpecs3 ++ mgrSpecs4 ++ mgrSpecs5 ++ mgrSpecs6

/-- Rows of `wkrSpecs`, part 0. -/
def wkrSpecs0 : List RegSpec := [
  ⟨"WK_ID", 0x0, 1, 1, 0xa162100, 0x0, 0x0, []⟩,
  ⟨"PIX", 0x1000, 1, 16384, 0x82008000, 0xffffe000, 0x0, []⟩,
  ⟨"TILE_THR", 0x300, 4, 64, 0x1000040, 0x3ff03ff, 0x0, []⟩,
  ⟨"TILE_AFE", 0x301, 4, 64, 0x83000000, 0xff800fff, 0x0, []⟩,
  ⟨"TC_CTL", 0x200, 1, 1, 0x5e0610ff, 0xfe0fffff, 0x0, []⟩,
  ⟨"TC_STAT", 0x201, 1, 1, 0x0, 0x0, 0xc00000, []⟩,
  ⟨"TC_CAL_LIM", 0x202, 1, 1, 0x8, 0xff, 0x0, []⟩,
  ⟨"TC_CNT_LO", 0x203, 1, 1, 0x0, 0x0, 0x0, []⟩,
  ⟨"TC_CNT_HI", 0x204, 1, 1, 0x0, 0x0, 0x0, []⟩,
  ⟨"TC_INJ", 0x205, 1, 1, 0x0, 0x8ff0ffff, 0x0, []⟩,
  ⟨"TC_INJ_LEFT", 0x206, 1, 1, 0x0, 0x0, 0x0, []⟩,
  ⟨"TC_TBL_ADDR", 0x207, 1, 1, 0x0, 0xe000ffff, 0x0, []⟩,
  ⟨"TC_TBL_DATA", 0x208, 1, 1, 0x0, 0xffffffff, 0x0, []⟩,
  ⟨"TC_SWAP", 0x209, 1, 1, 0x0, 0x8000003f, 0x0, []⟩,
  ⟨"TC_LOST", 0x20a, 1, 1, 0x0, 0x0, 0x0, []⟩,
  ⟨"TC_ECC", 0x20b, 1, 1, 0x0, 0x0, 0x0, []⟩,
  ⟨"TC_RO", 0x20c, 1, 1, 0x0, 0x0, 0x0, []⟩,
  ⟨"TC_VALID_LO", 0x20d, 1, 1, 0x0, 0x0, 0x0, []⟩,
  ⟨"TC_VALID_HI", 0x20e, 1, 1, 0x0, 0x0, 0x0, []⟩,
  ⟨"WK_GCTL", 0x1, 1, 1, 0x30000000, 0xf0000000, 0x0, []⟩,
  ⟨"WK_GSTAT", 0x2, 1, 1, 0x0, 0x0, 0x0, []⟩,
  ⟨"WK_FLAGS", 0x3, 1, 1, 0x0, 0x0, 0xfffff, []⟩,
  ⟨"WK_FLAG_EN", 0x4, 1, 1, 0xfffff, 0xfffff, 0x0, []⟩,
  ⟨"WK_RDO", 0x5, 1, 1, 0xfe480000, 0xffff0000, 0x0, []⟩]

/-- Rows of `wkrSpecs`, part 1. -/
def wkrSpecs1 : List RegSpec := [
  ⟨"WK_OQ", 0x6, 1, 1, 0x0, 0x1fff0000, 0x0, []⟩,
  ⟨"WK_DROP", 0x7, 1, 1, 0x0, 0x0, 0x0, []⟩,
  ⟨"WK_MARK", 0x8, 1, 1, 0x0, 0x0, 0x0, []⟩,
  ⟨"WK_FWD", 0x9, 1, 1, 0x0, 0x1ff0000, 0x0, []⟩,
  ⟨"WK_TRIM", 0xa, 1, 1, 0xff, 0x0, 0x0, []⟩,
  ⟨"WK_POS", 0xb, 1, 1, 0x0, 0x0, 0x0, []⟩,
  ⟨"TILE_SGT", 0x302, 4, 64, 0x30, 0xff, 0x0, []⟩,
  ⟨"TILE_STAT", 0x303, 4, 64, 0x0, 0x1ff, 0x0, []⟩]

/-- Worker registers other than the link registers (R47). -/
def wkrSpecs : List RegSpec := wkrSpecs0 ++ wkrSpecs1

/-- Rows of `linkSpecs`, part 0. -/
def linkSpecs0 : List RegSpec := [
  ⟨"LNK_CTL", 0x0, 1, 1, 0x8000000, 0x400000, 0x0, [⟨31, 31, .installer, false⟩, ⟨30, 30, .installer, false⟩, ⟨29, 28, .installer, false⟩, ⟨27, 27, .installer, false⟩, ⟨26, 26, .installer, false⟩, ⟨25, 25, .installer, false⟩, ⟨24, 24, .installer, false⟩, ⟨23, 23, .installer, false⟩]⟩,
  ⟨"LNK_STAT", 0x1, 1, 1, 0x0, 0x0, 0xfc000, []⟩,
  ⟨"LNK_CNT0", 0x2, 1, 1, 0x0, 0x0, 0x0, []⟩,
  ⟨"LNK_CNT1", 0x3, 1, 1, 0x0, 0x0, 0x0, []⟩,
  ⟨"LNK_PKT", 0x4, 1, 1, 0x0, 0x0, 0x0, []⟩,
  ⟨"LNK_PRBS", 0x5, 1, 1, 0x0, 0x0, 0x0, []⟩,
  ⟨"LNK_INJ", 0x6, 1, 1, 0x410000, 0x0, 0x0, [⟨31, 31, .installer, true⟩, ⟨30, 29, .installer, false⟩, ⟨28, 28, .installer, false⟩, ⟨27, 22, .installer, false⟩, ⟨21, 15, .installer, false⟩]⟩,
  ⟨"LNK_EQ", 0x7, 1, 1, 0x80000000, 0x0, 0x0, []⟩,
  ⟨"LNK_EQ_COMM", 0x8, 1, 1, 0x80000000, 0x0, 0x0, [⟨31, 28, .installer, false⟩, ⟨27, 22, .installer, false⟩, ⟨21, 17, .installer, false⟩, ⟨16, 12, .installer, false⟩, ⟨11, 11, .installer, false⟩]⟩,
  ⟨"LNK_EQ_CTL", 0x9, 1, 1, 0x16c40000, 0x0, 0x0, [⟨31, 31, .installer, true⟩, ⟨30, 30, .installer, false⟩, ⟨29, 28, .installer, false⟩, ⟨27, 25, .installer, false⟩, ⟨24, 20, .installer, false⟩, ⟨19, 12, .installer, false⟩]⟩]

/-- The ten link registers of a port, by number (R206): on the manager at window offset 4 × number, on the worker one word each. -/
def linkSpecs : List RegSpec := linkSpecs0

/-- Rows of `pairSpecs`, part 0. -/
def pairSpecs0 : List RegSpec := [
  ⟨"PRT_CMD", 0x100, 4, 1, 0x0, 0xdf00ffff, 0x0, []⟩,
  ⟨"PRT_CMD_WDATA", 0x104, 4, 1, 0x0, 0xffffffff, 0x0, []⟩,
  ⟨"PRT_CMD_RSLT", 0x108, 4, 1, 0x0, 0x0, 0x0, []⟩,
  ⟨"PRT_CMD_RDATA", 0x10c, 4, 1, 0x0, 0x0, 0x0, []⟩,
  ⟨"PRT_CMD_TIM", 0x110, 4, 1, 0x300c8, 0x0, 0x0, [⟨19, 16, .installer, false⟩, ⟨15, 0, .installer, false⟩]⟩,
  ⟨"PRT_LOOP_CFG", 0x180, 4, 1, 0x0, 0x0, 0x0, []⟩,
  ⟨"PRT_LOOP_STAT", 0x184, 4, 1, 0x0, 0x0, 0x800000, []⟩,
  ⟨"PRT_LOOP_MOVE", 0x188, 4, 1, 0x0, 0x0, 0x0, [⟨31, 31, .installer, true⟩, ⟨4, 0, .installer, false⟩]⟩,
  ⟨"PRT_LOOP_TIM", 0x18c, 4, 1, 0x3e80640a, 0x0, 0x0, [⟨31, 20, .installer, false⟩, ⟨19, 8, .installer, false⟩, ⟨7, 0, .installer, false⟩]⟩,
  ⟨"PRT_EPOCH_STAT", 0x190, 4, 1, 0x0, 0x0, 0x0, []⟩,
  ⟨"PRT_SLOT", 0x200, 4, 16, 0xc000000, 0x0, 0x0, []⟩]

/-- Registers of a port window other than the link registers, by window offset. -/
def pairSpecs : List RegSpec := pairSpecs0

def F.GBL_ID_PART : Fld := ⟨0x40000000, 31, 16⟩
def F.GBL_ID_REV : Fld := ⟨0x40000000, 15, 8⟩
def F.WK_ID_PART : Fld := ⟨0x0, 31, 16⟩
def F.WK_ID_REV : Fld := ⟨0x0, 15, 8⟩
def F.PIX_TRIM_LO : Fld := ⟨0x1000, 31, 26⟩
def F.PIX_TRIM_HI : Fld := ⟨0x1000, 25, 20⟩
def F.PIX_RANGE_MODE : Fld := ⟨0x1000, 19, 18⟩
def F.PIX_RANGE_FLOOR : Fld := ⟨0x1000, 17, 16⟩
def F.PIX_MASK : Fld := ⟨0x1000, 15, 15⟩
def F.PIX_MASK_AUTO : Fld := ⟨0x1000, 14, 14⟩
def F.PIX_INJ_EN : Fld := ⟨0x1000, 13, 13⟩
def F.PIX_ECC_ERR : Fld := ⟨0x1000, 12, 12⟩
def F.PIX_RANGE_NOW : Fld := ⟨0x1000, 11, 10⟩
def F.PIX_LEAK_SAT : Fld := ⟨0x1000, 9, 9⟩
def F.TILE_THR_THR_CLAMP : Fld := ⟨0x300, 31, 31⟩
def F.TILE_THR_THR_HI : Fld := ⟨0x300, 25, 16⟩
def F.TILE_THR_THR_LO : Fld := ⟨0x300, 9, 0⟩
def F.TILE_AFE_PG : Fld := ⟨0x301, 31, 31⟩
def F.TILE_AFE_POL : Fld := ⟨0x301, 30, 30⟩
def F.TILE_AFE_INJ_SRC : Fld := ⟨0x301, 29, 29⟩
def F.TILE_AFE_INJ_CAP : Fld := ⟨0x301, 28, 27⟩
def F.TILE_AFE_DOWN_N : Fld := ⟨0x301, 26, 25⟩
def F.TILE_AFE_RELAX : Fld := ⟨0x301, 24, 23⟩
def F.TILE_AFE_READY : Fld := ⟨0x301, 22, 22⟩
def F.TILE_AFE_CAL_DAC : Fld := ⟨0x301, 11, 0⟩
def F.TC_CTL_CAL_FG : Fld := ⟨0x200, 31, 31⟩
def F.TC_CTL_BGCAL_EN : Fld := ⟨0x200, 30, 30⟩
def F.TC_CTL_CAL_EMIT : Fld := ⟨0x200, 29, 29⟩
def F.TC_CTL_BIN_EN : Fld := ⟨0x200, 28, 28⟩
def F.TC_CTL_OFS_EN : Fld := ⟨0x200, 27, 27⟩
def F.TC_CTL_WALK_EN : Fld := ⟨0x200, 26, 26⟩
def F.TC_CTL_SLOPE_EN : Fld := ⟨0x200, 25, 25⟩
def F.TC_CTL_CAL_NLOG : Fld := ⟨0x200, 19, 16⟩
def F.TC_CTL_CAL_RATE_BG : Fld := ⟨0x200, 15, 8⟩
def F.TC_CTL_CAL_RATE_FG : Fld := ⟨0x200, 7, 0⟩
def F.TC_STAT_CAL_BUSY : Fld := ⟨0x201, 31, 31⟩
def F.TC_STAT_FG_BUSY : Fld := ⟨0x201, 30, 30⟩
def F.TC_STAT_CAL_TILE : Fld := ⟨0x201, 29, 24⟩
def F.TC_STAT_CAL_BAD : Fld := ⟨0x201, 23, 23⟩
def F.TC_STAT_TBL_UE : Fld := ⟨0x201, 22, 22⟩
def F.TC_STAT_BAD_TILE : Fld := ⟨0x201, 21, 16⟩
def F.TC_STAT_INIT_DONE : Fld := ⟨0x201, 15, 15⟩
def F.TC_STAT_CAL_PASSES : Fld := ⟨0x201, 14, 0⟩
def F.TC_CAL_LIM_REJ_CNT : Fld := ⟨0x202, 31, 16⟩
def F.TC_CAL_LIM_CAL_DMAX : Fld := ⟨0x202, 7, 0⟩
def F.TC_CNT_LO_CNT_LO : Fld := ⟨0x203, 31, 0⟩
def F.TC_CNT_HI_CNT_HI : Fld := ⟨0x204, 15, 0⟩
def F.TC_INJ_INJ_GO : Fld := ⟨0x205, 31, 31⟩
def F.TC_INJ_INJ_PH : Fld := ⟨0x205, 27, 24⟩
def F.TC_INJ_INJ_PLOG : Fld := ⟨0x205, 23, 20⟩
def F.TC_INJ_INJ_NUM : Fld := ⟨0x205, 15, 0⟩
def F.TC_INJ_LEFT_LEFT : Fld := ⟨0x206, 15, 0⟩
def F.TC_TBL_ADDR_TBL : Fld := ⟨0x207, 31, 30⟩
def F.TC_TBL_ADDR_AUTO_INC : Fld := ⟨0x207, 29, 29⟩
def F.TC_TBL_ADDR_INDEX : Fld := ⟨0x207, 15, 0⟩
def F.TC_TBL_DATA_DATA : Fld := ⟨0x208, 31, 0⟩
def F.TC_SWAP_SWAP_GO : Fld := ⟨0x209, 31, 31⟩
def F.TC_SWAP_TILE : Fld := ⟨0x209, 5, 0⟩
def F.TC_LOST_LOST : Fld := ⟨0x20a, 31, 0⟩
def F.TC_ECC_CE_CNT : Fld := ⟨0x20b, 31, 20⟩
def F.TC_ECC_UE_CNT : Fld := ⟨0x20b, 19, 12⟩
def F.TC_ECC_DROP_CNT : Fld := ⟨0x20b, 11, 0⟩
def F.TC_RO_RO_CNT : Fld := ⟨0x20c, 15, 0⟩
def F.TC_VALID_LO_CAL_VALID : Fld := ⟨0x20d, 31, 0⟩
def F.TC_VALID_HI_CAL_VALID : Fld := ⟨0x20e, 31, 0⟩
def F.WK_GCTL_EN : Fld := ⟨0x1, 31, 31⟩
def F.WK_GCTL_MODE : Fld := ⟨0x1, 30, 30⟩
def F.WK_GCTL_SGT_EN : Fld := ⟨0x1, 29, 29⟩
def F.WK_GCTL_MON_EN : Fld := ⟨0x1, 28, 28⟩
def F.WK_GSTAT_RUNNING : Fld := ⟨0x2, 31, 31⟩
def F.WK_GSTAT_CNT_SET : Fld := ⟨0x2, 30, 30⟩
def F.WK_GSTAT_FWD_ONLY : Fld := ⟨0x2, 29, 29⟩
def F.WK_GSTAT_MODE_NOW : Fld := ⟨0x2, 28, 28⟩
def F.WK_GSTAT_REASON : Fld := ⟨0x2, 7, 0⟩
def F.WK_FLAGS_VOTE_ERR : Fld := ⟨0x3, 19, 19⟩
def F.WK_FLAGS_EN_REJECT : Fld := ⟨0x3, 18, 18⟩
def F.WK_FLAGS_SELF_FAULT : Fld := ⟨0x3, 17, 17⟩
def F.WK_FLAGS_CMD_ERR : Fld := ⟨0x3, 16, 16⟩
def F.WK_FLAGS_CNT_STEP : Fld := ⟨0x3, 15, 15⟩
def F.WK_FLAGS_BEACON_MISS : Fld := ⟨0x3, 14, 14⟩
def F.WK_FLAGS_LINK_W : Fld := ⟨0x3, 13, 13⟩
def F.WK_FLAGS_LINK_E : Fld := ⟨0x3, 12, 12⟩
def F.WK_FLAGS_TRIM_REJECT : Fld := ⟨0x3, 11, 11⟩
def F.WK_FLAGS_SGT_LATE : Fld := ⟨0x3, 10, 10⟩
def F.WK_FLAGS_SLIP_HI : Fld := ⟨0x3, 9, 9⟩
def F.WK_FLAGS_MARK_OVF : Fld := ⟨0x3, 8, 8⟩
def F.WK_FLAGS_MARK_PARTIAL : Fld := ⟨0x3, 7, 7⟩
def F.WK_FLAGS_RING_OVW : Fld := ⟨0x3, 6, 6⟩
def F.WK_FLAGS_STALE : Fld := ⟨0x3, 5, 5⟩
def F.WK_FLAGS_OQ_FULL : Fld := ⟨0x3, 4, 4⟩
def F.WK_FLAGS_FIFO_OVF : Fld := ⟨0x3, 3, 3⟩
def F.WK_FLAGS_TC_MEM : Fld := ⟨0x3, 2, 2⟩
def F.WK_FLAGS_TC_CAL : Fld := ⟨0x3, 1, 1⟩
def F.WK_FLAGS_CFG_UE : Fld := ⟨0x3, 0, 0⟩
def F.WK_FLAG_EN_FLAG_EN : Fld := ⟨0x4, 19, 0⟩
def F.WK_RDO_BURST_MAX : Fld := ⟨0x5, 31, 24⟩
def F.WK_RDO_PAIR_WAIT : Fld := ⟨0x5, 23, 20⟩
def F.WK_RDO_MON_PER : Fld := ⟨0x5, 19, 16⟩
def F.WK_OQ_OQ_HWM : Fld := ⟨0x6, 28, 16⟩
def F.WK_OQ_OQ_LEVEL : Fld := ⟨0x6, 12, 0⟩
def F.WK_DROP_FIFO_LOST : Fld := ⟨0x7, 31, 16⟩
def F.WK_DROP_STALE_LOST : Fld := ⟨0x7, 15, 0⟩
def F.WK_MARK_MQ_LEVEL : Fld := ⟨0x8, 31, 28⟩
def F.WK_MARK_LAST_ID : Fld := ⟨0x8, 27, 16⟩
def F.WK_MARK_REFUSED_CNT : Fld := ⟨0x8, 15, 8⟩
def F.WK_MARK_PARTIAL_CNT : Fld := ⟨0x8, 7, 0⟩
def F.WK_FWD_SGT_LATE : Fld := ⟨0x9, 31, 25⟩
def F.WK_FWD_SLIP_HWM : Fld := ⟨0x9, 24, 16⟩
def F.WK_FWD_SLIP_LEVEL : Fld := ⟨0x9, 8, 0⟩
def F.WK_TRIM_TRIM_APPLIED : Fld := ⟨0xa, 31, 16⟩
def F.WK_TRIM_TRIM_REJ : Fld := ⟨0xa, 15, 8⟩
def F.WK_TRIM_RATE_NOW : Fld := ⟨0xa, 7, 0⟩
def F.WK_POS_NEAR : Fld := ⟨0xb, 8, 8⟩
def F.WK_POS_POS : Fld := ⟨0xb, 4, 0⟩
def F.TILE_SGT_SW : Fld := ⟨0x302, 7, 4⟩
def F.TILE_SGT_ST : Fld := ⟨0x302, 3, 0⟩
def F.TILE_STAT_SGT_CNT : Fld := ⟨0x303, 31, 16⟩
def F.TILE_STAT_OVF_CNT : Fld := ⟨0x303, 15, 9⟩
def F.TILE_STAT_FIFO_HWM : Fld := ⟨0x303, 8, 0⟩
def F.LNK_CTL_SVC_EN : Fld := ⟨0x0, 31, 31⟩
def F.LNK_CTL_TX_OFF : Fld := ⟨0x0, 30, 30⟩
def F.LNK_CTL_TEST : Fld := ⟨0x0, 29, 28⟩
def F.LNK_CTL_PRBS31 : Fld := ⟨0x0, 27, 27⟩
def F.LNK_CTL_LPB_NEAR : Fld := ⟨0x0, 26, 26⟩
def F.LNK_CTL_LPB_FAR : Fld := ⟨0x0, 25, 25⟩
def F.LNK_CTL_INV_RX : Fld := ⟨0x0, 24, 24⟩
def F.LNK_CTL_INV_TX : Fld := ⟨0x0, 23, 23⟩
def F.LNK_CTL_CNT_CLR : Fld := ⟨0x0, 22, 22⟩
def F.LNK_STAT_LOCKED : Fld := ⟨0x1, 31, 31⟩
def F.LNK_STAT_LOS : Fld := ⟨0x1, 30, 30⟩
def F.LNK_STAT_RX_ST : Fld := ⟨0x1, 29, 28⟩
def F.LNK_STAT_FAR_ST : Fld := ⟨0x1, 27, 26⟩
def F.LNK_STAT_SEG_UP : Fld := ⟨0x1, 25, 25⟩
def F.LNK_STAT_EQ_FROZEN : Fld := ⟨0x1, 24, 24⟩
def F.LNK_STAT_FAIL_RUN : Fld := ⟨0x1, 23, 20⟩
def F.LNK_STAT_NO_LOCK : Fld := ⟨0x1, 19, 19⟩
def F.LNK_STAT_LOCK_LOST : Fld := ⟨0x1, 18, 18⟩
def F.LNK_STAT_TEST_FAIL : Fld := ⟨0x1, 17, 17⟩
def F.LNK_STAT_EQ_CLAMP : Fld := ⟨0x1, 16, 16⟩
def F.LNK_STAT_PKT_ERR : Fld := ⟨0x1, 15, 15⟩
def F.LNK_STAT_CTL_ERR_F : Fld := ⟨0x1, 14, 14⟩
def F.LNK_CNT0_HDR_ERR : Fld := ⟨0x2, 31, 16⟩
def F.LNK_CNT0_STUFF_ERR : Fld := ⟨0x2, 15, 0⟩
def F.LNK_CNT1_CTL_ERR : Fld := ⟨0x3, 31, 20⟩
def F.LNK_CNT1_ORPHAN : Fld := ⟨0x3, 19, 8⟩
def F.LNK_CNT1_LOCK_LOSS : Fld := ⟨0x3, 7, 0⟩
def F.LNK_PKT_TRUNC : Fld := ⟨0x4, 31, 24⟩
def F.LNK_PKT_CRC_ERR : Fld := ⟨0x4, 23, 16⟩
def F.LNK_PKT_LEN_ERR : Fld := ⟨0x4, 15, 8⟩
def F.LNK_PKT_FRAME : Fld := ⟨0x4, 7, 0⟩
def F.LNK_PRBS_PRBS_SYNC : Fld := ⟨0x5, 31, 31⟩
def F.LNK_PRBS_PRBS_ERR : Fld := ⟨0x5, 30, 0⟩
def F.LNK_INJ_INJ_GO : Fld := ⟨0x6, 31, 31⟩
def F.LNK_INJ_INJ_KIND : Fld := ⟨0x6, 30, 29⟩
def F.LNK_INJ_INJ_HDR : Fld := ⟨0x6, 28, 28⟩
def F.LNK_INJ_INJ_LEN : Fld := ⟨0x6, 27, 22⟩
def F.LNK_INJ_INJ_POS : Fld := ⟨0x6, 21, 15⟩
def F.LNK_EQ_CTLE : Fld := ⟨0x7, 31, 28⟩
def F.LNK_EQ_DFE1 : Fld := ⟨0x7, 27, 22⟩
def F.LNK_EQ_DFE2 : Fld := ⟨0x7, 21, 17⟩
def F.LNK_EQ_DFE3 : Fld := ⟨0x7, 16, 12⟩
def F.LNK_EQ_VALID : Fld := ⟨0x7, 11, 11⟩
def F.LNK_EQ_COMM_CTLE : Fld := ⟨0x8, 31, 28⟩
def F.LNK_EQ_COMM_DFE1 : Fld := ⟨0x8, 27, 22⟩
def F.LNK_EQ_COMM_DFE2 : Fld := ⟨0x8, 21, 17⟩
def F.LNK_EQ_COMM_DFE3 : Fld := ⟨0x8, 16, 12⟩
def F.LNK_EQ_COMM_VALID : Fld := ⟨0x8, 11, 11⟩
def F.LNK_EQ_CTL_CAPTURE : Fld := ⟨0x9, 31, 31⟩
def F.LNK_EQ_CTL_EQ_HOLD : Fld := ⟨0x9, 30, 30⟩
def F.LNK_EQ_CTL_WIN_CTLE : Fld := ⟨0x9, 29, 28⟩
def F.LNK_EQ_CTL_WIN_DFE : Fld := ⟨0x9, 27, 25⟩
def F.LNK_EQ_CTL_FREEZE_LOG : Fld := ⟨0x9, 24, 20⟩
def F.LNK_EQ_CTL_RESUME : Fld := ⟨0x9, 19, 12⟩
def F.PRT_CMD_GO : Fld := ⟨0x100, 31, 31⟩
def F.PRT_CMD_WR : Fld := ⟨0x100, 30, 30⟩
def F.PRT_CMD_POS : Fld := ⟨0x100, 28, 24⟩
def F.PRT_CMD_ADDR : Fld := ⟨0x100, 15, 0⟩
def F.PRT_CMD_WDATA_WDATA : Fld := ⟨0x104, 31, 0⟩
def F.PRT_CMD_RSLT_DONE : Fld := ⟨0x108, 31, 31⟩
def F.PRT_CMD_RSLT_STATUS : Fld := ⟨0x108, 30, 28⟩
def F.PRT_CMD_RSLT_RESULT : Fld := ⟨0x108, 27, 24⟩
def F.PRT_CMD_RSLT_SEQ : Fld := ⟨0x108, 23, 16⟩
def F.PRT_CMD_RSLT_TRIES : Fld := ⟨0x108, 15, 8⟩
def F.PRT_CMD_RSLT_NREPLY : Fld := ⟨0x108, 7, 0⟩
def F.PRT_CMD_RDATA_RDATA : Fld := ⟨0x10c, 31, 0⟩
def F.PRT_CMD_TIM_RETRY : Fld := ⟨0x110, 19, 16⟩
def F.PRT_CMD_TIM_REPLY_TO : Fld := ⟨0x110, 15, 0⟩
def F.PRT_LOOP_CFG_CFG : Fld := ⟨0x180, 31, 29⟩
def F.PRT_LOOP_CFG_N_EVEN : Fld := ⟨0x180, 28, 24⟩
def F.PRT_LOOP_CFG_N_ODD : Fld := ⟨0x180, 20, 16⟩
def F.PRT_LOOP_CFG_POLICY : Fld := ⟨0x180, 13, 12⟩
def F.PRT_LOOP_CFG_HOME : Fld := ⟨0x180, 4, 0⟩
def F.PRT_LOOP_STAT_SPLIT : Fld := ⟨0x184, 31, 27⟩
def F.PRT_LOOP_STAT_MOVING : Fld := ⟨0x184, 26, 26⟩
def F.PRT_LOOP_STAT_CLOSED : Fld := ⟨0x184, 25, 25⟩
def F.PRT_LOOP_STAT_ENUM_DONE : Fld := ⟨0x184, 24, 24⟩
def F.PRT_LOOP_STAT_MOVE_ERR : Fld := ⟨0x184, 23, 23⟩
def F.PRT_LOOP_STAT_FOUND_EVEN : Fld := ⟨0x184, 20, 16⟩
def F.PRT_LOOP_STAT_FOUND_ODD : Fld := ⟨0x184, 12, 8⟩
def F.PRT_LOOP_STAT_MOVE_CNT : Fld := ⟨0x184, 7, 0⟩
def F.PRT_LOOP_MOVE_GO : Fld := ⟨0x188, 31, 31⟩
def F.PRT_LOOP_MOVE_TARGET : Fld := ⟨0x188, 4, 0⟩
def F.PRT_LOOP_TIM_DRAIN_TO : Fld := ⟨0x18c, 31, 20⟩
def F.PRT_LOOP_TIM_LIVE_TO : Fld := ⟨0x18c, 19, 8⟩
def F.PRT_LOOP_TIM_REBAL_INT : Fld := ⟨0x18c, 7, 0⟩
def F.PRT_EPOCH_STAT_LATE_CNT : Fld := ⟨0x190, 31, 16⟩
def F.PRT_EPOCH_STAT_DRAIN_EXP : Fld := ⟨0x190, 15, 8⟩
def F.PRT_EPOCH_STAT_EPOCH_END_CNT : Fld := ⟨0x190, 7, 0⟩
def F.PRT_SLOT_STATE : Fld := ⟨0x200, 31, 28⟩
def F.PRT_SLOT_SERVE : Fld := ⟨0x200, 27, 26⟩
def F.PRT_SLOT_NEAR : Fld := ⟨0x200, 25, 25⟩
def F.PRT_SLOT_DRAIN : Fld := ⟨0x200, 24, 24⟩
def F.PRT_SLOT_EPOCH : Fld := ⟨0x200, 23, 16⟩
def F.PRT_SLOT_REASON : Fld := ⟨0x200, 15, 8⟩
def F.PRT_SLOT_POS : Fld := ⟨0x200, 4, 0⟩
def F.MER_CTL_SRC_SEL : Fld := ⟨0x44000000, 31, 29⟩
def F.MER_CTL_REF_320 : Fld := ⟨0x44000000, 28, 28⟩
def F.MER_CTL_PPS_NEG : Fld := ⟨0x44000000, 27, 27⟩
def F.MER_CTL_PRIM_PEER : Fld := ⟨0x44000000, 26, 26⟩
def F.MER_CTL_ROLE : Fld := ⟨0x44000000, 25, 24⟩
def F.MER_CTL_PTP_DOMAIN : Fld := ⟨0x44000000, 23, 16⟩
def F.MER_STAT_STATE : Fld := ⟨0x44000004, 31, 30⟩
def F.MER_STAT_SRC : Fld := ⟨0x44000004, 29, 27⟩
def F.MER_STAT_SLEW : Fld := ⟨0x44000004, 26, 26⟩
def F.MER_STAT_SEC_SET : Fld := ⟨0x44000004, 25, 25⟩
def F.MER_STAT_MU : Fld := ⟨0x44000004, 24, 24⟩
def F.MER_STAT_EBOUND : Fld := ⟨0x44000004, 23, 16⟩
def F.MER_STAT_STATE_CHG : Fld := ⟨0x44000004, 15, 15⟩
def F.MER_STAT_SRC_FAULT : Fld := ⟨0x44000004, 14, 14⟩
def F.MER_STAT_SET_REFUSED : Fld := ⟨0x44000004, 13, 13⟩
def F.MER_STAT_PPS_SPUR : Fld := ⟨0x44000004, 12, 12⟩
def F.MER_NOW_SEC_HI_SEC : Fld := ⟨0x44000008, 31, 0⟩
def F.MER_NOW_SEC_LO_SEC : Fld := ⟨0x4400000c, 31, 0⟩
def F.MER_NOW_NS_NS : Fld := ⟨0x44000010, 29, 0⟩
def F.MER_NOW_SUB_SUBNS : Fld := ⟨0x44000014, 9, 0⟩
def F.MER_SET_SEC_HI_SET_SEC : Fld := ⟨0x44000018, 31, 0⟩
def F.MER_SET_SEC_LO_SET_SEC : Fld := ⟨0x4400001c, 31, 0⟩
def F.MER_SET_NS_SET_NS : Fld := ⟨0x44000020, 29, 0⟩
def F.MER_SET_CTL_GO : Fld := ⟨0x44000024, 31, 31⟩
def F.MER_SET_CTL_REFUSED : Fld := ⟨0x44000024, 30, 30⟩
def F.MER_OFFSET_OFFSET : Fld := ⟨0x44000028, 31, 0⟩
def F.MER_FREQ_FREQ : Fld := ⟨0x4400002c, 31, 0⟩
def F.MER_SERVO_SLEW_MAX : Fld := ⟨0x44000030, 31, 21⟩
def F.MER_SERVO_FIX_THR : Fld := ⟨0x44000030, 20, 8⟩
def F.MER_HOLD_HOLD_FREQ : Fld := ⟨0x44000034, 31, 16⟩
def F.MER_HOLD_LOST_BOUND : Fld := ⟨0x44000034, 15, 0⟩
def F.MER_RECK_RECK_TIME : Fld := ⟨0x44000038, 31, 0⟩
def F.MER_PADJ_PADJ : Fld := ⟨0x4400003c, 31, 0⟩
def F.MER_FADJ_FADJ : Fld := ⟨0x44000040, 31, 0⟩
def F.MER_PTP_LAT_TX_LAT : Fld := ⟨0x44000044, 31, 16⟩
def F.MER_PTP_LAT_RX_LAT : Fld := ⟨0x44000044, 15, 0⟩
def F.MER_REF_DLY_REF_DLY : Fld := ⟨0x44000048, 19, 0⟩
def F.MER_PPS_OUT_PPS_OUT_EN : Fld := ⟨0x4400004c, 31, 31⟩
def F.MER_PPS_OUT_REF_OUT_10M : Fld := ⟨0x4400004c, 30, 30⟩
def F.MER_PPS_OUT_PPS_OFS : Fld := ⟨0x4400004c, 29, 0⟩
def F.MER_TXTS_STAT_OVF : Fld := ⟨0x44000050, 31, 31⟩
def F.MER_TXTS_STAT_LEVEL : Fld := ⟨0x44000050, 30, 26⟩
def F.MER_TXTS_STAT_OVF_CNT : Fld := ⟨0x44000050, 15, 0⟩
def F.MER_TXTS_ID_VALID : Fld := ⟨0x44000054, 31, 31⟩
def F.MER_TXTS_ID_ID : Fld := ⟨0x44000054, 15, 0⟩
def F.MER_TXTS_SEC_HI_TS_SEC : Fld := ⟨0x44000058, 15, 0⟩
def F.MER_TXTS_SEC_LO_TS_SEC : Fld := ⟨0x4400005c, 31, 0⟩
def F.MER_TXTS_NS_TS_NS : Fld := ⟨0x44000060, 29, 0⟩
def F.MER_TXTS_SUB_TS_SUB : Fld := ⟨0x44000064, 9, 0⟩
def F.MER_TXTS_POP_POP : Fld := ⟨0x44000068, 31, 31⟩
def F.MER_WK_CTL_PROBE_LOG : Fld := ⟨0x44000070, 31, 28⟩
def F.MER_WK_CTL_RR_TOL : Fld := ⟨0x44000070, 27, 16⟩
def F.MER_WK_CTL_OUTLIER : Fld := ⟨0x44000070, 15, 8⟩
def F.MER_ASYM_ASYM_MW : Fld := ⟨0x44000074, 31, 16⟩
def F.MER_PEER_STAT_LEAD_STATE : Fld := ⟨0x44000078, 31, 30⟩
def F.MER_PEER_STAT_USE : Fld := ⟨0x44000078, 29, 28⟩
def F.MER_PEER_STAT_LAST_SEQ : Fld := ⟨0x44000078, 27, 20⟩
def F.MER_PEER_STAT_MISS_CNT : Fld := ⟨0x44000078, 19, 8⟩
def F.MER_TBL_ADDR_TBL : Fld := ⟨0x44000080, 31, 30⟩
def F.MER_TBL_ADDR_DIR : Fld := ⟨0x44000080, 29, 29⟩
def F.MER_TBL_ADDR_AUTO_INC : Fld := ⟨0x44000080, 28, 28⟩
def F.MER_TBL_ADDR_INDEX : Fld := ⟨0x44000080, 15, 0⟩
def F.MER_TBL_DATA_DATA : Fld := ⟨0x44000084, 31, 0⟩
def F.QUE_CTL_THR_EN : Fld := ⟨0x4b000000, 31, 31⟩
def F.QUE_CTL_SHARE_EN : Fld := ⟨0x4b000000, 30, 30⟩
def F.QUE_CTL_THR_RATE : Fld := ⟨0x4b000000, 23, 16⟩
def F.QUE_CTL_SHARE_HI : Fld := ⟨0x4b000000, 15, 8⟩
def F.QUE_CTL_SHARE_LO : Fld := ⟨0x4b000000, 7, 0⟩
def F.QUE_STAT_DCQ_HOLD : Fld := ⟨0x4b000004, 31, 31⟩
def F.QUE_STAT_DCQ_DROP : Fld := ⟨0x4b000004, 30, 30⟩
def F.QUE_STAT_QFULL : Fld := ⟨0x4b000004, 29, 29⟩
def F.QUE_STAT_OVERSIZE : Fld := ⟨0x4b000004, 28, 28⟩
def F.QUE_STAT_FLUSH_TRUNC : Fld := ⟨0x4b000004, 27, 27⟩
def F.QUE_STAT_THROTTLING : Fld := ⟨0x4b000004, 26, 26⟩
def F.QUE_STAT_SHARING : Fld := ⟨0x4b000004, 25, 25⟩
def F.QUE_STAT_BUSY0 : Fld := ⟨0x4b000004, 24, 24⟩
def F.QUE_STAT_BUSY1 : Fld := ⟨0x4b000004, 23, 23⟩
def F.QUE_POOL_FREE : Fld := ⟨0x4b000008, 21, 0⟩
def F.QUE_POOL_MIN_MIN : Fld := ⟨0x4b00000c, 21, 0⟩
def F.QUE_BUSY_SEL1 : Fld := ⟨0x4b000010, 31, 30⟩
def F.QUE_BUSY_SEL0 : Fld := ⟨0x4b000010, 29, 28⟩
def F.QUE_BUSY_BUSY_ON : Fld := ⟨0x4b000010, 25, 13⟩
def F.QUE_BUSY_BUSY_OFF : Fld := ⟨0x4b000010, 12, 0⟩
def F.QUE_FLUSH_GO : Fld := ⟨0x4b000014, 31, 31⟩
def F.QUE_FLUSH_TRUNCATED : Fld := ⟨0x4b000014, 30, 30⟩
def F.QUE_FLUSH_SCOPE : Fld := ⟨0x4b000014, 29, 28⟩
def F.QUE_FLUSH_FLUSH_TO : Fld := ⟨0x4b000014, 27, 20⟩
def F.QUE_FLUSH_TARGET : Fld := ⟨0x4b000014, 12, 0⟩
def F.QUE_TBL_ADDR_AUTO_INC : Fld := ⟨0x4b000018, 31, 31⟩
def F.QUE_TBL_ADDR_INDEX : Fld := ⟨0x4b000018, 15, 0⟩
def F.QUE_TBL_DATA_DATA : Fld := ⟨0x4b00001c, 31, 0⟩
def F.QUE_DCQ_LOST : Fld := ⟨0x4b001000, 31, 24⟩
def F.QUE_DCQ_HOLDS : Fld := ⟨0x4b001000, 23, 16⟩
def F.QUE_DCQ_HWM : Fld := ⟨0x4b001000, 13, 8⟩
def F.QUE_DCQ_LEVEL : Fld := ⟨0x4b001000, 5, 0⟩
def F.QUE_OCC_SHARING : Fld := ⟨0x4b001200, 31, 31⟩
def F.QUE_OCC_OCC : Fld := ⟨0x4b001200, 30, 24⟩
def F.RSE_CTL_REBAL_EN : Fld := ⟨0x41000000, 31, 31⟩
def F.RSE_CTL_MOUT_W : Fld := ⟨0x41000000, 30, 24⟩
def F.RSE_CTL_MOUT_INV : Fld := ⟨0x41000000, 23, 20⟩
def F.RSE_CTL_MOUT_TEST : Fld := ⟨0x41000000, 19, 16⟩
def F.RSE_CTL_MIG_TO : Fld := ⟨0x41000000, 15, 0⟩
def F.RSE_STAT_LATE : Fld := ⟨0x41000004, 31, 31⟩
def F.RSE_STAT_ABSENT : Fld := ⟨0x41000004, 30, 30⟩
def F.RSE_STAT_FUTURE : Fld := ⟨0x41000004, 29, 29⟩
def F.RSE_STAT_MIG_LATE : Fld := ⟨0x41000004, 28, 28⟩
def F.RSE_STAT_RULE_HELD : Fld := ⟨0x41000004, 27, 27⟩
def F.RSE_STAT_MOUT_MERGED : Fld := ⟨0x41000004, 26, 26⟩
def F.RSE_STAT_MIG_BUSY : Fld := ⟨0x41000004, 25, 25⟩
def F.RSE_STAT_ENG_USED : Fld := ⟨0x41000004, 7, 0⟩
def F.RSE_MIG_GO : Fld := ⟨0x41000008, 31, 31⟩
def F.RSE_MIG_REFUSED : Fld := ⟨0x41000008, 30, 30⟩
def F.RSE_MIG_SLOT : Fld := ⟨0x41000008, 22, 13⟩
def F.RSE_MIG_CLS : Fld := ⟨0x41000008, 12, 12⟩
def F.RSE_MIG_TARGET : Fld := ⟨0x41000008, 7, 0⟩
def F.RSE_RULE_EN_EN : Fld := ⟨0x41000010, 31, 0⟩
def F.RSE_TBL_ADDR_TBL : Fld := ⟨0x41000030, 31, 30⟩
def F.RSE_TBL_ADDR_AUTO_INC : Fld := ⟨0x41000030, 29, 29⟩
def F.RSE_TBL_ADDR_INDEX : Fld := ⟨0x41000030, 15, 0⟩
def F.RSE_TBL_DATA_DATA : Fld := ⟨0x41000034, 31, 0⟩
def F.RSE_ENG_USED : Fld := ⟨0x41001000, 31, 31⟩
def F.RSE_ENG_GROUP : Fld := ⟨0x41001000, 30, 26⟩
def F.RSE_ENG_LEVEL : Fld := ⟨0x41001000, 25, 24⟩
def F.RSE_ENG_PARENT : Fld := ⟨0x41001000, 23, 16⟩
def F.RSE_ENG_LOAD : Fld := ⟨0x41001000, 15, 8⟩
def F.RSE_ENG_INPUTS : Fld := ⟨0x41001000, 4, 0⟩
def F.WKE_CTL_HWM : Fld := ⟨0x42000000, 31, 24⟩
def F.WKE_CTL_LWM : Fld := ⟨0x42000000, 23, 16⟩
def F.WKE_CTL_MARK_TO : Fld := ⟨0x42000000, 15, 0⟩
def F.WKE_STAT_BUSY_WAKE : Fld := ⟨0x42000004, 31, 31⟩
def F.WKE_STAT_HWM_HIT : Fld := ⟨0x42000004, 30, 30⟩
def F.WKE_STAT_MQ_REF : Fld := ⟨0x42000004, 29, 29⟩
def F.WKE_STAT_WIN_PARTIAL : Fld := ⟨0x42000004, 28, 28⟩
def F.WKE_STAT_WATCH_LATE : Fld := ⟨0x42000004, 27, 27⟩
def F.WKE_STAT_WATCH_LOST : Fld := ⟨0x42000004, 26, 26⟩
def F.WKE_STAT_GAP : Fld := ⟨0x42000004, 25, 25⟩
def F.WKE_STAT_PAGE_RETIRED : Fld := ⟨0x42000004, 24, 24⟩
def F.WKE_STAT_FAR : Fld := ⟨0x42000004, 23, 23⟩
def F.WKE_STAT_RETIRED : Fld := ⟨0x42000004, 7, 0⟩
def F.WKE_DEPTH_DEPTH : Fld := ⟨0x42000008, 31, 0⟩
def F.WKE_FACTOR_FACTOR_MIN : Fld := ⟨0x4200000c, 31, 16⟩
def F.WKE_FACTOR_FACTOR : Fld := ⟨0x4200000c, 15, 0⟩
def F.WKE_PAGES_FREE : Fld := ⟨0x42000010, 31, 16⟩
def F.WKE_PAGES_PINNED : Fld := ⟨0x42000010, 15, 8⟩
def F.WKE_PAGES_OPEN : Fld := ⟨0x42000010, 7, 0⟩
def F.WKE_MQ_LEVEL : Fld := ⟨0x42000014, 28, 16⟩
def F.WKE_MQ_REFUSED : Fld := ⟨0x42000014, 15, 0⟩
def F.WKE_MIN0_EN : Fld := ⟨0x42000020, 31, 31⟩
def F.WKE_MIN0_NEG : Fld := ⟨0x42000020, 30, 30⟩
def F.WKE_MIN0_PEER : Fld := ⟨0x42000020, 29, 29⟩
def F.WKE_MIN0_MIN_GAP : Fld := ⟨0x42000020, 27, 16⟩
def F.WKE_MIN0_IN_DLY : Fld := ⟨0x42000020, 15, 0⟩
def F.WKE_MIN1_PRE : Fld := ⟨0x42000024, 16, 0⟩
def F.WKE_MIN2_POST : Fld := ⟨0x42000028, 16, 0⟩
def F.WKE_MIN3_GROUPS : Fld := ⟨0x4200002c, 31, 0⟩
def F.WKE_DM_SEC_HI_SEC : Fld := ⟨0x42000060, 31, 0⟩
def F.WKE_DM_SEC_LO_SEC : Fld := ⟨0x42000064, 31, 0⟩
def F.WKE_DM_NS_NS : Fld := ⟨0x42000068, 29, 0⟩
def F.WKE_DM_PRE_PRE : Fld := ⟨0x4200006c, 16, 0⟩
def F.WKE_DM_POST_POST : Fld := ⟨0x42000070, 16, 0⟩
def F.WKE_DM_GROUPS_GROUPS : Fld := ⟨0x42000074, 31, 0⟩
def F.WKE_DM_CTL_GO : Fld := ⟨0x42000078, 31, 31⟩
def F.WKE_DM_CTL_PEER : Fld := ⟨0x42000078, 30, 30⟩
def F.WKE_DM_CTL_DONE : Fld := ⟨0x42000078, 29, 29⟩
def F.WKE_DM_CTL_RESULT : Fld := ⟨0x42000078, 28, 26⟩
def F.WKE_DM_CTL_TAG : Fld := ⟨0x42000078, 15, 0⟩
def F.WKE_TBL_ADDR_TBL : Fld := ⟨0x42000080, 31, 30⟩
def F.WKE_TBL_ADDR_AUTO_INC : Fld := ⟨0x42000080, 29, 29⟩
def F.WKE_TBL_ADDR_INDEX : Fld := ⟨0x42000080, 17, 0⟩
def F.WKE_TBL_DATA_DATA : Fld := ⟨0x42000084, 31, 0⟩
def F.WKE_WGRP0_SPAN : Fld := ⟨0x42000100, 31, 0⟩
def F.WKE_WGRP1_DEADLINE : Fld := ⟨0x42000104, 31, 0⟩
def F.WKE_WGRP2_CUR : Fld := ⟨0x42000108, 31, 0⟩
def F.WKE_WGRP3_SERIAL : Fld := ⟨0x4200010c, 31, 0⟩
def F.WKE_WGRP4_SHORTENED : Fld := ⟨0x42000110, 31, 31⟩
def F.WKE_WGRP4_BACKLOG : Fld := ⟨0x42000110, 15, 0⟩
def F.WKE_WGRP5_LATE_CNT : Fld := ⟨0x42000114, 31, 16⟩
def F.WKE_WGRP5_LOST_CNT : Fld := ⟨0x42000114, 15, 0⟩
def F.EGR_CTL_LANE_EN : Fld := ⟨0x43000000, 31, 23⟩
def F.EGR_CTL_CONFIRM_T : Fld := ⟨0x43000000, 15, 0⟩
def F.EGR_STAT_LANE_FAULT : Fld := ⟨0x43000004, 31, 31⟩
def F.EGR_STAT_TAKEOVER : Fld := ⟨0x43000004, 30, 30⟩
def F.EGR_STAT_NO_SPARE : Fld := ⟨0x43000004, 29, 29⟩
def F.EGR_STAT_PFC_LONG : Fld := ⟨0x43000004, 28, 28⟩
def F.EGR_STAT_RX_DISCARD : Fld := ⟨0x43000004, 27, 27⟩
def F.EGR_STAT_SPARE_OK : Fld := ⟨0x43000004, 26, 26⟩
def F.EGR_STAT_SPARE : Fld := ⟨0x43000004, 25, 22⟩
def F.EGR_STAT_RESENT : Fld := ⟨0x43000004, 15, 0⟩
def F.EGR_MAP_PHYS : Fld := ⟨0x43000008, 31, 0⟩
def F.EGR_FAULT_FEC_UNC_LIM : Fld := ⟨0x4300000c, 31, 16⟩
def F.EGR_FAULT_PFC_WD : Fld := ⟨0x4300000c, 15, 0⟩
def F.EGR_FALLBACK_FB : Fld := ⟨0x43000010, 31, 0⟩
def F.EGR_SYSDEST_MON_INT : Fld := ⟨0x43000014, 31, 16⟩
def F.EGR_SYSDEST_MON_DEST : Fld := ⟨0x43000014, 13, 8⟩
def F.EGR_SYSDEST_LOG_DEST : Fld := ⟨0x43000014, 5, 0⟩
def F.EGR_LANE0_UP : Fld := ⟨0x43000100, 31, 31⟩
def F.EGR_LANE0_ROLE : Fld := ⟨0x43000100, 30, 29⟩
def F.EGR_LANE0_LOGICAL : Fld := ⟨0x43000100, 28, 26⟩
def F.EGR_LANE0_CAUSE : Fld := ⟨0x43000100, 25, 23⟩
def F.EGR_LANE1_FRAMES : Fld := ⟨0x43000104, 31, 0⟩
def F.EGR_LANE2_FEC_CORR : Fld := ⟨0x43000108, 31, 16⟩
def F.EGR_LANE2_FEC_UNC : Fld := ⟨0x43000108, 15, 0⟩
def F.EGR_LANE3_PFC_RX : Fld := ⟨0x4300010c, 31, 16⟩
def F.EGR_LANE3_RX_DISC : Fld := ⟨0x4300010c, 15, 0⟩
def F.EGR_GDEST_WATCH_DEST : Fld := ⟨0x43000300, 13, 8⟩
def F.EGR_GDEST_MARK_DEST : Fld := ⟨0x43000300, 5, 0⟩
def F.EGR_DEST_ADDR_INDEX : Fld := ⟨0x43000200, 9, 0⟩
def F.EGR_DEST_DATA_DATA : Fld := ⟨0x43000204, 31, 0⟩
def F.GBL_CTL_RUN_EN : Fld := ⟨0x40000004, 31, 31⟩
def F.GBL_STAT_CHECK_BUSY : Fld := ⟨0x40000008, 31, 31⟩
def F.GBL_STAT_ACT_BUSY : Fld := ⟨0x40000008, 30, 30⟩
def F.GBL_STAT_CHART_OK : Fld := ⟨0x40000008, 29, 29⟩
def F.GBL_STAT_FELL_BACK : Fld := ⟨0x40000008, 28, 28⟩
def F.GBL_STAT_ACT_SLOT : Fld := ⟨0x40000008, 27, 26⟩
def F.GBL_STAT_REASON : Fld := ⟨0x40000008, 23, 16⟩
def F.GBL_STAT_DETAIL : Fld := ⟨0x40000008, 15, 0⟩
def F.GBL_SERIAL_HI_SERIAL : Fld := ⟨0x4000000c, 31, 0⟩
def F.GBL_SERIAL_LO_SERIAL : Fld := ⟨0x40000010, 31, 0⟩
def F.GBL_CHART_CMD_GO : Fld := ⟨0x40000014, 31, 31⟩
def F.GBL_CHART_CMD_OP : Fld := ⟨0x40000014, 30, 28⟩
def F.GBL_CHART_CMD_SLOT : Fld := ⟨0x40000014, 25, 24⟩
def F.GBL_STG_LEN_LEN : Fld := ⟨0x40000018, 22, 0⟩
def F.GBL_CHART_STAT_DONE : Fld := ⟨0x4000001c, 31, 31⟩
def F.GBL_CHART_STAT_OP : Fld := ⟨0x4000001c, 30, 28⟩
def F.GBL_CHART_STAT_SLOT : Fld := ⟨0x4000001c, 25, 24⟩
def F.GBL_CHART_STAT_LREASON : Fld := ⟨0x4000001c, 23, 16⟩
def F.GBL_CHART_STAT_LDETAIL : Fld := ⟨0x4000001c, 15, 0⟩
def F.GBL_TRIM_TGT_OCC_TGT : Fld := ⟨0x40000020, 31, 0⟩
def F.GBL_SLOT0_STATE : Fld := ⟨0x40000040, 31, 30⟩
def F.GBL_SLOT0_PRIMARY : Fld := ⟨0x40000040, 29, 29⟩
def F.GBL_SLOT0_FALLBACK : Fld := ⟨0x40000040, 28, 28⟩
def F.GBL_SLOT0_ACTIVE : Fld := ⟨0x40000040, 27, 27⟩
def F.GBL_SLOT0_LREASON : Fld := ⟨0x40000040, 23, 16⟩
def F.GBL_SLOT0_REV_LO : Fld := ⟨0x40000040, 15, 0⟩
def F.GBL_SLOT1_CHART_ID : Fld := ⟨0x40000044, 31, 0⟩
def F.GBL_ACT_DIGEST_DIGEST : Fld := ⟨0x40000080, 31, 0⟩
def F.INT_CTL_SCRUB_EN : Fld := ⟨0x45000000, 31, 31⟩
def F.INT_CTL_TST_EN : Fld := ⟨0x45000000, 30, 30⟩
def F.INT_CTL_REMAP_EN : Fld := ⟨0x45000000, 29, 29⟩
def F.INT_CTL_ADAPT_REF : Fld := ⟨0x45000000, 28, 28⟩
def F.INT_CTL_SCRUB_MIN : Fld := ⟨0x45000000, 10, 0⟩
def F.INT_STAT_CE : Fld := ⟨0x45000004, 31, 31⟩
def F.INT_STAT_UE : Fld := ⟨0x45000004, 30, 30⟩
def F.INT_STAT_LASTING : Fld := ⟨0x45000004, 29, 29⟩
def F.INT_STAT_REMAP : Fld := ⟨0x45000004, 28, 28⟩
def F.INT_STAT_REMAP_FULL : Fld := ⟨0x45000004, 27, 27⟩
def F.INT_STAT_RETIRE : Fld := ⟨0x45000004, 26, 26⟩
def F.INT_STAT_PART_REFUSED : Fld := ⟨0x45000004, 25, 25⟩
def F.INT_STAT_MU_SWITCH : Fld := ⟨0x45000004, 24, 24⟩
def F.INT_STAT_CORE_SWITCH : Fld := ⟨0x45000004, 23, 23⟩
def F.INT_STAT_STACK_SEFI : Fld := ⟨0x45000004, 22, 22⟩
def F.INT_STAT_HOT_REF : Fld := ⟨0x45000004, 21, 21⟩
def F.INT_STAT_STUP_PASS : Fld := ⟨0x45000004, 20, 20⟩
def F.INT_STAT_STUP_BUSY : Fld := ⟨0x45000004, 19, 19⟩
def F.INT_STAT_DEGRADED : Fld := ⟨0x45000004, 18, 18⟩
def F.INT_STAT_VOTE_CORR : Fld := ⟨0x45000004, 17, 17⟩
def F.INT_ELOG_STAT_OVF : Fld := ⟨0x45000010, 31, 31⟩
def F.INT_ELOG_STAT_LEVEL : Fld := ⟨0x45000010, 30, 24⟩
def F.INT_ELOG_STAT_OVF_CNT : Fld := ⟨0x45000010, 15, 0⟩
def F.INT_ELOG_W0_VALID : Fld := ⟨0x45000014, 31, 31⟩
def F.INT_ELOG_W0_KIND : Fld := ⟨0x45000014, 30, 28⟩
def F.INT_ELOG_W0_SOURCE : Fld := ⟨0x45000014, 27, 25⟩
def F.INT_ELOG_W0_MEM : Fld := ⟨0x45000014, 15, 8⟩
def F.INT_ELOG_W0_SYND : Fld := ⟨0x45000014, 7, 0⟩
def F.INT_ELOG_W1_ADDR : Fld := ⟨0x45000018, 31, 0⟩
def F.INT_ELOG_W2_SEC : Fld := ⟨0x4500001c, 31, 0⟩
def F.INT_ELOG_W3_NS : Fld := ⟨0x45000020, 29, 0⟩
def F.INT_ELOG_POP_POP : Fld := ⟨0x45000024, 31, 31⟩
def F.INT_BYP_CTL_BYP_EN : Fld := ⟨0x45000040, 31, 31⟩
def F.INT_BYP_CTL_GO : Fld := ⟨0x45000040, 30, 30⟩
def F.INT_BYP_CTL_WR : Fld := ⟨0x45000040, 29, 29⟩
def F.INT_BYP_CTL_MEM : Fld := ⟨0x45000040, 23, 16⟩
def F.INT_BYP_ADDR_ADDR : Fld := ⟨0x45000044, 31, 0⟩
def F.INT_BYP_DATA_DATA : Fld := ⟨0x45000048, 31, 0⟩
def F.INT_BYP_CHK_CHK : Fld := ⟨0x45000068, 31, 0⟩
def F.INT_BYP_SYND_SYND : Fld := ⟨0x4500006c, 31, 0⟩
def F.INT_BYP_RES_DONE : Fld := ⟨0x45000070, 31, 31⟩
def F.INT_BYP_RES_RESULT : Fld := ⟨0x45000070, 30, 29⟩
def F.INT_MU_ACTIVE : Fld := ⟨0x45000080, 31, 31⟩
def F.INT_MU_A_STATE : Fld := ⟨0x45000080, 30, 29⟩
def F.INT_MU_B_STATE : Fld := ⟨0x45000080, 28, 27⟩
def F.INT_MU_SWITCH : Fld := ⟨0x45000080, 26, 26⟩
def F.INT_MU_LAST_CAUSE : Fld := ⟨0x45000080, 25, 22⟩
def F.INT_MU_SWITCHES : Fld := ⟨0x45000080, 15, 0⟩
def F.INT_CORE_ACTIVE_PAIR : Fld := ⟨0x45000084, 31, 31⟩
def F.INT_CORE_A_STATE : Fld := ⟨0x45000084, 30, 29⟩
def F.INT_CORE_B_STATE : Fld := ⟨0x45000084, 28, 27⟩
def F.INT_CORE_SWITCHES : Fld := ⟨0x45000084, 15, 8⟩
def F.INT_CORE_REBOOTS : Fld := ⟨0x45000084, 7, 0⟩
def F.INT_CKPT_CKPT_INT : Fld := ⟨0x45000088, 31, 16⟩
def F.INT_CKPT_CKPT_AGE : Fld := ⟨0x45000088, 15, 0⟩
def F.INT_STUP_GO : Fld := ⟨0x450000a0, 31, 31⟩
def F.INT_STUP_BUSY : Fld := ⟨0x450000a0, 30, 30⟩
def F.INT_STUP_PASS : Fld := ⟨0x450000a0, 29, 29⟩
def F.INT_STUP_WAKE_FAIL : Fld := ⟨0x450000a0, 23, 16⟩
def F.INT_STUP_CHK_DEGR : Fld := ⟨0x450000a0, 15, 0⟩
def F.INT_TEMP_TEMP : Fld := ⟨0x450000c0, 31, 24⟩
def F.INT_TEMP_REF4 : Fld := ⟨0x450000c0, 23, 23⟩
def F.INT_TEMP_DOSE_REF : Fld := ⟨0x450000c0, 22, 22⟩
def F.INT_TEMP_OUT : Fld := ⟨0x450000c0, 21, 21⟩
def F.INT_TEMP_CE_HOUR : Fld := ⟨0x450000c0, 15, 0⟩
def F.INT_MEM0_CE_CNT : Fld := ⟨0x45000100, 31, 0⟩
def F.INT_MEM1_UE_CNT : Fld := ⟨0x45000104, 31, 16⟩
def F.INT_MEM1_LASTING : Fld := ⟨0x45000104, 15, 8⟩
def F.INT_MEM1_REMAP_USED : Fld := ⟨0x45000104, 7, 0⟩
def F.INT_MEM2_PASSES : Fld := ⟨0x45000108, 31, 0⟩
def F.INT_MEM3_RETIRED : Fld := ⟨0x4500010c, 31, 16⟩
def F.INT_MEM3_SUSPECT_OVF : Fld := ⟨0x4500010c, 15, 8⟩
def F.INT_MEM3_TST_SKIP : Fld := ⟨0x4500010c, 7, 0⟩
def F.HK_CTL_SEQ_EN : Fld := ⟨0x46000000, 31, 31⟩
def F.HK_CTL_MODE : Fld := ⟨0x46000000, 30, 29⟩
def F.HK_CTL_MAINS : Fld := ⟨0x46000000, 28, 28⟩
def F.HK_CTL_BLANK_EN : Fld := ⟨0x46000000, 27, 27⟩
def F.HK_CTL_BLANK_POL : Fld := ⟨0x46000000, 26, 26⟩
def F.HK_CTL_BLANK_MAX : Fld := ⟨0x46000000, 15, 0⟩
def F.HK_STAT_OVERRUN : Fld := ⟨0x46000004, 31, 31⟩
def F.HK_STAT_FIFO_OVF : Fld := ⟨0x46000004, 30, 30⟩
def F.HK_STAT_BLANK_LONG : Fld := ⟨0x46000004, 29, 29⟩
def F.HK_STAT_BURNOUT : Fld := ⟨0x46000004, 28, 28⟩
def F.HK_STAT_OVR : Fld := ⟨0x46000004, 27, 27⟩
def F.HK_STAT_DISCARD : Fld := ⟨0x46000004, 26, 26⟩
def F.HK_STAT_TEST_FAIL : Fld := ⟨0x46000004, 25, 25⟩
def F.HK_STAT_CJ_STALE : Fld := ⟨0x46000004, 24, 24⟩
def F.HK_STAT_INJ_BUSY : Fld := ⟨0x46000004, 23, 23⟩
def F.HK_STAT_INJ_PEND : Fld := ⟨0x46000004, 22, 22⟩
def F.HK_STAT_BLANKED : Fld := ⟨0x46000004, 21, 21⟩
def F.HK_STAT_SLOPE_B : Fld := ⟨0x46000004, 20, 20⟩
def F.HK_STAT_TDAC_OK_A : Fld := ⟨0x46000004, 19, 19⟩
def F.HK_STAT_TDAC_OK_B : Fld := ⟨0x46000004, 18, 18⟩
def F.HK_INJ_TRIG : Fld := ⟨0x46000008, 31, 31⟩
def F.HK_INJ_EVT_EN : Fld := ⟨0x46000008, 30, 30⟩
def F.HK_INJ_TRIG_EVT : Fld := ⟨0x46000008, 23, 16⟩
def F.HK_INJ_OVERRUN_CNT : Fld := ⟨0x46000008, 15, 0⟩
def F.HK_TDAC_OUT_EN : Fld := ⟨0x4600000c, 31, 31⟩
def F.HK_TDAC_BUSY : Fld := ⟨0x4600000c, 30, 30⟩
def F.HK_TDAC_CODE : Fld := ⟨0x4600000c, 11, 0⟩
def F.HK_TEST_GO : Fld := ⟨0x46000010, 31, 31⟩
def F.HK_TEST_BUSY : Fld := ⟨0x46000010, 30, 30⟩
def F.HK_TEST_TEST_INT : Fld := ⟨0x46000010, 23, 16⟩
def F.HK_TEST_GAIN_ERR_A : Fld := ⟨0x46000010, 15, 8⟩
def F.HK_TEST_GAIN_ERR_B : Fld := ⟨0x46000010, 7, 0⟩
def F.HK_CNT_CONV_CNT : Fld := ⟨0x46000014, 31, 16⟩
def F.HK_CNT_DISC_CNT : Fld := ⟨0x46000014, 15, 0⟩
def F.HK_SLOPE_VALID : Fld := ⟨0x46000018, 31, 31⟩
def F.HK_SLOPE_WIN : Fld := ⟨0x46000018, 23, 0⟩
def F.HK_FIFO_STAT_OVF : Fld := ⟨0x46000020, 31, 31⟩
def F.HK_FIFO_STAT_LEVEL : Fld := ⟨0x46000020, 30, 22⟩
def F.HK_FIFO_STAT_OVF_CNT : Fld := ⟨0x46000020, 15, 0⟩
def F.HK_FIFO_W_ENTRY : Fld := ⟨0x46000024, 31, 0⟩
def F.HK_FIFO_POP_POP : Fld := ⟨0x46000034, 31, 31⟩
def F.HK_INCFG_CURVE : Fld := ⟨0x46000100, 31, 24⟩
def F.HK_INCFG_WIRING : Fld := ⟨0x46000100, 23, 16⟩
def F.HK_INCFG_EXCIT : Fld := ⟨0x46000100, 15, 8⟩
def F.HK_INCFG_BURN : Fld := ⟨0x46000100, 7, 7⟩
def F.HK_INCFG_AUTO : Fld := ⟨0x46000100, 6, 6⟩
def F.HK_INCFG_RANGE_NOW : Fld := ⟨0x46000100, 5, 4⟩
def F.HK_LAST_ENTRY : Fld := ⟨0x46000200, 31, 0⟩
def F.SAF_STAT_STATE : Fld := ⟨0x47000000, 31, 29⟩
def F.SAF_STAT_ILK_A : Fld := ⟨0x47000000, 28, 28⟩
def F.SAF_STAT_ILK_B : Fld := ⟨0x47000000, 27, 27⟩
def F.SAF_STAT_EN_HS : Fld := ⟨0x47000000, 26, 26⟩
def F.SAF_STAT_EN_LS : Fld := ⟨0x47000000, 25, 25⟩
def F.SAF_STAT_FB_HS : Fld := ⟨0x47000000, 24, 24⟩
def F.SAF_STAT_FB_LS : Fld := ⟨0x47000000, 23, 23⟩
def F.SAF_STAT_RAMP_REQ : Fld := ⟨0x47000000, 22, 22⟩
def F.SAF_STAT_DSC_ON : Fld := ⟨0x47000000, 21, 21⟩
def F.SAF_STAT_DSC_FB : Fld := ⟨0x47000000, 20, 20⟩
def F.SAF_STAT_RST : Fld := ⟨0x47000000, 19, 19⟩
def F.SAF_STAT_MON_OK : Fld := ⟨0x47000000, 18, 18⟩
def F.SAF_STAT_DISC_FAULT : Fld := ⟨0x47000000, 15, 15⟩
def F.SAF_STAT_FB_FAULT : Fld := ⟨0x47000000, 14, 14⟩
def F.SAF_STAT_DSC_FAULT : Fld := ⟨0x47000000, 13, 13⟩
def F.SAF_STAT_SCK_FAULT : Fld := ⟨0x47000000, 12, 12⟩
def F.SAF_STAT_RST_STUCK : Fld := ⟨0x47000000, 11, 11⟩
def F.SAF_STAT_MON_LOST : Fld := ⟨0x47000000, 10, 10⟩
def F.SAF_STAT_RAMP_VIOL : Fld := ⟨0x47000000, 9, 9⟩
def F.SAF_STAT_RAMP_TIMEOUT : Fld := ⟨0x47000000, 8, 8⟩
def F.SAF_STAT_CAUSE : Fld := ⟨0x47000000, 7, 6⟩
def F.SAF_CFG_TEST_OK : Fld := ⟨0x47000004, 31, 31⟩
def F.SAF_CFG_SEL_OK : Fld := ⟨0x47000004, 30, 30⟩
def F.SAF_CFG_SAFE_SEL : Fld := ⟨0x47000004, 7, 0⟩
def F.SAF_CNT_DEMANDS : Fld := ⟨0x47000008, 31, 16⟩
def F.SAF_CNT_RESTARTS : Fld := ⟨0x47000008, 15, 8⟩
def F.SAF_CNT_RST_REJ : Fld := ⟨0x47000008, 7, 0⟩
def F.SAF_RAMP_V0 : Fld := ⟨0x4700000c, 31, 16⟩
def F.SAF_RAMP_F_LAST : Fld := ⟨0x4700000c, 15, 0⟩
def F.SAF_RTIME_RAMP_MS : Fld := ⟨0x47000010, 31, 16⟩
def F.SAF_RTIME_REM_US : Fld := ⟨0x47000010, 15, 0⟩
def F.SAF_DEM_SEC_SEC : Fld := ⟨0x47000014, 31, 0⟩
def F.SAF_DEM_NS_NS : Fld := ⟨0x47000018, 29, 0⟩
def F.LOG_STAT_NVM_FAIL : Fld := ⟨0x48000000, 31, 31⟩
def F.LOG_STAT_PERM_FULL : Fld := ⟨0x48000000, 30, 30⟩
def F.LOG_STAT_SRAM_OVW : Fld := ⟨0x48000000, 29, 29⟩
def F.LOG_STAT_DROP : Fld := ⟨0x48000000, 28, 28⟩
def F.LOG_STAT_DROP_CNT : Fld := ⟨0x48000000, 15, 0⟩
def F.LOG_SEQ_NEXT_SEQ : Fld := ⟨0x48000004, 31, 0⟩
def F.LOG_OPTIME_OPTIME : Fld := ⟨0x48000008, 31, 0⟩
def F.LOG_PCYC_PCYC : Fld := ⟨0x4800000c, 31, 0⟩
def F.LOG_RD_GO : Fld := ⟨0x48000010, 31, 31⟩
def F.LOG_RD_DONE : Fld := ⟨0x48000010, 30, 30⟩
def F.LOG_RD_WHERE : Fld := ⟨0x48000010, 29, 28⟩
def F.LOG_RD_SEQ_RD_SEQ : Fld := ⟨0x48000014, 31, 0⟩
def F.LOG_RD_DATA_DATA : Fld := ⟨0x48000020, 31, 0⟩
def F.LOG_WR_HDR_KIND : Fld := ⟨0x48000060, 31, 24⟩
def F.LOG_WR_HDR_CODE : Fld := ⟨0x48000060, 15, 0⟩
def F.LOG_WR_DATA_DATA : Fld := ⟨0x48000064, 31, 0⟩
def F.LOG_WR_CTL_GO : Fld := ⟨0x48000078, 31, 31⟩
def F.EVT_ROUTE_PEND : Fld := ⟨0x49000000, 31, 31⟩
def F.EVT_ROUTE_COUNT : Fld := ⟨0x49000000, 23, 8⟩
def F.EVT_ROUTE_CORE : Fld := ⟨0x49000000, 2, 2⟩
def F.EVT_ROUTE_HELM : Fld := ⟨0x49000000, 1, 1⟩
def F.EVT_ROUTE_LOG : Fld := ⟨0x49000000, 0, 0⟩
def F.EVT_PEND_PEND : Fld := ⟨0x49000400, 31, 0⟩
def F.EVT_DETAIL_DETAIL : Fld := ⟨0x49000800, 31, 0⟩
def F.EVT_CTL_IRQ_EN : Fld := ⟨0x49000c00, 31, 31⟩
def F.EVT_CTL_LAST : Fld := ⟨0x49000c00, 7, 0⟩
def F.MGT_CTL_MODE : Fld := ⟨0x4a000000, 31, 31⟩
def F.MGT_STAT_LINK : Fld := ⟨0x4a000004, 31, 31⟩
def F.MGT_STAT_RECOVERY : Fld := ⟨0x4a000004, 30, 30⟩
def F.MGT_STAT_BOOT_SEL : Fld := ⟨0x4a000004, 29, 28⟩
def F.MGT_STAT_BOOT_SLOT : Fld := ⟨0x4a000004, 27, 27⟩
def F.MGT_ROLE_END : Fld := ⟨0x4a000008, 31, 31⟩
def F.MGT_ROLE_ROLE : Fld := ⟨0x4a000008, 1, 0⟩
def F.MGT_ROLE_FP_HI_FP : Fld := ⟨0x4a00000c, 31, 0⟩
def F.MGT_ROLE_FP_LO_FP : Fld := ⟨0x4a000010, 31, 0⟩
def F.MGT_FW_SLOT0 : Fld := ⟨0x4a000014, 31, 30⟩
def F.MGT_FW_SLOT1 : Fld := ⟨0x4a000014, 29, 28⟩
def F.MGT_FW_SVN : Fld := ⟨0x4a000014, 23, 16⟩
def F.MGT_FW_FW_FLOOR : Fld := ⟨0x4a000014, 7, 0⟩
def F.MGT_HELM_BAD_SIG : Fld := ⟨0x4a000018, 31, 24⟩
def F.MGT_HELM_UNKNOWN : Fld := ⟨0x4a000018, 23, 16⟩
def F.MGT_HELM_REPLAY : Fld := ⟨0x4a000018, 15, 8⟩
def F.MGT_HELM_DENIED : Fld := ⟨0x4a000018, 7, 0⟩

/-- The same field `k` words further on, in an array of registers `stride` apart. -/
def Fld.ix (f : Fld) (stride k : Nat) : Fld := ⟨f.reg + stride * k, f.hi, f.lo⟩

/-- The field of a window register, in the window that starts at `base`. -/
def Fld.at (f : Fld) (base : Nat) : Fld := ⟨base + f.reg, f.hi, f.lo⟩

/-- The width of a field. -/
def Fld.width (f : Fld) : Nat := f.hi + 1 - f.lo

/-- The largest value a field holds. -/
def Fld.top (f : Fld) : Nat := 2 ^ f.width - 1

/-- The bits of a field within its word. -/
def Fld.mask (f : Fld) : Nat := f.top * 2 ^ f.lo

/-- The value a word carries in a field. -/
def Fld.of (f : Fld) (v : Word) : Nat := bitsOf v.toNat f.hi f.lo

/-- A word with a field replaced; what does not fit the field is cut off. -/
def Fld.put (f : Fld) (v : Word) (n : Nat) : Word :=
  (v &&& ~~~ BitVec.ofNat 32 f.mask) ||| BitVec.ofNat 32 (lowBits f.width n * 2 ^ f.lo)

end Sys2Proof
end

