-- ==== Sys2Proof/Machine/RegOps.lean ====
section
/-!
DEFINITION. Machine/RegOps.lean: reset values, the access codes of R15 and the role judgement of R16, on one word.
-/
namespace Sys2Proof

/-- The authority behind a write: a role of R458, none, or the device's own (R469). -/
inductive Role
  | none | operator | installer | maker | device
  deriving DecidableEq, Repr

/-- A write under role `r` may set an RWL field of column `c` (R458: the installer includes the operator). -/
def Role.mayWrite (r : Role) (c : RoleCol) : Bool :=
  match r, c with
  | .device, _ => true
  | _, .any => true
  | .operator, .operator => true
  | .installer, .operator => true
  | .installer, .installer => true
  | .installer, .instOrMaker => true
  | .maker, .instOrMaker => true
  | _, _ => false

/-- The ROLE byte of records and of MGT_ROLE (R483, R490). -/
def Role.code : Role → Nat
  | .none => 0 | .operator => 1 | .installer => 2 | .maker => 3 | .device => 0

/-- The row of the register map that holds an address. -/
def specAt (l : List RegSpec) (a : Nat) : Option RegSpec := l.find? (fun r => r.covers a)

/-- The value of an address after power-on reset; an address that holds no register reads 0 (R18, R48). -/
def specReset (l : List RegSpec) (a : Nat) : Word :=
  match specAt l a with
  | some r => BitVec.ofNat 32 r.reset
  | none => 0

/-- The offset of an address in its port window, when it lies in one (R45). -/
def windowOf (a : Nat) : Option (Nat × Nat) :=
  if 0x40100000 ≤ a ∧ a < 0x40120800 then some ((a - 0x40100000) / 0x400, (a - 0x40100000) % 0x400) else none

/-- The base address of a port window: ports 0 to 127, then PEER0 and PEER1 (R45). -/
def windowBase (p : Nat) : Nat := 0x40100000 + 0x400 * p

/-- The register row of a manager address outside the link registers. -/
def mgrSpecAt (a : Nat) : Option RegSpec :=
  match windowOf a with
  | some (p, o) => if p < 128 then specAt pairSpecs o else none
  | none => specAt mgrSpecs a

/-- What a manager register reads after power-on reset. -/
def mgrReset (a : Nat) : Word :=
  match mgrSpecAt a with
  | some r => BitVec.ofNat 32 r.reset
  | none => 0

/-- What a worker register reads after a worker reset. -/
def wkrReset (a : Nat) : Word := specReset wkrSpecs a

/-- The link registers after reset; SVC_EN resets to 1 on a worker (PRT_CTL and LNK_CTL table), and LOS, whose reset
value the table leaves open, reads 1, since nothing is received yet (log entry 4). -/
def linkReset (worker : Bool) (i : Nat) : Word :=
  let v := specReset linkSpecs i
  if worker ∧ i = 0 then F.LNK_CTL_SVC_EN.put v 1 else if i = 1 then F.LNK_STAT_LOS.put v 1 else v

/-- The mask of the RWL fields that a role may not write. -/
def heldMask (r : Role) (l : List RwlFld) : Nat :=
  l.foldl (fun m f => if r.mayWrite f.role then m else m + (2 ^ (f.hi + 1 - f.lo) - 1) * 2 ^ f.lo) 0

/-- The mask of the RWL fields that a role may write. -/
def openMask (r : Role) (l : List RwlFld) : Nat :=
  l.foldl (fun m f => if r.mayWrite f.role then m + (2 ^ (f.hi + 1 - f.lo) - 1) * 2 ^ f.lo else m) 0

/-- The write is refused: it carries, for some RWL field the role may not write, a value other than the current
one; a self-clearing bit is judged against 0 (R16). -/
def writeRefused (r : Role) (l : List RwlFld) (old new : Word) : Bool :=
  l.any (fun f => !r.mayWrite f.role &&
    bitsOf new.toNat f.hi f.lo != (if f.selfClear then 0 else bitsOf old.toNat f.hi f.lo))

/-- The word after a write under a role: RW and permitted RWL fields take the value, W1C bits clear where a 1 is
written, all else keeps its value (R15, R16). -/
def writeWord (s : RegSpec) (r : Role) (old new : Word) : Word :=
  let take := BitVec.ofNat 32 (Nat.lor s.rw (openMask r s.rwl))
  let clr := BitVec.ofNat 32 s.w1c &&& new
  ((old &&& ~~~ take) ||| (new &&& take)) &&& ~~~ clr

/-- A register file: sparse over what reset gives. -/
abbrev RegFile := AMap Word

/-- A field of a register file. -/
def RegFile.get (d : Nat → Word) (m : RegFile) (f : Fld) : Nat := f.of (AMap.get d m f.reg)

/-- Set a field of a register file. -/
def RegFile.set (d : Nat → Word) (m : RegFile) (f : Fld) (n : Nat) : RegFile :=
  AMap.upd d m f.reg (fun w => f.put w n)

/-- Add to a counter field that saturates. -/
def RegFile.sat (d : Nat → Word) (m : RegFile) (f : Fld) (n : Nat) : RegFile :=
  RegFile.set d m f (min f.top (RegFile.get d m f + n))

/-- Add to a counter field that wraps. -/
def RegFile.wrap (d : Nat → Word) (m : RegFile) (f : Fld) (n : Nat) : RegFile :=
  RegFile.set d m f (RegFile.get d m f + n)

end Sys2Proof
end

