-- ==== Sys2Proof/Machine/PortTypes.lean ====
section
/-!
DEFINITION. Machine/PortTypes.lean: the state of one Plom port, the same on a worker, a manager worker port and a
manager peer port (R178, R182 to R185, R193, R199 to R206, R522).
-/
namespace Sys2Proof

/-- The lock state machine with its count (R178). -/
inductive LockSt
  | hunt (c : Nat)
  | confirm (k : Nat)
  | locked
  deriving DecidableEq, Repr

/-- An open packet at a receiver (R193): sender, kind, LEN, epoch, data blocks received and the running CRC (R191). -/
structure OpenPkt where
  pos : Nat
  kind : Nat
  len : Nat
  epoch : Nat
  got : Nat
  crc : Nat
  deriving DecidableEq, Repr

/-- Packet framing (R193): idle, a packet open, or the blocks of a discarded PKT_START being discarded with the data
blocks still to come, if its LEN was not 0. -/
inductive Framing
  | idle
  | opened (p : OpenPkt)
  | discarding (left : Option Nat)
  deriving DecidableEq, Repr

/-- The rejoin test of a receiver (R185): test blocks received and the checker's register. -/
structure RejoinTest where
  got : Nat
  prbs : BitVec 31
  deriving DecidableEq, Repr

/-- A PRBS checker (R201): its register, the bits received into it (a full register is needed to judge one), and the
error-free bits in a row. -/
structure PrbsChk where
  reg : BitVec 31
  seen : Nat
  clean : Nat
  deriving DecidableEq, Repr

/-- What framing hands on with a block: the block itself, or the closing status of an item (R193). `epoch`, `pos` and
`kind` are those of the item; `told` says that the PKT_END that closed it goes on unchanged, as R194 has it. -/
inductive RxItem
  | block (b : Block)
  | close (pos kind epoch : Nat) (got : Nat) (st : ItemStatus) (told : Bool)
  deriving DecidableEq, Repr

/-- The receiver of a port. -/
structure PortRx where
  lock : LockSt
  line : LineRx
  /-- Line bits received and not yet taken into a block at the candidate position. -/
  resid : List Bool
  /-- The bad flags of the last 64 blocks while LOCKED, newest first (R178). -/
  window : List Bool
  /-- When the present hunt began, for NO_LOCK (R180). -/
  huntFrom : Nat
  /-- The receiver has passed a rejoin test and stayed LOCKED since (R222). -/
  passed : Bool
  test : Option RejoinTest
  /-- The wait after a failed test lasts until this time (R185). -/
  backoff : Option Nat
  chk : PrbsChk
  framing : Framing
  /-- Consecutive IDLE blocks, and non-IDLE blocks since adaptation froze (R199). -/
  idleRun : Nat
  nonIdle : Nat
  /-- The arrival phase of the last block, in WCK cycles of the block slot (R522). -/
  phase : Nat
  /-- No IDLE block has been received since the receiver reached LOCKED (R184). -/
  fresh : Bool
  /-- The last line bit received, and the bit times since the last transition (R179). -/
  lastBit : Bool
  still : Nat
  deriving DecidableEq, Repr

/-- The transmitter of a port. -/
structure PortTx where
  line : LineTx
  /-- Blocks waiting for a slot (manager ports and held blocks). -/
  queue : List Block
  /-- Blocks a manager peer port forwards, as they came (R52, R521). -/
  pass : List Block
  /-- The 128 line bits of the last slot sent. -/
  last : List Bool
  /-- The block of the last slot sent. -/
  lastBlk : Option Block
  /-- Test blocks still to send of a test sequence, and its generator (R184). -/
  seqLeft : Nat
  seqGen : BitVec 31
  /-- A test sequence is under way; FAR_ST has become WAIT and no test sequence has started for it (R184). -/
  seqOn : Bool
  seqDue : Bool
  /-- The generator of the PRBS test modes (R201). -/
  gen : BitVec 31
  /-- Slots still to carry an injected header (R202). -/
  hdrInj : Nat
  /-- The transmit grid's phase, when it lay there, and its target; they differ while the grid slews (R522). -/
  grid : Nat
  gridAt : Nat
  gridTo : Nat
  deriving DecidableEq, Repr

/-- A Plom port: its ten link registers, receiver, transmitter, and the items its receiver has handed on. -/
structure Port where
  regs : RegFile
  rx : PortRx
  tx : PortTx
  inbox : List RxItem
  /-- The port's received pins carry no signal (R179). -/
  los : Bool
  /-- What the last IDLE received from the far end named: SIDE, PART and REV (R189). -/
  farSide : Nat
  farPart : Nat
  farRev : Nat
  farPos : Nat
  /-- The W1C bits of PRT_STAT or LNK_STAT that hardware has set in the present cycle (R15). -/
  hot : Word
  deriving DecidableEq, Repr

/-- A receiver after reset: hunting (R178). -/
def PortRx.init : PortRx :=
  ⟨.hunt 0, LineRx.init, [], [], 0, false, none, none, ⟨0, 0, 0⟩, .idle, 0, 0, 0, true, false, 0⟩

/-- A transmitter after reset (R172, R184). -/
def PortTx.init : PortTx := ⟨LineTx.init, [], [], [], none, 0, BitVec.allOnes 31, false, false, BitVec.allOnes 31, 0, 0, 0, 0⟩

/-- A port after reset; no signal is received yet (log entry 4). -/
def Port.init : Port := ⟨[], PortRx.init, PortTx.init, [], true, 0, 0, 0, 0, 0⟩

end Sys2Proof
end

