-- ==== Sys2Proof/Machine/MgrTypes.lean ====
section
/-!
DEFINITION. Machine/MgrTypes.lean: the manager's events and Logbook (R479 to R488), its port command engines (R213 to
R217), its port pairs and worker slots (R228 to R239), and Meridian (R240 to R272).
-/
namespace Sys2Proof

/-! ## Events and Logbook -/

/-- A Logbook record (R483); CRC is computed when its bytes are read. -/
structure LogRec where
  seq : Nat
  optime : Nat
  pcyc : Nat
  stamp : Nat
  kind : Nat
  role : Nat
  code : Nat
  keyfp : Nat
  /-- The 20 DATA bytes as one big-endian number. -/
  data : Nat
  deriving DecidableEq, Repr

/-- A record a writer waits to put into the full write queue: it has no SEQ yet (R485). -/
structure LogWait where
  kind : Nat
  role : Nat
  code : Nat
  keyfp : Nat
  data : Nat
  deriving DecidableEq, Repr

/-- The Logbook (R483 to R488). The permanent, reserved and circular areas hold records by location. -/
structure LogState where
  nextSeq : Nat
  queue : List LogRec
  waiting : List LogWait
  perm : AMap LogRec
  reserved : AMap LogRec
  circ : AMap LogRec
  /-- The location the next record goes to: 0 to 4,095 permanent, then circular locations. -/
  nextLoc : Nat
  /-- Failed writes at the present location, and consecutive failed locations (R485, R486). -/
  tries : Nat
  failedLocs : Nat
  nextReserved : Nat
  ring : List LogRec
  optime : Nat
  pcyc : Nat
  /-- When OPTIME last advanced (R484). -/
  opFrom : Nat
  /-- Words 0 to 15 of LOG_RD_DATA and 0 to 4 of LOG_WR_DATA are registers of the register file. -/
  exports : List LogRec
  /-- The place, from 1, of the record of LOG_WR_CTL.GO among those that wait; 0 with none (R485, R488). -/
  wrWait : Nat
  deriving DecidableEq, Repr

/-- A notification subscriber (R474): address, port, bank mask, when the subscription lapses, the next notification
sequence number, and by event the ticks of the notifications of the last second. -/
structure Subscriber where
  num : Nat
  ip : Nat
  port : Nat
  mask : Nat
  lapse : Nat
  seq : Nat
  sent : AMap (List Nat)
  /-- Occurrences not yet notified, by event. -/
  due : AMap Nat
  deriving DecidableEq, Repr

/-- The event unit's own counts (R474, R481): occurrences since an event's last record, when that record was made, and
the subscribers; and whether TRIG_EVT has occurred and the urgent trigger it raises is due (R430). -/
structure EvtState where
  since : AMap Nat
  recAt : AMap Nat
  subs : List Subscriber
  trig : Bool
  deriving DecidableEq, Repr

/-! ## Command engines -/

/-- Why a CMD was sent. -/
inductive CmdTag
  /-- The transaction of PRT_CMD (R213). -/
  | prt
  /-- An enumeration command for a position (R210, R212). -/
  | enum (k : Nat)
  /-- WK_ID after a worker's reply (R212). -/
  | wkId
  /-- LNK_CTL is read before the loop controller writes SVC_EN (R221). -/
  | svcRead (v : Bool)
  | svcWrite
  /-- A keep-alive read of a held port (R223). -/
  | keep
  /-- LNK_STAT of the worker a move waits for (R228, R229). -/
  | segUp
  /-- LNK_STAT of the worker in front of a segment reported, or found, out of service (R229, R29). -/
  | linkChk (h : Nat)
  /-- WK_POS after the split of a one-worker loop has moved (R28, R220). -/
  | near
  /-- WK_GSTAT after an enable (R165). -/
  | gstat
  /-- Word `i` of the worker's trim set (R476). -/
  | trim (i : Nat)
  /-- A pixel or tile word is read before MASK_AUTO or PG of it is written (R82, R366). -/
  | maskRead (v : Bool)
  | pgRead
  /-- A write of the device's own: WK_GCTL at a run's start, MASK_AUTO, PG (R357, R366). -/
  | own
  deriving DecidableEq, Repr

/-- A CMD of a port's engine (R213): outstanding once sent, with the tick its reply is due by. -/
structure CmdOut where
  pos : Nat
  wr : Bool
  addr : Nat
  data : Nat
  seq : Nat
  tries : Nat
  due : Nat
  tag : CmdTag
  deriving DecidableEq, Repr

/-- The phases of a transaction at one worker (R19, R217). -/
inductive TxnPhase
  | broadcast
  | reading (pos : Nat)
  | writing (pos : Nat)
  deriving DecidableEq, Repr

/-- The transaction a write of GO in PRT_CMD starts (R19, R165, R213, R217). -/
structure Txn where
  role : Role
  /-- The fingerprint in context when the transaction was started (R483). -/
  fp : Nat
  wr : Bool
  addr : Nat
  data : Nat
  bcast : Bool
  phase : TxnPhase
  /-- Positions still to be served, ascending. -/
  todo : List Nat
  /-- A read precedes each write (R19, R217 OWNED). -/
  readFirst : Bool
  denied : Bool
  refused : Bool
  /-- The first other result that is not REPLIED with STATUS OK: (RESULT, STATUS). -/
  bad : Option (Nat × Nat)
  nreply : Nat
  deriving DecidableEq, Repr

/-- A port's command engine (R213). -/
structure Engine where
  out : List CmdOut
  wait : List CmdOut
  txn : Option Txn
  deriving DecidableEq, Repr

/-- An engine with nothing outstanding. -/
def Engine.init : Engine := ⟨[], [], none⟩

/-! ## Pairs and slots -/

/-- Enumeration of a pair (R212). -/
inductive EnumSt
  | idle
  /-- Step 1: waiting for SEG_UP, since a tick. -/
  | waiting (since : Nat)
  /-- Steps 2 and 3: command `k` outstanding from port 2n, or from port 2n+1. -/
  | fromEven (k : Nat)
  | fromOdd (k stop : Nat)
  | done
  deriving DecidableEq, Repr

/-- The steps of a planned move or a fail-over (R228, R229). -/
inductive MoveStep
  /-- Step 3: waiting for SEG_UP at the released segment. -/
  | waitUp
  /-- Step 4: turning a worker; its echo is awaited. -/
  | turning (k : Nat)
  deriving DecidableEq, Repr

/-- A move of the split point in progress. -/
structure MoveSt where
  failOver : Bool
  src : Nat
  dst : Nat
  /-- SPLIT at the end: `dst`, or one less where a LOST worker lies in front of it (R231). -/
  final : Nat
  /-- The failed segment is already held at the end that can be reached from the other port (R229 step 2). -/
  nearHeld : Bool
  step : MoveStep
  /-- When the segment failed, for the interval of possible loss (R226). -/
  since : Nat
  /-- PRT_LOOP_MOVE asked for it. -/
  byGo : Bool
  deriving DecidableEq, Repr

/-- A block held back during a move: for a position, or a broadcast for a port of the pair (R228). -/
structure HeldBlk where
  pos : Nat
  odd : Bool
  blk : Block
  deriving DecidableEq, Repr

/-- A port pair of the manager. -/
structure Pair where
  enum : EnumSt
  move : Option MoveSt
  held : List HeldBlk
  lastMove : Nat
  /-- The second position list of R212: UNSEEN positions being tried, by port. -/
  retryEven : List Nat
  retryOdd : List Nat
  /-- Segments held out of service by the loop controller: h from 0 to N (R221, R229, R231). -/
  heldSegs : List Nat
  /-- Segments the loop controller knows to be out of service, with the tick it learned of each (R229): segment h of a
  loop or of the spur on port 2n as h, segment h of the spur on port 2n+1 as 32 + h. -/
  failed : List (Nat × Nat)
  /-- Held far ends of a LOST worker seen LOCKED again, and the segment released for its return, which has yet to enter
  service (R232). -/
  relocked : List Nat
  returning : Option Nat
  /-- Worker marks not sent because their window lies too far back: slot and MARK_ID (R230). -/
  missed : List (Nat × Nat)
  /-- When the rates were last compared (R237). -/
  rebalAt : Nat
  deriving DecidableEq, Repr

/-- A pair the Chart does not use. -/
def Pair.init : Pair := ⟨.idle, none, [], 0, [], [], [], [], [], none, [], 0⟩

/-- A probe outstanding to a worker (R263): its tag, the port it left on, the Meridian count of its slot once it has
left, and when it times out. -/
structure ProbeOut where
  tag : Nat
  odd : Bool
  kTx : Option Nat
  due : Nat
  tries : Nat
  turning : Bool
  live : Bool
  deriving DecidableEq, Repr

/-- What the loop controller keeps of a slot beside PRT_SLOT (R213, R229, R235, R256, R263 to R268). -/
structure SlotX where
  seq : Nat
  lastSeen : Nat
  lastProbe : Nat
  tag : Nat
  probe : Option ProbeOut
  drainEnd : Nat
  /-- The state before CUT_OFF (R229). -/
  saved : Nat
  trimOk : Bool
  /-- The port that last served the worker was 2n+1; kept while no port does (R232). -/
  side : Bool
  /-- A SET beacon is owed (R261). -/
  needSet : Bool
  /-- Path round trips measured from port 2n and from port 2n+1, the least of the first 8 (R263). -/
  rtEven : Option Int
  rtOdd : Option Int
  samples : Nat
  wofs : Int
  delay : Int
  /-- The pending adjustment and when it has been slewed; the average of e in 1/256 LSB; the last θ (R267). -/
  adj : Int
  adjEnd : Nat
  avg : Int
  theta : Int
  reroutes : Nat
  lastRr : Int
  turned : Bool
  /-- Records received since the last comparison of R237, and trim pixels to update (R482). -/
  recs : Nat
  throttle : Nat
  throttleAt : Nat
  throttleOnce : Bool
  /-- When the last keep-alive read left (R223). -/
  keepAt : Nat
  /-- MODE_NOW as last reported: the worker is in marked mode (R326). -/
  marked : Bool
  /-- Pixels masked and tiles powered down by the manager itself, and the last trim update cycle (R82, R366, R482). -/
  autoMask : List Nat
  autoPg : List Nat
  trimAt : Option Nat
  deriving DecidableEq, Repr

/-- A slot nothing is known of. -/
def SlotX.init : SlotX :=
  ⟨0, 0, 0, 0, none, 0, 0, false, false, false, none, none, 0, 0, 0, 0, 0, 0, 0, 0, 0, false, 0, 255, 0, false, 0, false, [], [], none⟩

/-- A segment of the hop table (R264): the round trip in 1/16 LSB, discards in a row, and the last sample. -/
structure Hop where
  valid : Bool
  stale : Bool
  rt16 : Int
  discards : Nat
  lastAt : Nat
  first : Nat
  deriving DecidableEq, Repr

/-- A segment never measured. -/
def Hop.init : Hop := ⟨false, false, 0, 0, 0, 0⟩

/-! ## Meridian -/

/-- An entry of the transmit timestamp queue (R250): identifier, time in SUBNS LSBs since the epoch, and the MCK cycle
of its push. -/
structure TxTs where
  id : Nat
  time : Nat
  when : Nat
  deriving DecidableEq, Repr

/-- Meridian (R240 to R255): its time is 1,600 SUBNS per MCK cycle plus an offset. -/
structure Mer where
  /-- Meridian time minus 1,600 × tick, in SUBNS LSBs: an MCK cycle is exactly 1,600 (R241), so only a step changes it. -/
  ofs : Int
  /-- The phase correction still to be slewed, and the fraction of an LSB slewed so far in 10⁻⁸ LSB. -/
  slew : Int
  acc : Nat
  srcValid : Bool
  goodRun : Nat
  badRun : Nat
  /-- The error bound at entry to reckoning and the tick of entry (R246). -/
  boundAt : Nat
  reckFrom : Nat
  lastFix : Nat
  /-- The last PPS_IN edge, and the offsets of the latest edges in a row outside the window that lie within 100 ns of each
  other, newest first (R252). -/
  ppsLast : Nat
  spurs : List Int
  /-- The last servo update of the PTP firmware (R249). -/
  ptpLast : Nat
  txts : List TxTs
  /-- Peer beacons: send sequence, when the last one came, consecutive misses and sequence breaks (R253). -/
  peerSeq : Nat
  peerSent : Nat
  peerLast : Nat
  peerMiss : Nat
  peerBreaks : Nat
  /-- The peer path: probe tag, count of its slot, delay measured on PEER0 and PEER1 (R269). -/
  peerTag : Nat
  peerKtx : Option Nat
  peerDelay0 : Option Int
  peerDelay1 : Option Int
  /-- The periodic beacon waits for the first slot after a Meridian unit fail-over gap (R258). -/
  beaconSlot : Nat
  gapEnd : Nat
  hops : AMap Hop
  /-- Peer blocks this manager acts on, in order of arrival (R521). -/
  peerIn : List Block
  /-- Frequency corrections of the last 64 s, newest first (R246), while not in reckoning. -/
  freqHist : List (Nat × Int)
  deriving DecidableEq, Repr

/-- The result of the last access of the register bridge (R9, R16, R18): the value read, and whether it was a bus
error or an access denied. -/
structure BusRes where
  data : Word
  err : Bool
  denied : Bool
  deriving DecidableEq, Repr

/-- Meridian at power-up: lost, counting from 0 (R244). -/
def Mer.init : Mer :=
  ⟨0, 0, 0, false, 0, 0, 0, 0, 0, 0, [], 0, [], 0, 0, 0, 0, 0, 0, none, none, none, 0, 0, [], [], []⟩

/-- An empty Logbook. -/
def LogState.init : LogState := ⟨0, [], [], [], [], [], 0, 0, 0, 0, [], 0, 0, 0, [], 0⟩

end Sys2Proof
end

