-- ==== Sys2Proof/Machine/MgtTypes.lean ====
section
/-!
DEFINITION. Machine/MgtTypes.lean: the non-volatile memory (R370, R459, R463 to R465, R486), Helm (R467 to R474), the
management port (R478, R490), and the manager's supplies, resets and pins (R494 to R500, R510).
-/
namespace Sys2Proof

/-- A Chart slot (R370, R379): 0 EMPTY, 1 VALID, 2 BAD; the Chart held, and the result of the last verification. -/
structure ChartSlot where
  state : Nat
  image : Image
  lreason : Nat
  deriving DecidableEq, Repr

def ChartSlot.init : ChartSlot := ⟨0, [], 0⟩

/-- A firmware slot (R463, R490): 0 EMPTY, 1 VALID, 2 BAD. -/
structure FwSlot where
  state : Nat
  image : Image
  deriving DecidableEq, Repr

def FwSlot.init : FwSlot := ⟨0, []⟩

/-- An entry of the key table (R459, R460): ROLE of its certificate, fingerprint, issuer, public key, NOT_AFTER and
command counter. -/
structure KeyEnt where
  role : Nat
  fp : Nat
  issuer : Nat
  pub : List Byte
  notAfter : Nat
  count : Nat
  deriving DecidableEq, Repr

/-- What the device tables held when the memory failed (R486): key table and counters, remap entries and retirements,
operating time and power-cycle count. -/
structure NvmCopy where
  keys : List KeyEnt
  rootCount : Nat
  mems : AMap MemX
  optime : Nat
  pcyc : Nat
  deriving DecidableEq, Repr

/-- The non-volatile memory beside Logbook and trim set, and the fuses that firmware and re-keying burn (R459 to R465). -/
structure Nvm where
  charts : AMap ChartSlot
  primary : Option Nat
  fallback : Option Nat
  fws : AMap FwSlot
  /-- The firmware slot last committed. -/
  lastFw : Nat
  keys : List KeyEnt
  /-- Command counter of the maker root key. -/
  rootCount : Nat
  /-- Maker root slots revoked, 0 to 4, and generations of the device identity key (R462). -/
  rootIx : Nat
  idGen : Nat
  fwFloor : Nat
  /-- Since the memory failed, entries are held in SRAM only; this is what it held then. -/
  atFail : Option NvmCopy
  deriving DecidableEq, Repr

def Nvm.init : Nvm := ⟨[], none, none, [], 0, [], 0, 0, 0, 0, none⟩

/-- A Helm request that has passed the checks and waits (R468, R473): ROLE of its key, or 0 when unsigned, and the
address and port it came from. -/
structure HelmReq where
  op : Nat
  reqId : Nat
  role : Nat
  fp : Nat
  count : Nat
  body : List Byte
  ip : Nat
  port : Nat
  deriving DecidableEq, Repr

/-- The network configuration NET writes (R470). -/
structure NetCfg where
  mac : Nat
  ip4 : Nat
  prefix4 : Nat
  ip6 : Nat
  prefix6 : Nat
  gw : Nat
  deriving DecidableEq, Repr

/-- A datagram sent: destination address and port, and its bytes. -/
structure Dgram where
  ip : Nat
  port : Nat
  bytes : List Byte
  deriving DecidableEq, Repr

/-- Helm and the management port: waiting requests, staging buffers (R371, R470), network configuration, datagrams sent,
oldest first, received frames with their trailers and frames sent (R478), the maker diagnostic mode, and the digest and
the security version of the running firmware (R466). -/
structure Mgt where
  queue : List HelmReq
  stgChart : List Byte
  stgTrim : List Byte
  stgFw : List Byte
  net : NetCfg
  out : List Dgram
  rx : List (List Byte)
  tx : List (List Byte)
  diag : Nat
  fwDigest : List Byte
  deriving DecidableEq, Repr

def Mgt.init : Mgt := ⟨[], [], [], [], ⟨0, 0, 0, 0, 0, 0⟩, [], [], [], 0, []⟩

/-- Supplies, resets and pins: held in power-on reset; RESET_N honoured and low since a tick, treated as failed and
ignored, high since a tick while ignored; the straps (R500); rails below their brown-out threshold by number; die
temperature events armed (R510); and what the manager verifies hourly (R376). -/
structure Pwr where
  por : Bool
  resetN : Bool
  lowSince : Option Nat
  ignored : Bool
  highSince : Option Nat
  stuckPol : Bool
  bootSel : Nat
  brown : List Nat
  hot115 : Bool
  hot125 : Bool
  tap : Bool
  /-- No Chart activation has succeeded since reset: BUSY_OUT_N low, MARK_OUT and PPS_OUT low, REF_OUT stopped (R496). -/
  cold : Bool
  digestAt : Nat
  /-- A consistency check runs since a tick (R377). -/
  checkAt : Option Nat
  deriving DecidableEq, Repr

def Pwr.init : Pwr := ⟨false, false, none, false, none, false, 0, [], false, false, false, true, 0, none⟩

end Sys2Proof
end

