-- ==== Sys2Proof/Machine/RoseTypes.lean ====
section
/-!
DEFINITION. Machine/RoseTypes.lean: the state of the ingress queues (R274 to R295), of Rose (R286 to R303), of Wake and
its windows and watches (R309 to R336), and of egress (R337 to R346).
-/
namespace Sys2Proof

/-! ## Queues -/

/-- What a bucket list or a late list holds (R279, R285). -/
inductive QElem
  | hit (mr : Bool) (c : Nat) (bits : BitVec 60)
  | sight (c : Nat) (tiles : BitVec 64)
  | status (st : ItemStatus) (epoch n cmin cmax : Nat)
  deriving DecidableEq, Repr

/-- A logical queue (R278 to R288). The readers of classes 2 to 4 take an item as soon as it is complete. -/
structure LQueue where
  buckets : AMap (List QElem)
  late : List QElem
  s : Nat
  absent : Bool
  flushing : Bool
  qfull : Nat
  oversize : Nat
  lateCnt : Nat
  future : Nat
  /-- Queue rate state: 0 Open, 1 Slowed, 2 Stopped (R291), and the share rate (R292). -/
  rateSt : Nat
  share : Nat
  deriving DecidableEq, Repr

def LQueue.init : LQueue := ⟨[], [], 0, false, false, 0, 0, 0, 0, 0, 255⟩

/-- The item a port's write stage has open (R280). -/
structure OpenItem where
  slot : Nat
  kind : Nat
  epoch : Nat
  len : Nat
  got : Nat
  /-- Records kept, with the least and greatest C among them (R285). -/
  n : Nat
  cmin : Nat
  cmax : Nat
  /-- Its blocks are dropped from here on. -/
  drop : Bool
  /-- Refused at PKT_START: nothing of it is kept (R236, R282). -/
  refused : Bool
  /-- It closes as TRUNC whatever framing says (R283). -/
  trunc : Bool
  /-- A flush discards it at its end (R294). -/
  flushed : Bool
  lastAt : Nat
  pay : List Block
  deriving DecidableEq, Repr

/-- The ingress queues (R274 to R295). -/
structure Que where
  /-- Dual-clock queues: 32 blocks and the one the receiver holds. -/
  dcq : AMap (List RxItem)
  lq : AMap LQueue
  items : AMap (Option OpenItem)
  /-- Reference count of each slot: the full COUNT of its last time reference (R144). -/
  ref : AMap Nat
  /-- The sum of GUAR over all queues, and cells retired (R278, R397). -/
  guar : Nat
  retired : Nat
  /-- Data blocks of the present share interval, by port and by slot (R292). -/
  occ : AMap Nat
  slotOcc : AMap Nat
  shareFrom : AMap Nat
  /-- The pool's BUSY source, and when each pin was driven low (R293). -/
  poolBusy : Bool
  pin0 : Option Nat
  pin1 : Option Nat
  /-- The word captured by a read of table word 4 (R306). -/
  sLow : Nat
  deriving DecidableEq, Repr

def Que.init : Que := ⟨[], [], [], [], 0, 0, [], [], [], false, none, none, 0⟩

/-! ## Rose -/

/-- An element between engines, and to Wake (R297, R299). -/
inductive OutElem
  | hit (slot : Nat) (mr late : Bool) (c : Nat) (bits : BitVec 60)
  | sight (slot : Nat) (late : Bool) (c : Nat) (tiles : BitVec 64)
  | status (slot : Nat) (st : ItemStatus) (epoch n cmin cmax : Nat)
  | bend (bucket n late absent : Nat)
  deriving DecidableEq, Repr

/-- A merge engine (R296, R298): its place in a tree, the bucket and input it is at, whether it has left that input's late
list for the bucket list (R289), the element its parent has not yet accepted, and its counts for the bucket end. -/
structure Eng where
  used : Bool
  group : Nat
  level : Nat
  parent : Nat
  inputs : List Nat
  bucket : Nat
  input : Nat
  inList : Bool
  out : Option OutElem
  n : Nat
  late : Nat
  absent : Nat
  emits : Nat
  deriving DecidableEq, Repr

def Eng.init : Eng := ⟨false, 0, 0, 0xFF, [], 0, 0, false, none, 0, 0, 0, 0⟩

/-- A merge group (R287, R296, R307). -/
structure Group where
  valid : Bool
  marked : Bool
  orderLog : Nat
  root : Nat
  streams : Nat
  settle : Nat
  absentTo : Nat
  quietLag : Nat
  /-- The close pointer, and whether Rose runs the group up to a stop point (R290). -/
  close : Nat
  running : Bool
  stopAt : Option Nat
  recs : Nat
  rate : Nat
  glate : Nat
  migLate : Nat
  migCnt : Nat
  moves : List Nat
  deriving DecidableEq, Repr

def Group.init : Group := ⟨false, false, 0, 0, 0, 0, 0, 0, 0, false, none, 0, 0, 0, 0, 0, []⟩

/-- A stream on its way from one engine to another (R299). -/
structure Mig where
  q : Nat
  src : Nat
  dst : Nat
  group : Nat
  /-- The common parent at which old-path elements are awaited or discarded. -/
  parent : Nat
  /-- The first bucket the new engine reads. -/
  bucket : Nat
  since : Nat
  /-- MIG_TO has expired: the new engine no longer waits for the internal EPOCH_END. -/
  expired : Bool
  /-- The stream's internal placement epoch. -/
  epoch : Nat
  deriving DecidableEq, Repr

/-- A rule's own counts (R302, R308). -/
structure RuleSt where
  lastMark : Option Nat
  fires : Nat
  held : Nat
  deriving DecidableEq, Repr

/-- Rose (R286 to R304). -/
structure Rose where
  engs : AMap Eng
  groups : AMap Group
  mig : Option Mig
  epochs : AMap Nat
  /-- Contributions to tile-set counts, by set: arrival cycle and tiles (R301). -/
  counts : AMap (List (Nat × Nat))
  rules : AMap RuleSt
  /-- Sightings whose valid toggle has not been sampled: port and block (R304). -/
  sights : List (Nat × Block)
  /-- MARK_OUT lines: when the pulse of each ends (R303). -/
  mout0 : Option Nat
  mout1 : Option Nat
  mout2 : Option Nat
  mout3 : Option Nat
  rateFrom : Nat
  closeLow : Nat
  /-- Table words found uncorrectable and not yet reloaded, by TBL and INDEX (R388). -/
  off : List (Nat × Nat)
  deriving DecidableEq, Repr

def Rose.init : Rose := ⟨[], [], none, [], [], [], [], none, none, none, none, 0, 0, []⟩

/-! ## Wake -/

/-- A stored element (R314), with a record's full count. A run's records are listed one by one; the packing into RUN
elements follows from their order (R317). -/
inductive WElem
  | hit (slot : Nat) (mr late : Bool) (c : Nat) (bits : BitVec 60)
  | far (slot : Nat) (mr : Bool) (c : Nat) (bits : BitVec 60)
  | sight (slot : Nat) (late : Bool) (c : Nat) (tiles : BitVec 64)
  | status (slot : Nat) (st : ItemStatus) (epoch n cmin cmax : Nat)
  | bend (bucket n late absent : Nat)
  | gap (lo hi : Nat)
  deriving DecidableEq, Repr

/-- An element with the bucket in whose emission it is stored. -/
structure WEnt where
  bucket : Nat
  el : WElem
  deriving DecidableEq, Repr

/-- A page of Wake with its time index entry (R310, R319, R320). -/
structure WPage where
  valid : Bool
  open_ : Bool
  cont : Bool
  bad : Bool
  group : Nat
  orderLog : Nat
  next : Nat
  first : Nat
  last : Nat
  age : Nat
  /-- Bits written from the start of the page, the waypoint table among them, and records in the run last written. -/
  bits : Nat
  run : Nat
  ents : List WEnt
  /-- Bit positions of the page found uncorrectable (R330). -/
  poison : List Nat
  deriving DecidableEq, Repr

def WPage.init : WPage := ⟨false, false, false, false, 0, 0, 0xFFFF, 0, 0, 0, 4096, 0, [], []⟩

/-- A mark (R303, R322): its sender, reference count with the remainder in SUBNS, PRE and POST in 100 ns, and groups. -/
structure Mark where
  rule : Option Nat
  ref : Nat
  pre : Nat
  post : Nat
  groups : Nat
  deriving DecidableEq, Repr

/-- A worker mark sent for a window (R326, R328): MARK_ID, slot, when it was sent; answered, missed or timed out. -/
structure WkMark where
  id : Nat
  slot : Nat
  sent : Nat
  done : Bool
  deriving DecidableEq, Repr

/-- The state of a window (R327). -/
inductive WinSt
  | waiting | extracting | done
  deriving DecidableEq, Repr

/-- A window of the mark queue (R327 to R330). -/
structure Window where
  group : Nat
  lo : Nat
  hi : Nat
  st : WinSt
  partial_ : Bool
  marks : Nat
  outst : List WkMark
  serial : Nat
  /-- When it became ready, and the close pointer then (R329). -/
  ready : Option (Nat × Nat)
  /-- Meridian STATE when the window was made. -/
  mstate : Nat
  deriving DecidableEq, Repr

/-- A watch (R331 to R335). -/
structure Watch where
  lo : Nat
  hi : Nat
  serial : Nat
  short : Bool
  lateSeen : Bool
  /-- Meridian STATE at the watch's start. -/
  mstate : Nat
  deriving DecidableEq, Repr

/-- The watch builder of a group (R334). -/
structure WatchSt where
  cur : Option Watch
  span : Nat
  shortened : Bool
  lastLate : Bool
  /-- Watches ended and not yet closed, and closed watches not yet emitted. -/
  open_ : List Watch
  closed : List Watch
  /-- A new SPAN waits for the next boundary of both grids (R331). -/
  newSpan : Option Nat
  deriving DecidableEq, Repr

def WatchSt.init : WatchSt := ⟨none, 0, false, false, [], [], none⟩

/-- Wake (R309 to R336). -/
structure Wake where
  pages : AMap WPage
  /-- The pages of each group, oldest first; the last one is its open page. -/
  chain : AMap (List Nat)
  ages : Nat
  /-- By group, the bucket after the last one a recycled page of the group held. -/
  lostTo : AMap Nat
  /-- Windows made ready so far. -/
  readySeq : Nat
  windows : AMap (Option Window)
  lastDone : AMap (Option (Nat × Nat))
  winSerial : AMap Nat
  markId : Nat
  /-- MARK_RESULT trailers that have reached class 3 and the extractor has not seen: slot and payload. -/
  trailers : List (Nat × Block)
  /-- The last accepted edge of each MARK_IN pin. -/
  lastIn : AMap (Option Nat)
  watch : AMap WatchSt
  /-- Payload bits accepted by the pool and bits written, in the present second (R318). -/
  inBits : Nat
  outBits : Nat
  facFrom : Nat
  /-- Memory stacks no page is allocated from: retraining or taken out (R412). -/
  noAlloc : List Nat
  deriving DecidableEq, Repr

def Wake.init : Wake := ⟨[], [], 0, [], 0, [], [], [], 0, [], [], [], 0, 0, 0, []⟩

/-! ## Egress -/

/-- The frame types (R339). -/
inductive FType
  | watch | mark | monitor | log
  deriving DecidableEq, Repr

/-- An object being sent (R339 to R341): a watch or a window with the place in Wake its reader has reached, or the bytes
of a MONITOR or LOGBOOK_EXPORT frame. -/
structure EObj where
  ftype : FType
  group : Nat
  orderLog : Nat
  serial : Nat
  dest : Nat
  /-- The first and the last cycle. -/
  lo : Nat
  hi : Nat
  mstate : Nat
  marks : Nat
  short : Bool
  late : Bool
  partial_ : Bool
  lost : Bool
  seg : Nat
  /-- The bucket after the last one read. -/
  upTo : Nat
  /-- The page being read, its age when it was pinned, the next element on it, and the bucket reached (R321, R329). -/
  page : Option Nat
  age : Nat
  ix : Nat
  bk : Nat
  /-- After moves of the window's end: the places reached before, by age and element, and the end then (R327). -/
  seen : List (Nat × Nat × Nat)
  nrec : Nat
  nlate : Nat
  nsight : Nat
  nabs : Nat
  bytes : List Byte
  /-- The mark queue entry of a window. -/
  entry : Nat
  deriving DecidableEq, Repr

/-- A frame handed to a lane and not yet confirmed (R343). -/
structure Frame where
  lane : Nat
  seq : Nat
  ftype : FType
  dest : Nat
  hdr : List Byte
  pay : List Byte
  pages : List Nat
  phys : Nat
  sentAt : Nat
  deriving DecidableEq, Repr

/-- A logical lane (R341, R345). -/
structure Lane where
  seq : Nat
  objs : List EObj
  /-- The group served last, by type, for the round robin. -/
  rrWatch : Nat
  rrMark : Nat
  unconf : List Frame
  resend : List Frame
  deriving DecidableEq, Repr

def Lane.init : Lane := ⟨0, [], 31, 31, [], []⟩

/-- Egress (R337 to R346). -/
structure Egr where
  lanes : AMap Lane
  /-- By physical lane and priority: paused until, since, and whether PFC_LONG was raised (R342). -/
  pause : AMap (Option (Nat × Nat × Bool))
  /-- When a failed lane last came up free of faults (R346). -/
  upSince : AMap Nat
  /-- The last frame on the wire of each physical lane. -/
  wire : AMap (List Byte)
  monSerial : Nat
  logSerial : Nat
  monAt : Nat
  /-- Where the destinations of a logical lane go after R346. -/
  moved : AMap (Option Nat)
  deriving DecidableEq, Repr

def Egr.init : Egr := ⟨[], [], [], [], 0, 0, 0, []⟩

end Sys2Proof
end

