-- ==== Sys2Proof/Machine/WorkerTypes.lean ====
section
/-!
DEFINITION. Machine/WorkerTypes.lean: the state of one worker, AW16K: its registers, pixels, tiles, tables, queues,
marks, time frame, command memory and ports.
-/
namespace Sys2Proof

/-- A 60-bit hit record (R120). -/
abbrev Rec := BitVec 60

/-- A record with T div 800 in 48 bits, by which its age is judged (R120, R139). -/
structure Hit where
  bits : Rec
  cnt : Nat
  deriving DecidableEq, Repr

/-- Test charge that a step has put on a pixel (R76 to R79, R88): between `lo` and `hi` in 1/3,200 aC; when, at which
phase step; whether the ramp of R77 takes it back; and whether it has made its leading edge. -/
structure Deposit where
  lo : Nat
  hi : Nat
  when : Nat
  ph : Nat
  ramp : Bool
  spent : Bool
  deriving DecidableEq, Repr

/-- A pulse from its leading edge to the end of its dead time (R73, R101, R103, R124). `centre` is the bin centre of
the bank active at the leading edge (R111). -/
structure Pulse where
  c : Nat
  p : Nat
  v : Nat
  centre : Nat
  range : Nat
  dt : Option Nat
  ovr : Bool
  /-- ToT has reached 4,095 (R124). -/
  sat : Bool
  /-- The record has been formed. -/
  formed : Bool
  /-- The pulse enters no record: it was lost to leakage saturation (R60), or began with EN = 0 (R166). -/
  silent : Bool
  /-- A pulser hit: no analog pulse and no ToT (R107). -/
  pulser : Bool
  deriving DecidableEq, Repr

/-- A pixel (R60, R67 to R69, R87, R124). -/
structure Pixel where
  low : Bool
  pulse : Option Pulse
  /-- The dead time ends at this time, once the low discriminator has fallen. -/
  deadEnd : Option Nat
  /-- The low discriminator was high when a dead time ended: the pixel arms when it falls (R124). -/
  unarmed : Bool
  range : Nat
  down : Nat
  relaxFrom : Nat
  relaxWait : Bool
  settleEnd : Option Nat
  leakSat : Bool
  /-- The configuration word in the latch (R87). -/
  latch : Word
  /-- The last injecting step (R76). -/
  inj : Option Deposit
  deriving DecidableEq, Repr

/-- A pixel after reset: idle, in G0, with the reset configuration (masked). -/
def Pixel.init : Pixel := ⟨false, none, none, false, 0, 0, 0, false, none, false, wkrReset 0x1000, none⟩

/-- The power state of a tile's front ends (R83, R85). -/
inductive TilePower
  | off
  | settling (due : Nat)
  | on
  | closing
  deriving DecidableEq, Repr

/-- A ring entry (R145, R149): the record, its sent bit, when it was written and its number in the ring's order. -/
structure RingEnt where
  hit : Hit
  sent : Bool
  t0 : Nat
  ix : Nat
  deriving DecidableEq, Repr

/-- An entry of a tile FIFO: the record and when it was written (R135, R137). -/
structure FifoEnt where
  hit : Hit
  t0 : Nat
  deriving DecidableEq, Repr

/-- A tile (R135, R145, R153, R83, R89, R110, R111). -/
structure Tile where
  fifo : List FifoEnt
  ring : List RingEnt
  nextIx : Nat
  /-- OVW_T: the largest T div 800 among the records overwritten (R145). -/
  ovwT : Option Nat
  /-- When the validation events of the window came (R153). -/
  events : List Nat
  power : TilePower
  /-- POL as applied at the last power-up (R89). -/
  polNow : Bool
  /-- The active bin-table bank (R111). -/
  bank : Bool
  /-- Consecutive rejected tables (R110). -/
  rej : Nat
  /-- An uncorrectable bin word was found: the next table is accepted without the CAL_DMAX check (R127). -/
  noDmax : Bool
  /-- The words of TILE_THR and TILE_AFE that later writes have replaced, with when (R88). -/
  thrWas : List (Word × Nat)
  afeWas : List (Word × Nat)
  deriving DecidableEq, Repr

/-- A tile after reset: powered down (R97). -/
def Tile.init : Tile := ⟨[], [], 0, none, [], .off, false, false, 0, false, [], []⟩

/-- An entry of the chip output queue (R135, R149): the record, or none for the slot of a reserved record that was
overwritten; whether it was copied for a mark; and when it entered. -/
structure OqEnt where
  hit : Option Hit
  mark : Bool
  t0 : Nat
  deriving DecidableEq, Repr

/-- A mark in the worker (R146): its window and the port it came on. -/
structure WMark where
  id : Nat
  start : Nat
  len : Nat
  west : Bool
  deriving DecidableEq, Repr

/-- The mark being served (R149 to R151). `toCopy` lists the reserved entries not yet copied as (tile, entry number),
in copying order; `left` counts the reserved records that no part has carried yet. -/
structure Serving where
  mark : WMark
  part : Nat
  toCopy : List (Nat × Nat)
  left : Nat
  partialTiles : BitVec 64
  scanned : Bool
  deriving DecidableEq, Repr

/-- A result of one trailer waiting to be sent (R152, R524). -/
structure Trailer where
  id : Nat
  part : Nat
  status : Nat
  west : Bool
  deriving DecidableEq, Repr

/-- An own packet in progress (R140): the port it leaves on, kind, LEN, data blocks sent, running CRC, the number of
records still to carry, the fixed data blocks (monitor words), the trailer it ends with, and the records carried so far. -/
structure OwnPkt where
  west : Bool
  kind : Nat
  len : Nat
  sent : Nat
  crc : Nat
  recsLeft : Nat
  recsSent : Nat
  words : List Block
  trailer : Option Trailer
  serves : Bool
  epoch : Nat
  deriving DecidableEq, Repr

/-- A forwarded packet in progress at the worker's output (R157, R194): its sender and the data blocks forwarded. -/
structure FwdPkt where
  pos : Nat
  sent : Nat
  deriving DecidableEq, Repr

/-- A tile that has sighted and waits for a sighting block (R154): when its validation event came, and the low 40 bits
of the coarse count then. -/
structure SightEnt where
  tile : Nat
  when : Nat
  stamp : Nat
  deriving DecidableEq, Repr

/-- A REPLY or echo that waits for its slot, and the port its command came on (R211, R220). -/
structure Answer where
  blk : Block
  west : Bool
  deriving DecidableEq, Repr

/-- What the old serving port still has to complete after a turn, beside its own packet (R225). -/
structure OldSide where
  west : Bool
  epoch : Nat
  blocks : List Block
  fwd : Option FwdPkt
  deriving DecidableEq, Repr

/-- The uplink of a worker (R142, R143, R154, R157 to R160, R163). -/
structure WOut where
  oq : List OqEnt
  lastTile : Nat
  /-- When the arbiter last moved a record, and when a mark's record was last copied: one of each in a cycle (R135,
  R149). -/
  movedAt : Option Nat
  copiedAt : Option Nat
  pairReady : Bool
  /-- The packets in progress, at most one on a port (R140, R220). -/
  pkts : List OwnPkt
  /-- Throttle credit, in 1/256 of a block (R159). -/
  credit : Int
  slip : List Block
  /-- Blocks of the slip buffer that a further turn has left to this port, to be sent before all else (R225). -/
  first : Nat
  /-- The forwarded block that arrived for this slot, if any. -/
  arriving : Option Block
  fwd : Option FwdPkt
  sights : List SightEnt
  /-- A pending time reference: its highest REASON (R143). -/
  timeRef : Option Nat
  /-- A time reference that a worker that serves both ports still owes to this port, true for west (R220). -/
  owed : Option (Bool × Nat)
  replies : List Answer
  monitor : Bool
  /-- When the last time reference left. -/
  lastRef : Nat
  /-- The serving segment was out of service: a time reference precedes the next record (R143, R226). -/
  wasOut : Bool
  deriving DecidableEq, Repr

/-- The marks of a worker (R148 to R152, R524). -/
structure WMarks where
  queue : List WMark
  serving : Option Serving
  trailers : List Trailer
  deriving DecidableEq, Repr

/-- The time frame of a worker (R257, R259, R260): `frame` is its time minus 800 × the tick count, in fine LSBs. -/
structure WTime where
  frame : Int
  expect : Int
  slew : Int
  valid : Bool
  slewFrom : Nat
  lastBeacon : Nat
  missRaised : Bool
  deriving DecidableEq, Repr

/-- An executed command (R215). -/
structure CmdRec where
  seq : Nat
  wr : Bool
  addr : Nat
  data : Nat
  reply : Block
  deriving DecidableEq, Repr

/-- Control of a worker (R209, R215, R223, R225, R233, R235, R499). -/
structure WCtl where
  powered : Bool
  inReset : Bool
  /-- The port that gives WCK: none before a receiver has locked; true is west (R209). -/
  clock : Option Bool
  epoch : Nat
  old : Option OldSide
  cmds : List CmdRec
  passes : Nat
  /-- The last downstream control block other than IDLE on the serving port (R223). -/
  lastDown : Nat
  monFrom : Nat
  /-- CAL_IN level (R78). -/
  calIn : Bool
  /-- A single-worker loop serves both ports (R220). -/
  both : Bool
  /-- When the east and the west receiver first reached LOCKED since reset (R209). -/
  lockEast : Option Nat
  lockWest : Option Nat
  /-- The port of the enumeration command: in a loop of one worker the one that faces 2n (R212, R220, log entry 116). -/
  home : Bool
  deriving DecidableEq, Repr

/-- The code-density unit and the injection strobe (R107, R108, R112 to R114, R127). -/
structure WCal where
  /-- Hits collected of the tile under calibration. -/
  hits : Nat
  hist : AMap Nat
  /-- The pixel of the tile that the next pulser edge goes to (R107). -/
  px : Nat
  /-- The tiles of the round whose turn has come: tile `turn` is next in turn (R112). -/
  turn : Nat
  /-- The pass under way is that of the tile in turn, not of a tile with an uncorrectable word (R127). -/
  inTurn : Bool
  /-- Tiles in which an uncorrectable word of the active bank was found, to be visited next (R127). -/
  urgent : List Nat
  /-- The foreground pass has visited its 64 tiles (R112). -/
  fgDone : Bool
  /-- A strobe burst runs, with the contents of TC_INJ it was started with. -/
  burst : Option (Nat × Nat × Nat)
  /-- When the strobe last fired, or TC_INJ was last written: a strobe comes in a later cycle (R113, R114). -/
  strobeAt : Option Nat
  deriving DecidableEq, Repr

/-- A protected word of a worker: a pixel word, a bin word by its key, or an offset (R90, R126). -/
inductive WordId
  | pixel (a : Nat)
  | bin (k : Nat)
  | ofs (a : Nat)
  deriving DecidableEq, Repr

/-- The scrubs of a worker (R90, R92, R126): the next word of each memory, when each scrub was last due, and the words
that have been written in the cycle `wroteAt`. -/
structure WScrub where
  pix : Nat
  pixAt : Nat
  bin : Nat
  ofs : Nat
  tabAt : Nat
  wroteAt : Nat
  wrote : List WordId
  deriving DecidableEq, Repr

/-- The tables of a worker (R126): bin centres of both banks by bank, tile and bin; offsets; walk entries; and the
words found uncorrectable and not written since (R127). -/
structure WTables where
  bins : AMap Nat
  ofs : AMap Nat
  walk : AMap Word
  badBins : AMap Bool
  badOfs : AMap Bool
  deriving DecidableEq, Repr

/-- One worker. -/
structure Worker where
  regs : RegFile
  pixels : AMap Pixel
  tiles : AMap Tile
  tab : WTables
  cal : WCal
  scrub : WScrub
  out : WOut
  marks : WMarks
  time : WTime
  ctl : WCtl
  east : Port
  west : Port
  /-- The W1C bits of the worker's registers that hardware has set in the present cycle (R15). -/
  hot : AMap Word
  deriving DecidableEq, Repr

/-- The unwritten contents of a bin word: the nominal centre 4b + 2 (R128). -/
def binDefault (k : Nat) : Nat := 4 * (k % 1024) + 2

/-- A worker after its power-on reset: tables nominal, tiles powered down, pixels masked, frame at count 0. -/
def Worker.init : Worker where
  regs := []
  pixels := []
  tiles := []
  tab := ⟨[], [], [], [], []⟩
  cal := ⟨0, [], 0, 0, true, [], false, none, none⟩
  scrub := ⟨0, 0, 0, 0, 0, 0, []⟩
  out := ⟨[], 63, none, none, false, [], 65536, [], 0, none, none, [], none, none, [], false, 0, false⟩
  marks := ⟨[], none, []⟩
  time := ⟨0, 0, 0, false, 0, 0, false⟩
  ctl := ⟨true, false, none, 0, none, [], 0, 0, 0, false, false, none, none, false⟩
  east := Port.init
  west := Port.init
  hot := []

end Sys2Proof
end

