-- ==== Sys2Proof/Machine/WorkerOps.lean ====
section
/-!
DEFINITION. Machine/WorkerOps.lean: the named reads and writes of a worker's state that every worker family uses:
register fields, flags, pixels, tiles, the time frame, the serving and far ports.
-/
namespace Sys2Proof

/-- A register field of a worker. -/
def Worker.g (w : Worker) (f : Fld) : Nat := RegFile.get wkrReset w.regs f

/-- A one-bit register field of a worker. -/
def Worker.b (w : Worker) (f : Fld) : Bool := w.g f ≠ 0

/-- Set a register field of a worker. -/
def Worker.s (w : Worker) (f : Fld) (n : Nat) : Worker := { w with regs := RegFile.set wkrReset w.regs f n }

/-- Advance a saturating counter field. -/
def Worker.sat (w : Worker) (f : Fld) : Worker := { w with regs := RegFile.sat wkrReset w.regs f 1 }

/-- Advance a wrapping counter field. -/
def Worker.wrap (w : Worker) (f : Fld) : Worker := { w with regs := RegFile.wrap wkrReset w.regs f 1 }

/-- A whole register word of a worker, as stored. -/
def Worker.word (w : Worker) (a : Nat) : Word := AMap.get wkrReset w.regs a

/-- Set a whole register word. -/
def Worker.setWord (w : Worker) (a : Nat) (v : Word) : Worker := { w with regs := AMap.set wkrReset w.regs a v }

/-- Hardware sets a W1C bit: a write that clears it in the same cycle leaves it set (R15). -/
def Worker.w1c (w : Worker) (f : Fld) : Worker :=
  { w.s f 1 with hot := AMap.upd (always 0) w.hot f.reg (fun m => m ||| BitVec.ofNat 32 f.mask) }

/-- Hardware sets a worker flag; a rise that WK_FLAG_EN enables makes a monitor report pending (R163). -/
def Worker.raise (w : Worker) (f : Fld) : Worker :=
  let w1 := w.w1c f
  if w.b f then w1
  else
    if bitOf (w.g F.WK_FLAG_EN_FLAG_EN) f.lo then { w1 with out := { w1.out with monitor := true } } else w1

/-- A counter field follows a highest level (the HWM fields). -/
def Worker.high (w : Worker) (f : Fld) (n : Nat) : Worker := if w.g f < n then w.s f n else w

/-- A pixel. -/
def Worker.px (w : Worker) (a : Nat) : Pixel := AMap.get (always Pixel.init) w.pixels a

/-- Set a pixel. -/
def Worker.setPx (w : Worker) (a : Nat) (p : Pixel) : Worker :=
  { w with pixels := AMap.set (always Pixel.init) w.pixels a p }

/-- A tile. -/
def Worker.tile (w : Worker) (t : Nat) : Tile := AMap.get (always Tile.init) w.tiles t

/-- Set a tile. -/
def Worker.setTile (w : Worker) (t : Nat) (x : Tile) : Worker :=
  { w with tiles := AMap.set (always Tile.init) w.tiles t x }

/-- The tile of a pixel address: t = 8 × A[13:11] + A[6:4] (R58). -/
def tileOf (a : Nat) : Nat := 8 * bitsOf a 13 11 + bitsOf a 6 4

/-- The 256 pixel addresses of a tile (R58). -/
def tilePixels (t : Nat) : List Nat :=
  (List.range 16).flatMap (fun r => (List.range 16).map (fun c => (16 * (t / 8) + r) * 128 + 16 * (t % 8) + c))

/-- The configuration word of a pixel, as stored (R49). -/
def Worker.cfg (w : Worker) (a : Nat) : Word := w.word (0x1000 + a)

/-- A configuration word masks its pixel: MASK, MASK_AUTO or ECC_ERR (R82, R91). -/
def cfgMasked (v : Word) : Bool :=
  F.PIX_MASK.of v = 1 ∨ F.PIX_MASK_AUTO.of v = 1 ∨ F.PIX_ECC_ERR.of v = 1

/-- The lowest range of a configuration word in automatic mode; 0b11 is treated as 0b10. -/
def cfgFloor (v : Word) : Nat := min 2 (F.PIX_RANGE_FLOOR.of v)

/-- Automatic ranging (R66). -/
def cfgAuto (v : Word) : Bool := F.PIX_RANGE_MODE.of v = 0

/-- The range a pixel starts in: RANGE_FLOOR, or its fixed range (R66, R85). -/
def cfgStart (v : Word) : Nat := if cfgAuto v then cfgFloor v else F.PIX_RANGE_MODE.of v - 1

/-- The worker's frame time in fine LSBs, on the circle of the 48-bit counter (R99, R257). -/
def Worker.now (w : Worker) (tick : Nat) : Nat := ((800 * (tick : Int) + w.time.frame) % (800 * 2 ^ 48 : Nat)).toNat

/-- The worker's coarse count (R99). -/
def Worker.coarse (w : Worker) (tick : Nat) : Nat := w.now tick / 800

/-- RUNNING (R165). -/
def Worker.running (w : Worker) : Bool := w.b F.WK_GSTAT_RUNNING

/-- The mode in force is marked (R146). -/
def Worker.marked (w : Worker) : Bool := w.b F.WK_GSTAT_MODE_NOW

/-- The serving port: true is west (R219). -/
def Worker.near (w : Worker) : Bool := w.b F.WK_POS_NEAR

/-- The loop position (R208). -/
def Worker.pos (w : Worker) : Nat := w.g F.WK_POS_POS

/-- A port of the worker by side. -/
def Worker.port (w : Worker) (west : Bool) : Port := if west then w.west else w.east

/-- Set a port of the worker. -/
def Worker.setPort (w : Worker) (west : Bool) (p : Port) : Worker :=
  if west then { w with west := p } else { w with east := p }

/-- Change a port of the worker. -/
def Worker.modPort (w : Worker) (west : Bool) (f : Port → Port) : Worker := w.setPort west (f (w.port west))

/-- A link register field of a port; `wk` says whether the port is a worker's. -/
def Port.g (p : Port) (wk : Bool) (f : Fld) : Nat := RegFile.get (linkReset wk) p.regs f

/-- Set a link register field. -/
def Port.s (p : Port) (wk : Bool) (f : Fld) (n : Nat) : Port := { p with regs := RegFile.set (linkReset wk) p.regs f n }

/-- Advance a saturating link counter (R207). -/
def Port.sat (p : Port) (wk : Bool) (f : Fld) (n : Nat := 1) : Port :=
  { p with regs := RegFile.sat (linkReset wk) p.regs f n }

/-- A link register word as stored. -/
def Port.word (p : Port) (wk : Bool) (i : Nat) : Word := AMap.get (linkReset wk) p.regs i

/-- Set a link register word. -/
def Port.setWord (p : Port) (wk : Bool) (i : Nat) (v : Word) : Port :=
  { p with regs := AMap.set (linkReset wk) p.regs i v }

/-- The segment is in service: own RX_ST and FAR_ST are both IN (R183). -/
def Port.segUp (p : Port) (wk : Bool) : Bool := p.g wk F.LNK_STAT_RX_ST = 3 ∧ p.g wk F.LNK_STAT_FAR_ST = 3

end Sys2Proof
end

