-- ==== Sys2Proof/Machine/Charge.lean ====
section
/-!
DEFINITION. Machine/Charge.lean: charge at a pixel of a worker: ranges (R62, R65), thresholds (R71, R72), test charge (R76
to R79), and what settles after a change (R88). Charge is counted in units of 1/3,200 aC, in which every code of the
threshold and calibration DACs and every microvolt at CAL_IN is a whole number.
-/
namespace Sys2Proof

/-! ## Ranges -/

/-- A range (R62): full scale in fC and in electrons, gain in mV/fC, ToT slope in ps/fC. -/
structure RangeRow where
  fullFc : Nat
  fullElectrons : Nat
  gain : Nat
  totSlope : Nat
  deriving DecidableEq, Repr

/-- The ranges G0, G1 and G2 (R62). -/
def rangeRow (r : Nat) : RangeRow :=
  match r with
  | 0 => ⟨4, 24966, 200, 50000⟩
  | 1 => ⟨40, 249660, 20, 5000⟩
  | _ => ⟨400, 2496600, 2, 500⟩

/-- One femtocoulomb in the unit of charge. -/
def femto : Nat := 3200000

/-- Q_FS of a range (R62). -/
def rangeFull (r : Nat) : Nat := (rangeRow r).fullFc * femto

/-- The peak output of a charge in a range, in 1/3,200 µV (R62, R63). -/
def peakOut (r q : Nat) : Nat := (rangeRow r).gain * q

/-- The ToT that the slope of R62 gives a charge, in codes of R103: a code is 100,000/1,024 ps. -/
def slopeTot (r q : Nat) : Nat := (rangeRow r).totSlope * q * 1024 / (femto * 100000)

/-- The peak of a charge lies over Q_FS whatever the tolerance of 5 % does (R65). -/
def surelyOver (r q : Nat) : Bool := decide (105 * peakOut r (rangeFull r) ≤ 100 * peakOut r q)

/-! ## Thresholds -/

/-- A threshold code with its trim as input charge (R71): a quarter of a DAC LSB is Q_FS/4,096. -/
def thrCharge (r code trim : Nat) : Int := (4 * (code : Int) + trim - 32) * (rangeFull r / 4096 : Nat)

/-- The effective high threshold code: THR_HI, or THR_LO + 8 if that is larger (R72). -/
def thrHiEff (v : Word) : Nat := max (F.TILE_THR_THR_HI.of v) (F.TILE_THR_THR_LO.of v + 8)

/-- q_lo under a TILE_THR word and a pixel word, in a range (R71). -/
def qLow (r : Nat) (thr pix : Word) : Int := thrCharge r (F.TILE_THR_THR_LO.of thr) (F.PIX_TRIM_LO.of pix)

/-- q_hi likewise (R71, R72). -/
def qHigh (r : Nat) (thr pix : Word) : Int := thrCharge r (thrHiEff thr) (F.PIX_TRIM_HI.of pix)

/-- The settling time of R88: 1 µs. -/
def settleTicks : Nat := 640

/-- A word that a write has replaced joins those that still settle (R88). -/
def keepWas (l : List (Word × Nat)) (old : Word) (tick : Nat) : List (Word × Nat) :=
  (l ++ [(old, tick)]).filter (fun e => decide (tick < e.2 + settleTicks))

/-- The word in force and those it replaced within the settling time (R88). -/
def stillWas (now : Word) (l : List (Word × Nat)) (tick : Nat) : List Word :=
  now :: (l.filter (fun e => decide (tick < e.2 + settleTicks))).map (·.1)

/-- The least of some thresholds. -/
def leastOf (l : List Int) : Int := l.foldl min (l.headD 0)

/-- The least low threshold that a pixel can have now: its threshold lies between those of the settling words (R71,
R88). -/
def Worker.lowThr (w : Worker) (tick a r : Nat) : Int :=
  let t := tileOf a
  leastOf ((stillWas (w.word (0x300 + 4 * t)) (w.tile t).thrWas tick).map (fun v => qLow r v (w.px a).latch))

/-- The least high threshold that a pixel can have now (R71, R72, R88). -/
def Worker.highThr (w : Worker) (tick a r : Nat) : Int :=
  let t := tileOf a
  leastOf ((stillWas (w.word (0x300 + 4 * t)) (w.tile t).thrWas tick).map (fun v => qHigh r v (w.px a).latch))

/-! ## Test charge -/

/-- C_inj × 1 µV by INJ_CAP: 5, 50 or 500 fF, or no injection (R76). -/
def capCharge (v : Word) : Nat :=
  match F.TILE_AFE_INJ_CAP.of v with
  | 0 => 16
  | 1 => 160
  | 2 => 1600
  | _ => 0

/-- Q_inj at the strobe under a TILE_AFE word: C_inj × CAL_DAC × 195.3125 µV with INJ_SRC = 0 (R76, R77). -/
def strobeCharge (v : Word) : Nat :=
  if F.TILE_AFE_INJ_SRC.of v = 0 then capCharge v * F.TILE_AFE_CAL_DAC.of v * 3125 / 16 else 0

/-- Q_inj at a falling edge of CAL_IN of `amp` µV, with INJ_SRC = 1 (R76, R78). -/
def edgeCharge (amp : Nat) (v : Word) : Nat := if F.TILE_AFE_INJ_SRC.of v = 1 then capCharge v * amp else 0

/-- A step reaches a pixel: only one with INJ_EN receives it (R79). Its charge lies between those of the settling words of
TILE_AFE (R88). -/
def Worker.stepAt (w : Worker) (tick ph : Nat) (ramp : Bool) (charge : Word → Nat) (a : Nat) : Worker :=
  let x := w.px a
  let t := tileOf a
  let qs := (stillWas (w.word (0x301 + 4 * t)) (w.tile t).afeWas tick).map charge
  let lo := qs.foldl min (qs.headD 0)
  let hi := qs.foldl max 0
  if F.PIX_INJ_EN.of x.latch = 0 ∨ hi = 0 then w
  else w.setPx a { x with inj := some ⟨lo, hi, tick, ph, ramp, false⟩ }

/-- The injecting step of a strobe or of CAL_IN (R76 to R79). A pixel that nothing has configured has INJ_EN = 0. -/
def Worker.injectStep (w : Worker) (tick ph : Nat) (ramp : Bool) (charge : Word → Nat) : Worker :=
  (w.pixels.map (·.1)).foldl (fun w a => w.stepAt tick ph ramp charge a) w

/-- A rising edge of CAL_IN takes its step back (R78). -/
def Worker.unstepAt (w : Worker) (a : Nat) : Worker :=
  let x := w.px a
  match x.inj with
  | some d => if d.ramp ∨ F.TILE_AFE_INJ_SRC.of (w.word (0x301 + 4 * tileOf a)) = 0 then w else w.setPx a { x with inj := none }
  | none => w

/-- An edge on CAL_IN of `amp` µV: the falling edge injects, the rising edge takes the charge back (R78). -/
def Worker.calInEdge (w : Worker) (tick : Nat) (level : Bool) (amp : Nat) : Worker :=
  let w1 := { w with ctl := { w.ctl with calIn := level } }
  if level = w.ctl.calIn then w
  else if level then (w.pixels.map (·.1)).foldl Worker.unstepAt w1
  else w1.injectStep tick 0 false (edgeCharge amp)

/-! ## Signals -/

/-- The charge of a signal at a pixel, as the least and the greatest it can be; none if it lifts no output: charge of the
polarity the tile does not collect (R59), or test charge that is not there at phase step `p` of this cycle (R77, R78).
A crossing that the analog part has found needs no charge. -/
def Worker.signalAt (w : Worker) (tick a p : Nat) (g : Signal) : Option (Nat × Option Nat) :=
  match g with
  | .crossing => some (0, none)
  | .charge q hole => if hole = (w.tile (tileOf a)).polNow then some (q, some q) else none
  | .injected =>
    match (w.px a).inj with
    | some d =>
      if (d.when = tick ∧ p < d.ph) ∨ (d.ramp ∧ d.when + 1280 < tick) then none else some (d.lo, some d.hi)
    | none => none

/-- A signal can cross a threshold (R70, R73). -/
def reaches (hi : Option Nat) (thr : Int) : Bool :=
  match hi with
  | some q => decide (thr ≤ (q : Int))
  | none => true

end Sys2Proof
end

