-- ==== Sys2Proof/Machine/Pixel.lean ====
section
/-!
DEFINITION. Machine/Pixel.lean: pulses of the pixels of one worker: tables and corrections (R104 to R123), tile FIFOs and
rings (R135 to R145), edges, ranges and dead time (R59 to R75, R101 to R125), sightings (R153, R154) and tile power (R83
to R89).
-/
namespace Sys2Proof

/-! ## Tables -/

/-- The key of a bin word: bank, tile and bin (R126). -/
def binKey (bank : Bool) (t b : Nat) : Nat := bank.toNat * 65536 + t * 1024 + b

/-- The bin centre a hit uses: the active bank, or the nominal centre for an uncorrectable word (R104, R127). -/
def Worker.centre (w : Worker) (t b : Nat) : Nat :=
  let k := binKey (w.tile t).bank t b
  if AMap.get (always false) w.tab.badBins k then 4 * b + 2 else AMap.get binDefault w.tab.bins k

/-- The offset of a pixel, in fine LSBs (R115). -/
def Worker.offset (w : Worker) (a : Nat) : Int := signedOf 14 (AMap.get (always 0) w.tab.ofs a)

/-- A walk entry (R117). -/
def Worker.walkEnt (w : Worker) (r i : Nat) : Word := AMap.get (always 0) w.tab.walk (64 * r + i)

/-- WALK of an entry, two's complement (R117). -/
def walkWalk (v : Word) : Int := signedOf 14 (bitsOf v.toNat 31 18)
/-- DT_NOM of an entry (R117). -/
def walkDt (v : Word) : Int := (bitsOf v.toNat 17 10 : Nat)
/-- K of an entry, two's complement (R117). -/
def walkK (v : Word) : Int := signedOf 8 (bitsOf v.toNat 9 2)

/-- The walk table index of a ToT (R116). -/
def walkIdx (tot : Nat) : Nat :=
  if tot < 32 then tot / 4 else 8 * (log2Floor tot - 4) + tot / 2 ^ (log2Floor tot - 3) % 8

/-- The lowest ToT of an entry (R116). -/
def walkLower (i : Nat) : Nat := if i < 8 then 4 * i else (8 + i % 8) * 2 ^ (4 + i / 8 - 3)

/-- The width of an entry in ToT codes (R116). -/
def walkWidth (i : Nat) : Nat := if i < 8 then 4 else 2 ^ (4 + i / 8 - 3)

/-- The walk in quarter fine LSBs (R118); integer division rounds toward minus infinity. -/
def Worker.walk4 (w : Worker) (r tot dt : Nat) : Int :=
  let i := walkIdx tot
  let e := w.walkEnt r i
  let w0 := 4 * walkWalk e
  let w1 := if i < 63 then
      w0 + Int.fdiv (4 * (walkWalk (w.walkEnt r (i + 1)) - walkWalk e) * ((tot : Int) - walkLower i)) (walkWidth i)
    else w0
  if w.b F.TC_CTL_SLOPE_EN then w1 + Int.fdiv (walkK e * ((dt : Int) - walkDt e) * 25) 8 else w1

/-- The corrected time T of a hit in fine LSBs, from its count, centre, offset and walk (R104). -/
def correctedTime (c : Nat) (c4 o w4 : Int) : Nat :=
  let s := 3200 * (c : Int) + c4 - 4 * o - w4
  (Int.fdiv (s + 2) 4 % (800 * 2 ^ 48 : Nat)).toNat

/-- The 60-bit hit record (R120), with T div 800 in 48 bits. -/
def mkHit (type a t tot range : Nat) : Hit :=
  ⟨BitVec.ofNat 60 (at_ 59 58 type + at_ 57 44 a + at_ 43 24 (t / 800) + at_ 23 14 (t % 800) + at_ 13 2 tot + at_ 1 0 range), t / 800⟩

/-- COARSE of a record (R120). -/
def recCoarse (r : Rec) : Nat := bitsOf r.toNat 43 24
/-- ADDR of a record (R120). -/
def recAddr (r : Rec) : Nat := bitsOf r.toNat 57 44
/-- TYPE of a record (R120). -/
def recType (r : Rec) : Nat := bitsOf r.toNat 59 58
/-- FINE of a record (R120). -/
def recFine (r : Rec) : Nat := bitsOf r.toNat 23 14

/-- A 20-bit COARSE extended against a reference count (R122). -/
def extendCoarse (ref coarse : Nat) : Int := (ref : Int) - (((ref : Int) - coarse) % (2 ^ 20 : Nat))

/-! ## Tile FIFO and ring -/

/-- The forward distance on the 48-bit circle. -/
def dist48 (a b : Nat) : Nat := (b + 2 ^ 48 - a % 2 ^ 48) % 2 ^ 48

/-- The later of two counts on the 48-bit circle. -/
def later48 (a b : Nat) : Nat := if dist48 a b < 2 ^ 47 then b else a

/-- Change the uplink. -/
def Worker.modOut (w : Worker) (f : WOut → WOut) : Worker := { w with out := f w.out }

/-- An entry joins the output queue; OQ_HWM follows, and OQ_FULL is raised when the queue becomes full (R138). A new
streaming record has not waited yet (R142). -/
def Worker.oqPush (w : Worker) (e : OqEnt) : Worker :=
  let n := w.out.oq.length + 1
  let w1 := (w.modOut (fun o => { o with oq := o.oq ++ [e], pairReady := o.pairReady && e.mark })).high F.WK_OQ_OQ_HWM n
  if n = 4096 then w1.raise F.WK_FLAGS_OQ_FULL else w1

/-- A tile FIFO has a record that can be popped: one that was not stored in this very cycle (R137). -/
def Tile.ready (x : Tile) (tick : Nat) : Bool :=
  match x.fifo with
  | e :: _ => decide (e.t0 < tick)
  | [] => false

/-- The next tile with a record, starting after tile `last` (R135). -/
def Worker.nextFifo (w : Worker) (tick last : Nat) : Option Nat :=
  ((List.range 64).map (fun i => (last + 1 + i) % 64)).find? (fun t => (w.tile t).ready tick)

/-- The arbiter moves one record a cycle, round-robin, into the output queue when it has room (R135, R137, R138). -/
def Worker.arbiter (w : Worker) (tick : Nat) : Worker :=
  if 4096 ≤ w.out.oq.length ∨ w.out.movedAt = some tick then w
  else
    match w.nextFifo tick w.out.lastTile with
    | none => w
    | some t =>
      let x := w.tile t
      match x.fifo with
      | [] => w
      | e :: rest =>
        ((w.setTile t { x with fifo := rest }).oqPush ⟨some e.hit, false, tick⟩).modOut
          (fun o => { o with lastTile := t, movedAt := some tick })

/-- One reserved record a cycle is copied into the output queue when it has room; one that was overwritten leaves an empty
slot (R149). -/
def Worker.markCopy (w : Worker) (tick : Nat) : Worker :=
  match w.marks.serving with
  | some sv =>
    match sv.toCopy with
    | (t, ix) :: rest =>
      if 4096 ≤ w.out.oq.length ∨ w.out.copiedAt = some tick then w
      else
        let e := (w.tile t).ring.find? (fun e => e.ix == ix)
        let sv1 := { sv with toCopy := rest, partialTiles := if e.isNone then sv.partialTiles ||| (1 <<< t) else sv.partialTiles }
        (({ w with marks := { w.marks with serving := some sv1 } }).oqPush ⟨e.map RingEnt.hit, true, tick⟩).modOut
          (fun o => { o with copiedAt := some tick })
    | [] => w
  | none => w

/-- The oldest record leaves a full ring; OVW_T follows, an early overwrite is counted, and a reserved record that was not
copied is missing from its mark (R145, R149, R151). -/
def Worker.ringOverwrite (w : Worker) (t tick : Nat) (x : Tile) (e : RingEnt) : Worker × Tile :=
  let x1 := { x with ovwT := some (match x.ovwT with
    | some o => later48 o e.hit.cnt
    | none => e.hit.cnt) }
  let w1 := match w.marks.serving with
    | some sv => if sv.toCopy.contains (t, e.ix) then
        { w with marks := { w.marks with serving := some { sv with partialTiles := sv.partialTiles ||| (1 <<< t) } } }
      else w
    | none => w
  if tick < e.t0 + 32768 then
    ((w1.raise F.WK_FLAGS_RING_OVW).sat (F.TILE_STAT_OVF_CNT.ix 4 t), x1)
  else (w1, x1)

/-- The record that a full ring is about to lose is the next to be copied: the copy of this cycle takes it first, so that
a push and a pop that meet lose nothing (R137). -/
def Worker.copyFirst (w : Worker) (t tick : Nat) : Worker :=
  match w.marks.serving, (w.tile t).ring with
  | some sv, e :: _ => if sv.toCopy.head? = some (t, e.ix) ∧ 1024 ≤ (w.tile t).ring.length then w.markCopy tick else w
  | _, _ => w

/-- A record enters the tile ring; a full ring loses its oldest (R145). -/
def Worker.ringWrite (w : Worker) (t tick : Nat) (r : Hit) : Worker :=
  let x := w.tile t
  let ent : RingEnt := ⟨r, false, tick, x.nextIx⟩
  match x.ring with
  | e :: rest =>
    if x.ring.length ≥ 1024 then
      let (w1, x1) := w.ringOverwrite t tick x e
      w1.setTile t { x1 with ring := rest ++ [ent], nextIx := x.nextIx + 1 }
    else w.setTile t { x with ring := x.ring ++ [ent], nextIx := x.nextIx + 1 }
  | [] => w.setTile t { x with ring := [ent], nextIx := x.nextIx + 1 }

/-- Before a record is pushed into a full FIFO the arbiter makes its move of this cycle, so that a push and a pop that
meet lose nothing (R137). -/
def Worker.moveFirst (w : Worker) (t tick : Nat) : Worker := if 256 ≤ (w.tile t).fifo.length then w.arbiter tick else w

/-- A record is written to its tile FIFO, or discarded when it is full (R135, R138); in marked mode it moves on into
the ring, while records of streaming mode wait in the FIFO (R145, R146). -/
def Worker.fifoWrite (w : Worker) (t tick : Nat) (r : Hit) : Worker :=
  let w := w.moveFirst t tick
  let x := w.tile t
  if 256 ≤ x.fifo.length then
    ((w.sat (F.TILE_STAT_OVF_CNT.ix 4 t)).sat F.WK_DROP_FIFO_LOST).raise F.WK_FLAGS_FIFO_OVF
  else
    let hwm := F.TILE_STAT_FIFO_HWM.ix 4 t
    let n := x.fifo.length + 1
    if w.marked then ((w.copyFirst t tick).high hwm n).ringWrite t tick r
    else (w.high hwm n).setTile t { x with fifo := x.fifo ++ [⟨r, tick⟩] }

/-- Time capture forms the record of a pixel and writes it to the tile FIFO; a bad offset word discards the hit, and a worker
in forward-only fallback forms no record (R104, R125, R127, R234). -/
def Worker.formRecord (w : Worker) (tick a type c : Nat) (c4 : Nat) (tot range : Nat) (w4 : Int) : Worker :=
  if w.b F.WK_GSTAT_FWD_ONLY then w
  else if AMap.get (always false) w.tab.badOfs a then w.sat F.TC_ECC_DROP_CNT
  else
    let o := if w.b F.TC_CTL_OFS_EN then w.offset a else 0
    w.fifoWrite (tileOf a) tick (mkHit type a (correctedTime c c4 o w4) tot range)

/-! ## The latch and the range -/

/-- A range step of a pixel: every range change resets the down counter and restarts RELAX (R68). -/
def Pixel.stepTo (x : Pixel) (r tick : Nat) : Pixel :=
  { x with range := r, down := 0, relaxFrom := tick, relaxWait := false }

/-- The pixel is idle: its low discriminator is low and it is not in dead time (R87). -/
def Pixel.idle (p : Pixel) : Bool := !p.low && p.pulse.isNone

/-- The range an idle pixel goes to under a configuration word: the fixed range, or RANGE_FLOOR from below it (R66,
R67). -/
def Pixel.settled (x : Pixel) (v : Word) : Nat := if cfgAuto v then max x.range (cfgFloor v) else cfgStart v

/-- An idle pixel takes the configuration word into its latch, and a range change settles for 16 WCK cycles (R67, R69,
R87). -/
def Pixel.load (x : Pixel) (v : Word) (tick : Nat) : Pixel :=
  let x1 := { x with latch := v }
  let r := x.settled v
  if r = x.range then x1 else { x1.stepTo r tick with settleEnd := some (tick + 16) }

/-- A pixel that is idle rests: its latch loads (R87). -/
def Worker.rest (w : Worker) (tick a : Nat) : Worker :=
  let x := w.px a
  if x.idle then w.setPx a (x.load (w.cfg a) tick) else w

/-- Small pulses before a step down: 1, 2, 4 or 8 (DOWN_N of TILE_AFE). -/
def Worker.downN (w : Worker) (t : Nat) : Nat := 2 ^ w.g (F.TILE_AFE_DOWN_N.ix 4 t)

/-- The RELAX interval in WCK cycles: 512, 2,048, 8,192 or 32,768 (RELAX of TILE_AFE). -/
def Worker.relax (w : Worker) (t : Nat) : Nat := 512 * 4 ^ w.g (F.TILE_AFE_RELAX.ix 4 t)

/-- The range after a dead time in automatic mode, at most one step away: up for an over-range pulse, up from below
RANGE_FLOOR, or down for DOWN_N small pulses or a waiting RELAX (R67, R69). -/
def autoStep (x : Pixel) (v : Word) (ovr : Bool) (downN : Nat) : Nat :=
  if ovr ∧ x.range < 2 then x.range + 1
  else if x.range < cfgFloor v then cfgFloor v
  else if cfgFloor v < x.range ∧ (downN ≤ x.down ∨ x.relaxWait) then x.range - 1
  else x.range

/-! ## Edges and pulses -/

/-- The tile accepts leading edges (R83, R85). -/
def Worker.accepts (w : Worker) (t : Nat) : Bool := (w.tile t).power == .on

/-- The pixel's discriminators are forced low (R75). -/
def Worker.forcedLow (w : Worker) (a : Nat) : Bool :=
  let p := w.px a
  cfgMasked p.latch || p.leakSat || (match (w.tile (tileOf a)).power with | .on | .closing => false | _ => true)

/-- The pulse is still in progress: its low discriminator has not fallen. -/
def Pixel.inPulse (x : Pixel) : Option Pulse :=
  match x.pulse with
  | some pu => if x.low ∧ x.deadEnd = none ∧ !pu.pulser then some pu else none
  | none => none

/-- Test charge that has made its leading edge makes no second one (R73). -/
def Pixel.spend (x : Pixel) (g : Signal) : Pixel :=
  if g = .injected then { x with inj := x.inj.map (fun d => { d with spent := true }) } else x

/-- The low discriminator of a pixel rises (R101, R124, R68, R69). Within a dead time the edge is ignored and counted; in
a tile that is powering down, and while the range settles, it is ignored, and the pixel arms when the discriminator next
falls. -/
def Worker.lowRise (w : Worker) (tick a p v q : Nat) (x : Pixel) : Worker :=
  let t := tileOf a
  let x1 := { x with low := true, relaxFrom := tick }
  if x.pulse.isSome then (w.setPx a x1).wrap F.TC_LOST_LOST
  else if x.settleEnd.isSome ∨ !w.accepts t then w.setPx a { x1 with unarmed := true }
  else
    let b := 50 * p + v
    let pu : Pulse := {
      c := w.coarse tick, p := p, v := v,
      centre := if w.b F.TC_CTL_BIN_EN then w.centre t b else 4 * b + 2,
      range := x.range, dt := none, ovr := surelyOver x.range q, sat := false, formed := false,
      silent := !(w.running && w.b F.TC_STAT_INIT_DONE), pulser := false }
    w.setPx a { x1 with pulse := some pu }

/-- A signal that may raise the low discriminator: charge of the other polarity, and charge below every threshold the
pixel can have now, make no edge (R59, R70, R88). -/
def Worker.leadingEdge (w : Worker) (tick a p v : Nat) (g : Signal) : Worker :=
  let x := w.px a
  if w.forcedLow a ∨ x.low then w
  else
    match w.signalAt tick a p g with
    | none => w
    | some (lo, hi) =>
      if !reaches hi (w.lowThr tick a x.range) ∨ (g = .injected ∧ x.inj.any (·.spent)) then w
      else w.lowRise tick a p v lo (x.spend g)

/-- The count of phase steps since the rise of the low discriminator, at phase step `p` of this cycle (R103). -/
def Worker.steps (w : Worker) (tick p : Nat) (pu : Pulse) : Nat :=
  (16 * w.coarse tick + p + 2 ^ 52 - (16 * pu.c + pu.p)) % 2 ^ 52

/-- The TYPE of the record of a validated pulse (R80, R121). -/
def pulseType (latch : Word) (ovr : Bool) : Nat :=
  if F.PIX_INJ_EN.of latch = 1 then 2 else if ovr then 1 else 0

/-- A pulse whose record is due now: it is formed if the pulse is validated and not silent. -/
def Pulse.due (pu : Pulse) : Pulse := { pu with formed := pu.formed || (pu.dt.isSome && !pu.silent) }

/-- The record of a validated pulse (R125). -/
def Worker.pulseRecord (w : Worker) (tick a tot : Nat) (latch : Word) (pu : Pulse) : Worker :=
  match pu.dt with
  | none => w
  | some dt =>
    if pu.formed ∨ pu.silent then w
    else
      let w4 := if w.b F.TC_CTL_WALK_EN then w.walk4 pu.range tot dt else 0
      w.formRecord tick a (pulseType latch pu.ovr) pu.c pu.centre tot pu.range w4

/-- A pixel whose pulse has ended: the dead time ends 16 cycles later (R124), and the down counter counts a small
pulse (R67, R68). -/
def Pixel.fallen (x : Pixel) (tick tot : Nat) (pu : Pulse) : Pixel :=
  { x with low := false, deadEnd := some (tick + 16), pulse := some pu,
           down := if pu.ovr then 0 else if pu.dt = none then x.down else if tot < 160 then x.down + 1 else 0 }

/-- The low discriminator falls at phase step `p`: ToT is final and the record is formed (R63, R103, R124, R125). `ovr`
says whether the peak has reached Q_FS (R65). A pixel that was not armed is idle now, and its latch loads (R87, R124). -/
def Worker.lowFall (w : Worker) (tick a p : Nat) (ovr : Bool) : Worker :=
  let x := w.px a
  match x.inPulse with
  | none => if x.low then (w.setPx a { x with low := false, unarmed := false }).rest tick a else w
  | some pu =>
    let tot := min 4095 (w.steps tick p pu)
    let pu1 := { pu with ovr := pu.ovr || ovr }
    (w.pulseRecord tick a tot x.latch pu1).setPx a (x.fallen tick tot pu1.due)

/-- ToT reaches 4,095 before the fall: the record of a validated pulse is formed at once (R124). -/
def Worker.totSaturate (w : Worker) (tick a : Nat) (ovr : Bool) : Worker :=
  let x := w.px a
  match x.inPulse with
  | none => w
  | some pu =>
    if w.steps tick 15 pu < 4095 ∨ pu.sat then w
    else
      let pu1 := { pu with ovr := pu.ovr || ovr, sat := true }
      (w.pulseRecord tick a 4095 x.latch pu1).setPx a { x with pulse := some pu1.due }

/-- The dead time of a pixel ends: the latch loads, at most one range step is made, and a pixel below RANGE_FLOOR goes on
to it when it is idle (R67, R69, R87, R124). An edge that came in the dead time was counted then. -/
def Worker.deadTimeEnd (w : Worker) (tick a : Nat) : Worker :=
  let x := w.px a
  match x.pulse, x.deadEnd with
  | some pu, some d =>
    if tick < d then w
    else
      let v := w.cfg a
      let r := if cfgAuto v then autoStep x v pu.ovr (w.downN (tileOf a)) else cfgStart v
      let x0 := { x with pulse := none, deadEnd := none, latch := v, relaxWait := false }
      let x1 := if r = x.range then x0 else x0.stepTo r tick
      let x2 := { x1 with low := x.low && !cfgMasked v, unarmed := x.low && !cfgMasked v }
      (w.setPx a x2).rest tick a
  | _, _ => w

/-- The RELAX interval expires (R67, R69). -/
def Worker.relaxExpiry (w : Worker) (tick a : Nat) : Worker :=
  let x := w.px a
  if cfgAuto x.latch ∧ cfgFloor x.latch < x.range ∧ x.relaxFrom + w.relax (tileOf a) ≤ tick then
    if x.low then w.setPx a { x with relaxWait := true }
    else w.setPx a { x.stepTo (x.range - 1) tick with settleEnd := some (tick + 16) }
  else w

/-- The feedback switch has settled (R69). -/
def Worker.rangeSettleEnd (w : Worker) (tick a : Nat) : Worker :=
  let x := w.px a
  match x.settleEnd with
  | some d => if tick < d then w else w.setPx a { x with settleEnd := none }
  | none => w

/-- The leakage compensator saturates at phase step `p`: both discriminators are forced low, and a pulse in progress is not
recorded and counted as lost once; a record that ToT 4,095 has formed already stays, and its pulse is not counted (log
entry 107). Its dead time and its range step are those of any pulse (R60, R67, R68). -/
def Worker.leakSaturate (w : Worker) (tick a p : Nat) (ovr : Bool) : Worker :=
  let x := w.px a
  let x1 := { x with leakSat := true, low := false, unarmed := false }
  match x.inPulse with
  | some pu =>
    let pu1 := { pu with ovr := pu.ovr || ovr, silent := true }
    let w1 := w.setPx a (x1.fallen tick (min 4095 (w.steps tick p pu)) pu1)
    if pu.formed then w1 else w1.wrap F.TC_LOST_LOST
  | none => (w.setPx a x1).rest tick a

/-- The pixel returns to normal operation and LEAK_SAT clears (R60). -/
def Worker.leakRecover (w : Worker) (a : Nat) : Worker := w.setPx a { w.px a with leakSat := false }

/-! ## Sightings -/

/-- A tile's count in cycle `c`: the validation events of the SW + 1 cycles that end there (R153). -/
def Worker.sightCount (w : Worker) (t c : Nat) : Nat :=
  ((w.tile t).events.filter (fun e => decide (e ≤ c ∧ c ≤ e + w.g (F.TILE_SGT_SW.ix 4 t)))).length

/-- The events that a tile's count can still need in cycle `c` or later: those of its window and of the window of the cycle
before (R153). -/
def Worker.windowEvents (w : Worker) (t c : Nat) : List Nat :=
  (w.tile t).events.filter (fun e => decide (c ≤ e + w.g (F.TILE_SGT_SW.ix 4 t) + 1))

/-- A tile's count in the cycle before `c` (R153). -/
def Worker.sightBefore (w : Worker) (t c : Nat) : Nat :=
  ((w.tile t).events.filter (fun e => decide (e < c ∧ c ≤ e + w.g (F.TILE_SGT_SW.ix 4 t) + 1))).length

/-- A validation event in cycle `c` makes the tile sight: its count was below ST in the cycle before, and reaches ST with
this event (R153). -/
def Worker.sightsNow (w : Worker) (t c : Nat) : Bool :=
  let st := w.g (F.TILE_SGT_ST.ix 4 t)
  decide (w.sightBefore t c < st ∧ st = w.sightCount t c + 1) && w.b F.WK_GCTL_SGT_EN && w.running

/-- A tile sights: SGT_CNT counts it, and it waits for the sighting block (R153, R154). -/
def Worker.tileSights (w : Worker) (tick t : Nat) : Worker :=
  (w.wrap (F.TILE_STAT_SGT_CNT.ix 4 t)).modOut (fun o => { o with sights := o.sights ++ [⟨t, tick, lowBits 40 (w.coarse tick)⟩] })

/-- A validation event enters its tile's count (R153). -/
def Worker.countEvent (w : Worker) (tick t : Nat) : Worker :=
  let w1 := w.setTile t { w.tile t with events := w.windowEvents t tick ++ [tick] }
  if w.sightsNow t tick then w1.tileSights tick t else w1

/-- Validation events leave a tile's window (R153). -/
def Worker.sightExpiry (w : Worker) (tick t : Nat) : Worker := w.setTile t { w.tile t with events := w.windowEvents t tick }

/-- The high discriminator rises at phase step `p` while the low one is high: the pulse is validated (R73, R103, R153).
Charge below every high threshold the pixel can have now validates nothing (R71, R88). A pulse whose ToT has reached 4,095
forms its record now (R124, log entry 108). -/
def Worker.validate (w : Worker) (tick a p : Nat) (g : Signal) : Worker :=
  let x := w.px a
  match x.inPulse, w.signalAt tick a p g with
  | some pu, some (lo, hi) =>
    if pu.dt.isSome ∨ !reaches hi (w.highThr tick a pu.range) then w
    else
      let pu1 := { pu with dt := some (min 255 (w.steps tick p pu)), ovr := pu.ovr || surelyOver pu.range lo }
      let w1 := if pu.sat then w.pulseRecord tick a 4095 x.latch pu1 else w
      (w1.setPx a { x with pulse := some (if pu.sat then pu1.due else pu1) }).countEvent tick (tileOf a)
  | _, _ => w

/-! ## Tile power -/

/-- No pixel of the tile is in a pulse or in dead time (R83). -/
def Worker.tileQuiet (w : Worker) (t : Nat) : Bool :=
  w.pixels.all (fun (a, x) => tileOf a ≠ t || x.pulse.isNone)

/-- PG is set: the tile accepts no new leading edge; a power-up is abandoned (R83, R85). -/
def Worker.powerDown (w : Worker) (t : Nat) : Worker :=
  let w1 := w.s (F.TILE_AFE_PG.ix 4 t) 1
  let x := w1.tile t
  match x.power with
  | .on => w1.setTile t { x with power := .closing }
  | .settling _ => w1.setTile t { x with power := .off }
  | _ => w1

/-- The discriminator of a pixel is forced low with its front end, and the pixel is idle (R75, R87). -/
def Worker.quench (w : Worker) (tick a : Nat) : Worker :=
  let x := w.px a
  if x.low then (w.setPx a { x with low := false, unarmed := false }).rest tick a else w

/-- Every pixel has ended its dead time: the front ends power off and READY clears (R83). -/
def Worker.powerOff (w : Worker) (tick t : Nat) : Worker :=
  let x := w.tile t
  if x.power = .closing ∧ w.tileQuiet t then
    let w1 := (w.setTile t { x with power := .off }).s (F.TILE_AFE_READY.ix 4 t) 0
    (((w.pixels.map (·.1)).filter (fun a => tileOf a == t)).foldl (fun w a => w.quench tick a) w1)
  else w

/-- PG is cleared: a power-down still in progress is cancelled, or the 51.2 µs settle starts, with POL applied
(R85, R89). -/
def Worker.powerUp (w : Worker) (tick t : Nat) : Worker :=
  let w1 := w.s (F.TILE_AFE_PG.ix 4 t) 0
  let x := w1.tile t
  match x.power with
  | .closing => w1.setTile t { x with power := .on }
  | .off => w1.setTile t { x with power := .settling (tick + 32768), polNow := w1.b (F.TILE_AFE_POL.ix 4 t) }
  | _ => w1

/-- A pixel starts in its floor or fixed range (R68, R85). -/
def Pixel.start (x : Pixel) (v : Word) (tick : Nat) : Pixel :=
  let x1 := { x with latch := v }
  if x.range = cfgStart v then x1 else x1.stepTo (cfgStart v) tick

/-- The settle ends: READY sets and each pixel starts in its floor or fixed range (R85). -/
def Worker.settleEnd (w : Worker) (tick t : Nat) : Worker :=
  let x := w.tile t
  match x.power with
  | .settling d =>
    if tick < d then w
    else
      let w1 := (w.setTile t { x with power := .on }).s (F.TILE_AFE_READY.ix 4 t) 1
      (tilePixels t).foldl (fun w a => w.setPx a ((w.px a).start (w.cfg a) tick)) w1
  | _ => w

/-! ## Configuration words and scrub -/

/-- A word of a worker's memories is written in this cycle: a scrub that comes to it in the same cycle skips it (R92, R126,
R162). -/
def Worker.wrote (w : Worker) (tick : Nat) (k : WordId) : Worker :=
  { w with scrub := { w.scrub with wroteAt := tick, wrote := if w.scrub.wroteAt = tick then w.scrub.wrote ++ [k] else [k] } }

/-- The scrub skips a word (R92). -/
def Worker.scrubSkips (w : Worker) (tick : Nat) (k : WordId) : Bool := w.scrub.wroteAt == tick && w.scrub.wrote.contains k

/-- The fields of a pixel word that a write replaces; ECC_ERR clears with the write (R91, R94). -/
def pixWritten (v : Word) : Word := v &&& 0xFFFFE000

/-- A pixel configuration word is written whole (R91, R94); an idle pixel takes it at once (R87). -/
def Worker.writePixel (w : Worker) (tick a : Nat) (v : Word) : Worker :=
  ((w.setWord (0x1000 + a) (pixWritten v)).wrote tick (.pixel a)).rest tick a

/-- A pixel word read back, with RANGE_NOW and LEAK_SAT of the pixel. -/
def Worker.readPixel (w : Worker) (a : Nat) : Word :=
  F.PIX_LEAK_SAT.put (F.PIX_RANGE_NOW.put (w.cfg a) (w.px a).range) (w.px a).leakSat.toNat

/-- An uncorrectable word: the stored bits are those read, ECC_ERR sets, the pixel is forced masked and CFG_UE is raised
(R91). -/
def Worker.cfgUe (w : Worker) (tick a : Nat) (flips : Word) : Worker :=
  (((w.setWord (0x1000 + a) (F.PIX_ECC_ERR.put (pixWritten (w.cfg a ^^^ flips)) 1)).raise F.WK_FLAGS_CFG_UE)).rest tick a

/-- The scrub of the pixel words: one word every 64 cycles of the 40 MHz clock, which are 1,024 of WCK, in turn; a
correctable error is written back corrected (R90 to R92). -/
def Worker.pixelScrub (w : Worker) (tick : Nat) (f : Finding) : Worker :=
  let a := w.scrub.pix
  if tick < w.scrub.pixAt + 1024 then w
  else
    let w1 := { w with scrub := { w.scrub with pix := (a + 1) % 16384, pixAt := tick } }
    if w.scrubSkips tick (.pixel a) then w1
    else match f with
    | .uncorrectable flips => w1.cfgUe tick a flips
    | _ => w1

end Sys2Proof
end

