-- ==== Sys2Proof/Machine/Calib.lean ====
section
/-!
DEFINITION. Machine/Calib.lean: the code-density calibration of a worker (R106 to R112), its tables, their scrub and their
window (R126 to R131), and the injection strobe (R113, R114).
-/
namespace Sys2Proof

/-! ## Calibration -/

/-- N, the pulser hits of a pass: CAL_NLOG above 8 is treated as 8 (R108). -/
def Worker.calN (w : Worker) : Nat := 2 ^ (16 + min 8 (w.g F.TC_CTL_CAL_NLOG))

/-- Start the pass of a tile: the histogram is clear, and the pulser starts with the tile's first pixel. -/
def Worker.calStart (w : Worker) (t : Nat) : Worker :=
  { w.s F.TC_STAT_CAL_TILE t with cal := { w.cal with hits := 0, hist := [], px := 0 } }

/-- The unit's next pass: a tile in which an uncorrectable word was found, or the next tile in turn (R112, R127). After such
a tile the round goes on where it was (log entry 10). -/
def Worker.calNext (w : Worker) : Worker :=
  match w.cal.urgent with
  | u :: rest => ({ w with cal := { w.cal with urgent := rest, inTurn := false } }).calStart u
  | [] =>
    let t := w.cal.turn % 64
    ({ w with cal := { w.cal with turn := t + 1, inTurn := true } }).calStart t

/-- A round starts at tile 0 (R112, R128). -/
def Worker.calRound (w : Worker) : Worker :=
  ({ w with cal := { w.cal with turn := 1, inTurn := true, fgDone := false } }).calStart 0

/-- The unit moves on from its tile (R109, R112). A round is complete when tile 63 has had its turn (log entry 113); a
foreground pass then ends. -/
def Worker.calAdvance (w : Worker) : Worker :=
  if w.cal.inTurn ∧ w.g F.TC_STAT_CAL_TILE = 63 then
    let w1 := w.wrap F.TC_STAT_CAL_PASSES
    if w.b F.TC_STAT_FG_BUSY then { w1.s F.TC_STAT_CAL_BUSY 0 with cal := { w1.cal with fgDone := true } } else w1.calNext
  else w.calNext

/-- The pixel of the tile under calibration that the next pulser edge goes to (R107). -/
def Worker.pulserPixel (w : Worker) : Nat :=
  let t := w.g F.TC_STAT_CAL_TILE
  (16 * (t / 8) + w.cal.px / 16) * 128 + 16 * (t % 8) + w.cal.px % 16

/-- A counter of the histogram counts a hit: 24 bits, which wrap (log entry 109). -/
def histCount (m : AMap Nat) (b : Nat) : AMap Nat := AMap.upd (always 0) m b (fun n => (n + 1) % 2 ^ 24)

/-- A pulser edge comes: it goes to the next of the tile's 256 pixels in turn, and is skipped if that pixel is in a pulse
or in dead time (R107, R121, R124). `bad` says that the counter it would raise has a parity error, which abandons the
tile's pass (R126). -/
def Worker.pulserHit (w : Worker) (tick p v : Nat) (bad : Bool) : Worker :=
  if !w.b F.TC_STAT_CAL_BUSY ∨ w.calN ≤ w.cal.hits then w
  else
    let a := w.pulserPixel
    let t := tileOf a
    let x := w.px a
    let w0 := { w with cal := { w.cal with px := (w.cal.px + 1) % 256 } }
    if !x.idle then w0
    else
      let b := 50 * p + v
      let centre := if w.b F.TC_CTL_BIN_EN then w.centre t b else 4 * b + 2
      let pu : Pulse := ⟨w.coarse tick, p, v, centre, x.range, none, false, false, false, true, true⟩
      let w1 := w0.setPx a { x with pulse := some pu, deadEnd := some (tick + 16) }
      let canHit := !cfgMasked (w.cfg a) && (w.tile t).power == .on && !x.leakSat
      let w2 := if w.b F.TC_CTL_CAL_EMIT ∧ canHit ∧ w.running ∧ w.b F.TC_STAT_INIT_DONE then
          w1.formRecord tick a 2 pu.c centre 0 x.range 0
        else w1
      if bad then w2.calAdvance
      else { w2 with cal := { w2.cal with hits := w2.cal.hits + 1, hist := histCount w2.cal.hist b } }

/-- The new bin centres from the counts, in quarter fine LSBs (R108). -/
def newCentres (n : Nat) : Nat → List Nat → List Nat
  | _, [] => []
  | cum, k :: r => (3200 * (2 * cum + k) + n) / (2 * n) :: newCentres n (cum + k) r

/-- The tables are rejected: a bin too narrow or too wide, or in background a centre moved by more than CAL_DMAX
(R109, R127). -/
def Worker.rejects (w : Worker) (t : Nat) (counts cen : List Nat) : Bool :=
  let n := w.calN
  let valid := bitOf (w.g F.TC_VALID_LO_CAL_VALID + 2 ^ 32 * w.g F.TC_VALID_HI_CAL_VALID) t
  counts.any (fun k => k * 3200 < n || n < k * 200) ||
  (!w.b F.TC_STAT_FG_BUSY && valid && !(w.tile t).noDmax &&
    (cen.zipIdx).any (fun (c, b) =>
      let o := w.centre t b
      w.g F.TC_CAL_LIM_CAL_DMAX < max c o - min c o))

/-- Set or clear the CAL_VALID bit of a tile (R111, R127). -/
def Worker.setValid (w : Worker) (t : Nat) (v : Bool) : Worker :=
  let f := if t < 32 then F.TC_VALID_LO_CAL_VALID else F.TC_VALID_HI_CAL_VALID
  let k := t % 32
  let n := w.g f
  w.s f (if v then Nat.lor n (2 ^ k) else if bitOf n k then Nat.xor n (2 ^ k) else n)

/-- The banks of a tile swap; CAL_VALID sets (R111, R131). -/
def Worker.swapBank (w : Worker) (t : Nat) : Worker :=
  let x := w.tile t
  (w.setTile t { x with bank := !x.bank }).setValid t true

/-- Write one bin word of a bank; a write clears its uncorrectable mark (R127, R130). -/
def Worker.writeBin (w : Worker) (bank : Bool) (t b n : Nat) : Worker :=
  let k := binKey bank t b
  { w with tab := { w.tab with bins := AMap.set binDefault w.tab.bins k (lowBits 12 n),
                               badBins := AMap.set (always false) w.tab.badBins k false } }

/-- The tile has collected N hits: the table is computed and accepted or rejected, and the unit moves on (R108 to R111);
`bad` says that a counter it reads has a parity error, which abandons the pass (R126). The third rejection in a row sets
CAL_BAD (log entry 111); N is that of CAL_NLOG now (log entry 110). -/
def Worker.calComplete (w : Worker) (bad : Bool) : Worker :=
  let t := w.g F.TC_STAT_CAL_TILE
  if !w.b F.TC_STAT_CAL_BUSY ∨ w.cal.hits < w.calN then w
  else if bad then w.calAdvance
  else
    let counts := (List.range 800).map (fun b => AMap.get (always 0) w.cal.hist b)
    let cen := newCentres w.calN 0 counts
    let x := w.tile t
    if w.rejects t counts cen then
      let w1 := (w.sat F.TC_CAL_LIM_REJ_CNT).setTile t { x with rej := x.rej + 1 }
      let w2 := if x.rej + 1 = 3 then
          ((w1.w1c F.TC_STAT_CAL_BAD).s F.TC_STAT_BAD_TILE t).raise F.WK_FLAGS_TC_CAL
        else w1
      w2.calAdvance
    else
      let w1 := (cen.zipIdx).foldl (fun w (c, b) => w.writeBin (!x.bank) t b c) w
      let w2 := { w1.setTile t { w1.tile t with rej := 0, noDmax := false } with cal := { w1.cal with urgent := w1.cal.urgent.erase t } }
      (w2.swapBank t).calAdvance

/-- CAL_FG is written with 1: the pass that was running is abandoned and a foreground pass starts (R112). -/
def Worker.calFg (w : Worker) : Worker :=
  (((w.s F.TC_CTL_CAL_FG 1).s F.TC_STAT_FG_BUSY 1).s F.TC_STAT_CAL_BUSY 1).calRound

/-- CAL_FG clears: background calibration resumes at tile 0 (R112). -/
def Worker.fgClear (w : Worker) : Worker :=
  (((w.s F.TC_CTL_CAL_FG 0).s F.TC_STAT_FG_BUSY 0).s F.TC_STAT_CAL_BUSY (if w.b F.TC_STAT_INIT_DONE then w.g F.TC_CTL_BGCAL_EN else 0)).calRound

/-- The foreground pass ends: hardware clears CAL_FG (R112). -/
def Worker.fgPassEnd (w : Worker) : Worker := if w.b F.TC_STAT_FG_BUSY ∧ w.cal.fgDone then w.fgClear else w

/-- A write to the shadow bank of the tile under calibration abandons the unit's pass on it (R131). -/
def Worker.abandonIf (w : Worker) (t : Nat) : Worker :=
  if w.b F.TC_STAT_CAL_BUSY ∧ w.g F.TC_STAT_CAL_TILE = t then w.calAdvance else w

/-- SWAP_GO: the banks of the tile swap at the next WCK edge; a pass of the unit on that tile is abandoned (R131, and its
step in 95_what_each_step_holds.md; log entry 112). -/
def Worker.swapGo (w : Worker) (t : Nat) : Worker :=
  (((w.s F.TC_SWAP_TILE t).swapBank t).s F.TC_SWAP_SWAP_GO 0).abandonIf t

/-- An uncorrectable table word: TBL_UE, UE_CNT and TC_MEM in every case (R127). -/
def Worker.tableUe (w : Worker) : Worker := ((w.w1c F.TC_STAT_TBL_UE).sat F.TC_ECC_UE_CNT).raise F.WK_FLAGS_TC_MEM

/-- An uncorrectable bin word: in the active bank the nominal centre is used, CAL_VALID clears and the tile is
calibrated next (R127). -/
def Worker.binUe (w : Worker) (bank : Bool) (t b : Nat) (flips : Word) : Worker :=
  let k := binKey bank t b
  let stored := lowBits 12 (Nat.xor (AMap.get binDefault w.tab.bins k) (lowBits 12 flips.toNat))
  let w1 := { w.tableUe with tab := { w.tab with bins := AMap.set binDefault w.tab.bins k stored,
                                                 badBins := AMap.set (always false) w.tab.badBins k true } }
  if (w.tile t).bank = bank then
    let u := w1.cal.urgent
    ({ w1.setTile t { w1.tile t with noDmax := true } with cal := { w1.cal with urgent := if u.contains t then u else u ++ [t] } }).setValid t false
  else w1

/-- An uncorrectable offset word: the pixel's hits are discarded until it is written (R127). -/
def Worker.ofsUe (w : Worker) (a : Nat) (flips : Word) : Worker :=
  let stored := lowBits 14 (Nat.xor (AMap.get (always 0) w.tab.ofs a) (lowBits 14 flips.toNat))
  { w.tableUe with tab := { w.tab with ofs := AMap.set (always 0) w.tab.ofs a stored, badOfs := AMap.set (always false) w.tab.badOfs a true } }

/-- What the check of a bin word finds: a corrected word is counted and written back corrected (R126, R127, R129). -/
def Worker.binFound (w : Worker) (bank : Bool) (t b : Nat) (f : Finding) : Worker :=
  match f with
  | .clean => w
  | .corrected => w.sat F.TC_ECC_CE_CNT
  | .uncorrectable flips => w.binUe bank t b flips

/-- What the check of an offset word finds (R126, R127, R129). -/
def Worker.ofsFound (w : Worker) (a : Nat) (f : Finding) : Worker :=
  match f with
  | .clean => w
  | .corrected => w.sat F.TC_ECC_CE_CNT
  | .uncorrectable flips => w.ofsUe a flips

/-- What the indirect window reads (R130). -/
def Worker.tblRead (w : Worker) : Nat :=
  let i := w.g F.TC_TBL_ADDR_INDEX
  match w.g F.TC_TBL_ADDR_TBL with
  | 0 => if i % 1024 < 800 ∧ i / 1024 < 64 then AMap.get binDefault w.tab.bins (binKey (w.tile (i / 1024)).bank (i / 1024) (i % 1024)) else 0
  | 1 => if i < 192 then (AMap.get (always 0) w.tab.walk i).toNat else 0
  | 2 => if i < 16384 then AMap.get (always 0) w.tab.ofs i else 0
  | _ => if i < 800 then AMap.get (always 0) w.cal.hist i else 0

/-- What a write through the indirect window does (R130, R131). -/
def Worker.tblWrite (w : Worker) (tick : Nat) (v : Word) : Worker :=
  let i := w.g F.TC_TBL_ADDR_INDEX
  match w.g F.TC_TBL_ADDR_TBL with
  | 0 =>
    if i % 1024 < 800 ∧ i / 1024 < 64 then
      let bank := !(w.tile (i / 1024)).bank
      ((w.writeBin bank (i / 1024) (i % 1024) v.toNat).wrote tick (.bin (binKey bank (i / 1024) (i % 1024)))).abandonIf (i / 1024)
    else w
  | 1 => if i < 192 then { w with tab := { w.tab with walk := AMap.set (always 0) w.tab.walk i (v &&& 0xFFFFFFFC) } } else w
  | 2 =>
    if i < 16384 then
      ({ w with tab := { w.tab with ofs := AMap.set (always 0) w.tab.ofs i (lowBits 14 v.toNat),
                                    badOfs := AMap.set (always false) w.tab.badOfs i false } }).wrote tick (.ofs i)
    else w
  | _ => w

/-- INDEX increments after each access under AUTO_INC (R130). -/
def Worker.tblInc (w : Worker) : Worker :=
  if w.b F.TC_TBL_ADDR_AUTO_INC then w.wrap F.TC_TBL_ADDR_INDEX else w

/-- What the check of the word that a read through the window reaches finds; walk entries are voted (R126), and a parity
error of the histogram abandons the pass (R126, R127, R129). -/
def Worker.tblFound (w : Worker) (f : Finding) : Worker :=
  let i := w.g F.TC_TBL_ADDR_INDEX
  match w.g F.TC_TBL_ADDR_TBL with
  | 0 => if i % 1024 < 800 ∧ i / 1024 < 64 then w.binFound (w.tile (i / 1024)).bank (i / 1024) (i % 1024) f else w
  | 1 => w
  | 2 => if i < 16384 then w.ofsFound i f else w
  | _ =>
    match f with
    | .clean => w
    | _ => if i < 800 ∧ w.b F.TC_STAT_CAL_BUSY then w.calAdvance else w

/-- A read of TC_CNT_LO: the count's low word, with the high word captured into TC_CNT_HI (R129). -/
def Worker.cntLoRead (w : Worker) (tick : Nat) : Word × Worker :=
  let c := w.coarse tick
  (BitVec.ofNat 32 c, w.s F.TC_CNT_HI_CNT_HI (c / 2 ^ 32))

/-- The bin word that the scrub comes to: bank, tile and bin of the 102,400 in turn (R126). -/
def binOf (n : Nat) : Bool × Nat × Nat := (decide (51200 ≤ n), n % 51200 / 800, n % 800)

/-- The scrub of the tables: one bin word and one offset word every 64 cycles of the 40 MHz clock, which are 1,024 of
WCK, each memory in turn; a word written in the same cycle is skipped (R126, R127). -/
def Worker.tableScrub (w : Worker) (tick : Nat) (fb fo : Finding) : Worker :=
  if tick < w.scrub.tabAt + 1024 then w
  else
    let (bank, t, b) := binOf w.scrub.bin
    let a := w.scrub.ofs
    let w1 := { w with scrub := { w.scrub with bin := (w.scrub.bin + 1) % 102400, ofs := (a + 1) % 16384, tabAt := tick } }
    let w2 := if w.scrubSkips tick (.bin (binKey bank t b)) then w1 else w1.binFound bank t b fb
    if w.scrubSkips tick (.ofs a) then w2 else w2.ofsFound a fo

/-- The tables are initialised after a reset: INIT_DONE sets and background calibration starts at tile 0 (R128). A
foreground pass that has been asked for goes on (log entry 114). -/
def Worker.tableInitDone (w : Worker) : Worker :=
  if w.b F.TC_STAT_INIT_DONE then w
  else
    let w1 := ({ w with tab := ⟨[], [], [], [], []⟩ }).s F.TC_STAT_INIT_DONE 1
    if w.b F.TC_STAT_FG_BUSY then w1 else (w1.s F.TC_STAT_CAL_BUSY (w.g F.TC_CTL_BGCAL_EN)).calRound

/-! ## Injection -/

/-- A write of TC_INJ: any burst ends, and INJ_GO = 1 starts a new one at the first qualifying cycle after the write
(R114). -/
def Worker.writeInj (w : Worker) (tick : Nat) (v : Word) : Worker :=
  let w1 := w.setWord 0x205 (v &&& 0x8FF0FFFF)
  if F.TC_INJ_INJ_GO.of v = 1 then
    let n := F.TC_INJ_INJ_NUM.of v
    { w1.s F.TC_INJ_LEFT_LEFT (if n = 0 then 0xFFFF else n) with
      cal := { w.cal with burst := some (F.TC_INJ_INJ_PH.of v, min 9 (F.TC_INJ_INJ_PLOG.of v), n), strobeAt := some tick } }
  else { w1.s F.TC_INJ_LEFT_LEFT 0 with cal := { w.cal with burst := none } }

/-- The strobe fires once in a cycle whose count is a multiple of the period, and makes the injecting step of every tile
with INJ_SRC = 0 (R77, R113); a burst of INJ_NUM strobes ends with its last (R114). -/
def Worker.strobe (w : Worker) (tick : Nat) : Worker :=
  match w.cal.burst with
  | none => w
  | some (ph, plog, n) =>
    if w.coarse tick % 2 ^ (11 + plog) ≠ 0 ∨ w.cal.strobeAt = some tick then w
    else
      let w1 := ({ w with cal := { w.cal with strobeAt := some tick } }).injectStep tick ph true strobeCharge
      if n = 0 then w1
      else
        let left := w.g F.TC_INJ_LEFT_LEFT - 1
        let w2 := w1.s F.TC_INJ_LEFT_LEFT left
        if left = 0 then { w2.s F.TC_INJ_INJ_GO 0 with cal := { w2.cal with burst := none } } else w2

end Sys2Proof
end

