-- ==== Sys2Proof/Machine/Link.lean ====
section
/-!
DEFINITION. Machine/Link.lean: one Plom port: lock (R178 to R180), service and rejoin (R182 to R186), acceptance and
framing (R187 to R193, R521), equalisation (R199, R200), test modes (R201 to R204) and the slot it sends in.
-/
namespace Sys2Proof

/-- What a port reports to its device when it happens: the W1C bits that raise worker flags or manager events. -/
inductive PortEv
  | lockLost | noLock | testFail | inService | leftService | eqClamp | pktErr | ctlErr | testOut
  deriving DecidableEq, Repr

/-- The kinds of port (R521). -/
inductive PortKind
  | mgrWorker | mgrPeer (alone : Bool) | wkrServing (pos : Nat) | wkrFar (pos : Nat)
  deriving DecidableEq, Repr

/-- The port belongs to a worker. -/
def PortKind.wk : PortKind → Bool
  | .wkrServing _ | .wkrFar _ => true
  | _ => false

/-- The port tracks packet framing: every manager worker port, and the far side port of a worker (R193). -/
def PortKind.frames : PortKind → Bool
  | .mgrWorker | .wkrFar _ => true
  | _ => false

/-- A kind of port accepts a control block of a type and form (R190, R521). The enumeration command is accepted on
either port of a worker (R210). -/
def PortKind.accepts (k : PortKind) (b : Block) : Bool :=
  b.is .idle ||
  match k with
  | .mgrWorker => b.upstream
  | .mgrPeer alone => !alone && b.peerKind
  | .wkrServing _ => b.downstream
  | .wkrFar pos => b.upstream || (b.downstream && b.pos == pos) || (b.is .cmd && b.pos == 0)

/-- The receiver is LOCKED. -/
def Port.locked (p : Port) : Bool := p.rx.lock == .locked

/-- The test mode a word of LNK_CTL selects: 0b11 is treated as 0b00 (R207). -/
def testMode (v : Word) : Nat := if F.LNK_CTL_TEST.of v = 3 then 0 else F.LNK_CTL_TEST.of v

/-- A test mode or loop-back is set (R204). -/
def Port.inTest (p : Port) (wk : Bool) : Bool :=
  testMode (p.word wk 0) ≠ 0 ∨ p.g wk F.LNK_CTL_LPB_NEAR = 1 ∨ p.g wk F.LNK_CTL_LPB_FAR = 1

/-- Hardware sets a W1C bit of PRT_STAT or LNK_STAT: a write that clears it in the same cycle leaves it set (R15). -/
def Port.w1c (p : Port) (wk : Bool) (f : Fld) : Port :=
  { p.s wk f 1 with hot := p.hot ||| BitVec.ofNat 32 f.mask }

/-- RX_ST is one of the states of R182. -/
def Port.rxSt (p : Port) (wk : Bool) : Nat := p.g wk F.LNK_STAT_RX_ST

/-- Close an open packet at this port: the item is handed on with its status (R193); `told` as in RxItem. -/
def Port.closePkt (p : Port) (wk : Bool) (st : ItemStatus) (told : Bool := false) : Port :=
  match p.rx.framing with
  | .opened o =>
    let p1 := { p with rx := { p.rx with framing := .idle }, inbox := p.inbox ++ [.close o.pos o.kind o.epoch o.got st told] }
    match st with
    | .ok => p1
    | .crcErr => (p1.sat wk F.LNK_PKT_CRC_ERR).w1c wk F.LNK_STAT_PKT_ERR
    | .lenErr => (p1.sat wk F.LNK_PKT_LEN_ERR).w1c wk F.LNK_STAT_PKT_ERR
    | .trunc => (p1.sat wk F.LNK_PKT_TRUNC).w1c wk F.LNK_STAT_PKT_ERR
  | .discarding _ => { p with rx := { p.rx with framing := .idle } }
  | .idle => p

/-- Set RX_ST and keep SEG_UP; a receiver that leaves IN closes its open packet as TRUNC (R182, R183, R193). -/
def Port.setRxSt (p : Port) (wk : Bool) (st : Nat) : Port :=
  let p0 := if p.rxSt wk = 3 ∧ st ≠ 3 then p.closePkt wk .trunc else p
  let p1 := p0.s wk F.LNK_STAT_RX_ST st
  p1.s wk F.LNK_STAT_SEG_UP (p1.segUp wk).toNat

/-- Set FAR_ST and keep SEG_UP (R183); a port that leaves service with it closes its open packet as TRUNC (R193). -/
def Port.setFarSt (p : Port) (wk : Bool) (st : Nat) : Port :=
  let p0 := if p.segUp wk ∧ st ≠ 3 then p.closePkt wk .trunc else p
  let p1 := p0.s wk F.LNK_STAT_FAR_ST st
  p1.s wk F.LNK_STAT_SEG_UP (p1.segUp wk).toNat

/-- The state a locked receiver asks for: OUT while it is held, in a test mode or in a back-off, IN if it has passed
its test and stayed locked, WAIT otherwise (R182, R185, R204, R222). -/
def Port.serviceSt (p : Port) (wk : Bool) : Nat :=
  if !p.locked ∨ p.g wk F.LNK_CTL_SVC_EN = 0 ∨ p.inTest wk ∨ p.rx.backoff.isSome then 0
  else if p.rx.passed then 3 else 1

/-- The test fails: TEST_FAIL, FAIL_RUN and the wait of 2^(FAIL_RUN − 1) ms, at most 1,024 ms (R185). -/
def Port.testFailed (p : Port) (wk : Bool) (tick : Nat) : Port :=
  let p1 := (p.w1c wk F.LNK_STAT_TEST_FAIL).sat wk F.LNK_STAT_FAIL_RUN
  let ms := min 1024 (2 ^ (p1.g wk F.LNK_STAT_FAIL_RUN - 1))
  { p1.setRxSt wk 0 with rx := { p1.rx with test := none, backoff := some (tick + ms * 640000) } }

/-- A run of test blocks that is cut off is a failure: only its last block and an IDLE block end it otherwise (R185). -/
def Port.cutTest (p : Port) (wk : Bool) (tick : Nat) : Port :=
  if p.rxSt wk = 2 then p.testFailed wk tick else p

/-- The current coefficients take their commissioning values if VALID is 1 (R200). -/
def Port.loadComm (p : Port) (wk : Bool) : Port :=
  if p.g wk F.LNK_EQ_COMM_VALID = 1 then p.setWord wk 7 (F.LNK_EQ_VALID.put (p.word wk 8) 0) else p

/-- The receiver enters HUNT (R178, R200). -/
def Port.toHunt (p : Port) (wk : Bool) (tick : Nat) : Port :=
  let p1 := ((p.cutTest wk tick).s wk F.LNK_STAT_LOCKED 0).setRxSt wk 0
  ({ p1 with rx := { p1.rx with lock := .hunt 0, window := [], huntFrom := tick, passed := false, test := none } }).loadComm wk

/-- A lock loss: LOCK_LOST and LOCK_LOSS (R178). -/
def Port.lockLoss (p : Port) (wk : Bool) (tick : Nat) : Port :=
  ((p.sat wk F.LNK_CNT1_LOCK_LOSS).w1c wk F.LNK_STAT_LOCK_LOST).toHunt wk tick

/-- The test passes: IN, and FAIL_RUN clears (R185). -/
def Port.testPassed (p : Port) (wk : Bool) : Port :=
  let p1 := { p with rx := { p.rx with test := none, passed := true } }
  (p1.s wk F.LNK_STAT_FAIL_RUN 0).setRxSt wk 3

/-- One data block of a rejoin test (R185). -/
def Port.testBlock (p : Port) (wk : Bool) (tick : Nat) (t : RejoinTest) (b : Block) : Port :=
  let (err, reg) := prbsCheck true t.prbs (beBits 120 b.pay.toNat)
  let t1 : RejoinTest := ⟨t.got + 1, reg⟩
  if t1.got > 2 ∧ err ≠ 0 then p.testFailed wk tick
  else if t1.got = 80000 then p.testPassed wk
  else { p with rx := { p.rx with test := some t1 } }

/-- A discarded control block counts in CTL_ERR (R187, R188, R190). -/
def Port.ctlErr (p : Port) (wk : Bool) : Port := (p.sat wk F.LNK_CNT1_CTL_ERR).w1c wk F.LNK_STAT_CTL_ERR_F

/-- An orphan block (R193). -/
def Port.orphan (p : Port) (wk : Bool) : Port := p.sat wk F.LNK_CNT1_ORPHAN

/-- Hand a block on to the device. -/
def Port.hand (p : Port) (b : Block) : Port := { p with inbox := p.inbox ++ [.block b] }

/-- Set the framing state. -/
def Port.framed (p : Port) (f : Framing) : Port := { p with rx := { p.rx with framing := f } }

/-- A PKT_START with no packet open (R193): an allowed LEN opens an item; any other is discarded as FRAME. -/
def Port.frameStart (p : Port) (wk : Bool) (b : Block) : Port :=
  let kind := b.f 106 104
  let len := b.f 103 92
  if lenAllowed kind len then
    (p.framed (.opened ⟨b.pos, kind, len, b.f 91 84, 0, 0xFFFFFFFF⟩)).hand b
  else
    ((p.sat wk F.LNK_PKT_FRAME).w1c wk F.LNK_STAT_PKT_ERR).framed (.discarding (if len = 0 then none else some len))

/-- A block that is neither SIGHTING nor IDLE, with no packet open (R193). -/
def Port.frameClosed (p : Port) (wk : Bool) (b : Block) : Port :=
  if b.isData then p.orphan wk
  else if b.is .pktEnd then p.orphan wk
  else if b.is .pktStart then p.frameStart wk b
  else p.hand b

/-- The status a PKT_END gives the open item (R193). -/
def endStatus (o : OpenPkt) (b : Block) : ItemStatus :=
  if b.f 106 106 = 1 then .trunc
  else if b.f 105 94 ≠ o.got then .lenErr
  else if o.got < o.len then .lenErr
  else if b.f 93 62 ≠ Nat.xor o.crc 0xFFFFFFFF then .crcErr
  else .ok

/-- Packet framing of one accepted block (R193). -/
def Port.frame (p : Port) (wk : Bool) (b : Block) : Port :=
  if b.is .sighting ∨ b.is .idle then p.hand b
  else
    match p.rx.framing with
    | .idle => p.frameClosed wk b
    | .opened o =>
      if b.isData then
        if o.got < o.len then (p.framed (.opened { o with got := o.got + 1, crc := crcData o.crc b })).hand b
        else (p.closePkt wk .lenErr).frameClosed wk b
      else if b.is .pktEnd then
        let st := endStatus o b
        if st = .lenErr then p.closePkt wk st else (p.hand b).closePkt wk st true
      else if o.got < o.len then (p.closePkt wk .trunc).frameClosed wk b
      else (p.closePkt wk .lenErr).frameClosed wk b
    | .discarding left =>
      if b.isData then
        match left with
        | none => p
        | some 0 => (p.framed .idle).frameClosed wk b
        | some (n + 1) => p.framed (.discarding (some n))
      else if b.is .pktEnd then p.framed .idle
      else (p.framed .idle).frameClosed wk b

/-- An IDLE block (R183, R189, R185): FAR_ST and the far end's identity; it abandons a test. A test sequence is due when
FAR_ST becomes WAIT, or is WAIT in the first IDLE block since the lock (R184). -/
def Port.idleReceived (p : Port) (wk : Bool) (b : Block) : Port :=
  let far := b.f 111 110
  let due := far = 1 ∧ (p.g wk F.LNK_STAT_FAR_ST ≠ 1 ∨ p.rx.fresh)
  let p1 := { p with farSide := b.f 80 79, farPart := b.f 104 89, farRev := b.f 88 81, farPos := b.pos,
                     rx := { p.rx with fresh := false }, tx := { p.tx with seqDue := p.tx.seqDue || due } }
  let p2 := if p1.rxSt wk = 2 then { p1.setRxSt wk 1 with rx := { p1.rx with test := none } } else p1
  p2.setFarSt wk far

/-- Count a block for the equaliser: consecutive IDLE blocks, and other blocks since the freeze (R199). -/
def Port.eqCount (p : Port) (wk : Bool) (b : Block) : Port :=
  if b.is .idle then { p with rx := { p.rx with idleRun := p.rx.idleRun + 1 } }
  else { p with rx := { p.rx with idleRun := 0, nonIdle := if p.g wk F.LNK_STAT_EQ_FROZEN = 1 then p.rx.nonIdle + 1 else 0 } }

/-- One bit at the PRBS checker (R201): the register takes it; once a full register has been received a bit is judged,
64 error-free bits in a row synchronise the checker, and a mismatch from then on counts. The last two components are
PRBS_SYNC and the mismatches counted. -/
def prbsOne (p31 : Bool) (a : PrbsChk × Bool × Nat) (b : Bool) : PrbsChk × Bool × Nat :=
  let (k, sync, n) := a
  let full := (if p31 then 31 else 7) ≤ k.seen
  let good := (prbsBit p31 k.reg).1 == b
  let k1 : PrbsChk := ⟨(k.reg <<< 1) ||| BitVec.ofNat 31 b.toNat, min 31 (k.seen + 1), if full && good then min 64 (k.clean + 1) else 0⟩
  if sync then (k1, true, n + (!good).toNat) else (k1, decide (64 ≤ k1.clean), n)

/-- The PRBS checker takes received bits; PRBS_ERR starts from 0 when it synchronises (R201, R207). -/
def Port.prbsTake (p : Port) (wk : Bool) (bits : List Bool) : Port :=
  let was := p.g wk F.LNK_PRBS_PRBS_SYNC = 1
  let (k, sync, n) := bits.foldl (prbsOne (p.g wk F.LNK_CTL_PRBS31 = 1)) (p.rx.chk, was, 0)
  let p1 := { p with rx := { p.rx with chk := k } }
  let p2 := if was then p1 else (p1.s wk F.LNK_PRBS_PRBS_SYNC sync.toNat).s wk F.LNK_PRBS_PRBS_ERR (if sync then 0 else p1.g wk F.LNK_PRBS_PRBS_ERR)
  p2.sat wk F.LNK_PRBS_PRBS_ERR n

/-- A good block while LOCKED (R178, R182 to R185, R187 to R193, R521). A control block that fails its check was never
received; any control block other than IDLE fails a test, and one of a type, port or direction not listed counts too. -/
def Port.takeBlock (p : Port) (k : PortKind) (tick : Nat) (b : Block) : Port :=
  let wk := k.wk
  if b.isData then
    let p := p.eqCount wk b
    let p := if testMode (p.word wk 0) = 1 then p.prbsTake wk (beBits 120 b.pay.toNat) else p
    match p.rxSt wk with
    | 1 => (p.setRxSt wk 2).testBlock wk tick ⟨0, 0⟩ b
    | 2 => match p.rx.test with
      | some t => p.testBlock wk tick t b
      | none => p
    | 3 => if k.frames then p.frame wk b else p
    | _ => p
  else if b.type = none ∨ !b.checkOk then (p.ctlErr wk).cutTest wk tick
  else
    let p := p.eqCount wk b
    if b.is .idle then p.idleReceived wk b
    else if !k.accepts b then (p.ctlErr wk).cutTest wk tick
    else if p.rxSt wk = 2 then p.testFailed wk tick
    else if p.rxSt wk ≠ 3 then p
    else if k.frames then p.frame wk b
    else p.hand b

/-- A block at the candidate position is confirmed (R178). -/
def confirmed (p31 : Bool) (b : Block) (stuffErr : Bool) : Bool :=
  b.validHdr && !stuffErr &&
    if b.isCtl then b.type.isSome && b.checkOk
    else
      let bits := beBits 120 b.pay.toNat
      let n := if p31 then 31 else 7
      let seed := (bits.take n).foldl (fun (s : BitVec 31) x => (s <<< 1) ||| BitVec.ofNat 31 x.toNat) 0
      (prbsCheck p31 seed (bits.drop n)).1 == 0

/-- The receiver reaches LOCKED; its service state follows R182. -/
def Port.reachLocked (p : Port) (wk : Bool) : Port :=
  let p1 := { p.s wk F.LNK_STAT_LOCKED 1 with rx := { p.rx with lock := .locked, window := [], fresh := true } }
  p1.setRxSt wk (p1.serviceSt wk)

/-- The candidate moves one bit later, and the hunt starts again (R178); a receiver that enters HUNT from CONFIRM loads
its commissioning values (R200). -/
def Port.nextCandidate (p : Port) (wk : Bool) : Port :=
  let p1 := match p.rx.lock with
    | .confirm _ => p.loadComm wk
    | _ => p
  match p.rx.resid with
  | [] => { p1 with rx := { p1.rx with lock := .hunt 0 } }
  | x :: r => { p1 with rx := { p1.rx with lock := .hunt 0, resid := r, line := p.rx.line.bit x } }

/-- Apply error injection to the line bits of a block (R202). -/
def Port.inject (p : Port) (wk : Bool) (bits : List Bool) : List Bool × Port :=
  let pos := max 2 (p.g wk F.LNK_INJ_INJ_POS)
  let hdr : Bool := p.g wk F.LNK_INJ_INJ_HDR == 1
  let done := p.s wk F.LNK_INJ_INJ_GO 0
  if p.g wk F.LNK_INJ_INJ_GO = 0 then (bits, p)
  else match p.g wk F.LNK_INJ_INJ_KIND with
  | 1 => (invertBits bits pos 1, done)
  | 2 => (invertBits bits pos (min 32 (max 1 (p.g wk F.LNK_INJ_INJ_LEN))), done)
  | 3 =>
    let left := if p.tx.hdrInj = 0 then p.g wk F.LNK_INJ_INJ_LEN else p.tx.hdrInj
    let out := hdr :: hdr :: bits.drop 2
    if left ≤ 1 then (if left = 0 then bits else out, { done with tx := { done.tx with hdrInj := 0 } })
    else (out, { p with tx := { p.tx with hdrInj := left - 1 } })
  | _ => (bits, done)

/-- The line bits of a slot leave the port: injected and with the lane's polarity (R202, R205); with TX_OFF the outputs
are in electrical idle (R207). -/
def Port.emit (p : Port) (wk : Bool) (bits : List Bool) (blk : Option Block) : Port :=
  if p.g wk F.LNK_CTL_TX_OFF = 1 then { p with tx := { p.tx with last := [], lastBlk := none } }
  else
    let (bits1, p1) := p.inject wk bits
    let bits2 := if p.g wk F.LNK_CTL_INV_TX = 1 then bits1.map (!·) else bits1
    { p1 with tx := { p1.tx with last := bits2, lastBlk := blk } }

/-- A block leaves the port in this slot, encoded (R170 to R175). -/
def Port.sendLine (p : Port) (wk : Bool) (b : Block) : Port :=
  let (bits, line) := encodeBlock p.tx.line b
  ({ p with tx := { p.tx with line := line } }).emit wk bits (some b)

/-- A block of the port's own: under LPB_FAR the port sends none (R203). -/
def Port.send (p : Port) (wk : Bool) (b : Block) : Port :=
  if p.g wk F.LNK_CTL_LPB_FAR = 1 then p else p.sendLine wk b

/-- One block time at the candidate position (R178). -/
def Port.oneBlock (p : Port) (k : PortKind) (tick : Nat) : Port :=
  let wk := k.wk
  let (b, err, line) := decodeBlock p.rx.line (p.rx.resid.take 128)
  let p := { p with rx := { p.rx with line := line, resid := p.rx.resid.drop 128 } }
  match p.rx.lock with
  | .hunt c =>
    if !b.validHdr then p.nextCandidate wk
    else { p with rx := { p.rx with lock := if c < 63 then .hunt (c + 1) else .confirm 0 } }
  | .confirm n =>
    if !confirmed (p.g wk F.LNK_CTL_PRBS31 = 1) b err then p.nextCandidate wk
    else if n < 7 then { p with rx := { p.rx with lock := .confirm (n + 1) } }
    else p.reachLocked wk
  | .locked =>
    let bad := !b.validHdr || err
    let p := if p.g wk F.LNK_CTL_LPB_FAR = 1 then p.sendLine wk b else p
    let p1 := { p with rx := { p.rx with window := (bad :: p.rx.window).take 64 } }
    if !bad then p1.takeBlock k tick b
    else
      let p2 := if !b.validHdr then p1.sat wk F.LNK_CNT0_HDR_ERR else p1.sat wk F.LNK_CNT0_STUFF_ERR
      let p3 := p2.cutTest wk tick
      if 24 ≤ (p3.rx.window.filter id).length then p3.lockLoss wk tick else p3

/-- Take whole blocks from the bits received; while hunting one further bit is needed to move the candidate. -/
def Port.drain : Nat → PortKind → Nat → Port → Port
  | 0, _, _, p => p
  | n + 1, k, tick, p =>
    let need := if p.locked then 128 else 129
    if p.rx.resid.length < need then p else Port.drain n k tick (p.oneBlock k tick)

/-- The last bit and the bit times without a transition after more bits, and whether 64 of them passed (R179). -/
def stillRun (a : Bool × Nat × Bool) (b : Bool) : Bool × Nat × Bool :=
  let n := if b = a.1 then a.2.1 + 1 else 1
  (b, n, a.2.2 || decide (64 ≤ n))

/-- The receiver loses its signal (R178, R179). -/
def Port.dropSignal (p : Port) (wk : Bool) (tick : Nat) : Port :=
  let p1 := p.s wk F.LNK_STAT_LOS 1
  let p2 := { p1 with rx := { p1.rx with resid := [], still := 0 } }
  if p.locked then p2.lockLoss wk tick else p2.toHunt wk tick

/-- The 128 line bits of a block time arrive (R178). Under LPB_NEAR the receiver takes its own serialiser's bits (R203);
64 bit times without a transition are a loss of signal (R179); raw PRBS uses no lock (R201), and INV_RX inverts (R205). -/
def Port.receive (p : Port) (k : PortKind) (tick : Nat) (bits : List Bool) : Port :=
  let wk := k.wk
  let near := p.g wk F.LNK_CTL_LPB_NEAR = 1
  if p.los ∧ !near then p
  else
    let src := if near then p.tx.last else bits
    let (x, n, dead) := src.foldl stillRun (p.rx.lastBit, p.rx.still, src.isEmpty)
    if dead then ({ p with los := p.los || !near }).dropSignal wk tick
    else
      let p1 := { p.s wk F.LNK_STAT_LOS 0 with rx := { p.rx with lastBit := x, still := n } }
      let src := if p.g wk F.LNK_CTL_INV_RX = 1 then src.map (!·) else src
      if testMode (p.word wk 0) = 2 then p1.prbsTake wk src
      else Port.drain 3 k tick { p1 with rx := { p1.rx with resid := p1.rx.resid ++ src } }

/-- The received pins lose their signal (R179); under LPB_NEAR the receiver ignores them (R203). -/
def Port.lossOfSignal (p : Port) (wk : Bool) (tick : Nat) : Port :=
  let p1 := { p with los := true }
  if p.g wk F.LNK_CTL_LPB_NEAR = 1 then p1 else p1.dropSignal wk tick

/-- Transitions and amplitude return (R179). -/
def Port.signalReturn (p : Port) (wk : Bool) : Port :=
  let p1 := { p with los := false }
  if p.g wk F.LNK_CTL_LPB_NEAR = 1 then p1 else p1.s wk F.LNK_STAT_LOS 0

/-- 100 µs in HUNT without reaching LOCKED (R180). -/
def Port.noLockDue (p : Port) (tick : Nat) : Bool := !p.locked && p.rx.huntFrom + 64000 ≤ tick

/-- The wait after a failed test ends (R185). -/
def Port.backoffExpiry (p : Port) (wk : Bool) (tick : Nat) : Port :=
  match p.rx.backoff with
  | some d =>
    if tick < d then p
    else
      let p1 := { p with rx := { p.rx with backoff := none } }
      p1.setRxSt wk (p1.serviceSt wk)
  | none => p

/-- RX_ST becomes what the receiver's condition asks for; a test that this ends has failed (R182, R185). -/
def Port.serve (p : Port) (wk : Bool) (tick : Nat) : Port :=
  let p1 := p.cutTest wk tick
  p1.setRxSt wk (p1.serviceSt wk)

/-- SVC_EN takes a value (R182, R222). -/
def Port.setSvc (p : Port) (wk : Bool) (tick : Nat) (v : Bool) : Port :=
  let p1 := p.s wk F.LNK_CTL_SVC_EN v.toNat
  if p.g wk F.LNK_CTL_SVC_EN = v.toNat then p1 else p1.serve wk tick

/-- Test mode, loop-back and polarity bits change: a port in service leaves it as at a lock loss; a change of INV_RX,
LPB_NEAR or TEST, and the end of a test mode or loop-back, start a new hunt; a loop-back set on any other port takes
RX_ST to OUT (R178, R182, R204). The generator and the checker start when the mode is set (R201). -/
def Port.setTest (p : Port) (wk : Bool) (tick : Nat) (v : Word) : Port :=
  let mask : Word := BitVec.ofNat 32 (F.LNK_CTL_TX_OFF.mask + F.LNK_CTL_TEST.mask + F.LNK_CTL_PRBS31.mask + F.LNK_CTL_LPB_NEAR.mask
    + F.LNK_CTL_LPB_FAR.mask + F.LNK_CTL_INV_RX.mask + F.LNK_CTL_INV_TX.mask)
  let old := p.word wk 0
  let new := (old &&& ~~~mask) ||| (v &&& mask)
  let p1 := p.setWord wk 0 new
  let started := testMode old ≠ testMode new
  let near := F.LNK_CTL_LPB_NEAR.of old ≠ F.LNK_CTL_LPB_NEAR.of new
  let p2 := if started then
      ({ p1 with tx := { p1.tx with gen := BitVec.allOnes 31 }, rx := { p1.rx with chk := ⟨0, 0, 0⟩ } }).s wk F.LNK_PRBS_PRBS_SYNC 0
    else p1
  let p3 := if near then p2.s wk F.LNK_STAT_LOS (p.los && F.LNK_CTL_LPB_NEAR.of new == 0).toNat else p2
  if p.rxSt wk = 3 ∧ p3.inTest wk then p3.lockLoss wk tick
  else if started ∨ near ∨ F.LNK_CTL_INV_RX.of old ≠ F.LNK_CTL_INV_RX.of new ∨ (p.inTest wk ∧ !p3.inTest wk) then p3.toHunt wk tick
  else if p3.inTest wk ∧ !p.inTest wk then p3.serve wk tick
  else p3

/-- CNT_CLR clears the port's counters together (R207). -/
def Port.clearCounters (p : Port) (wk : Bool) : Port :=
  let p1 := (((p.setWord wk 2 0).setWord wk 3 0).setWord wk 4 0).s wk F.LNK_PRBS_PRBS_ERR 0
  p1.s wk F.LNK_CTL_CNT_CLR 0

/-- Adaptation freezes after 2^FREEZE_LOG consecutive IDLE blocks while LOCKED; FREEZE_LOG is held to 6 to 20 (R199). -/
def Port.eqFreeze (p : Port) (wk : Bool) : Port :=
  let log := min 20 (max 6 (p.g wk F.LNK_EQ_CTL_FREEZE_LOG))
  if p.locked ∧ p.g wk F.LNK_STAT_EQ_FROZEN = 0 ∧ 2 ^ log ≤ p.rx.idleRun then
    { p.s wk F.LNK_STAT_EQ_FROZEN 1 with rx := { p.rx with nonIdle := 0 } }
  else p

/-- Adaptation resumes after RESUME blocks other than IDLE; 0 is taken as 1 (R199). -/
def Port.eqResume (p : Port) (wk : Bool) : Port :=
  if p.g wk F.LNK_STAT_EQ_FROZEN = 1 ∧ max 1 (p.g wk F.LNK_EQ_CTL_RESUME) ≤ p.rx.nonIdle then
    { p.s wk F.LNK_STAT_EQ_FROZEN 0 with rx := { p.rx with idleRun := 0 } }
  else p

/-- CAPTURE copies the current coefficients into EQ_COMM and sets VALID (R200). -/
def Port.eqCapture (p : Port) (wk : Bool) : Port :=
  (p.setWord wk 8 (F.LNK_EQ_COMM_VALID.put (p.word wk 7) 1)).s wk F.LNK_EQ_CTL_CAPTURE 0

/-- Hold a coefficient inside its window (R200). -/
def windowed (c w x : Int) : Int := clampInt (c - w) (c + w) x

/-- The adapted coefficients a receiver has come to: held in the commissioning window when VALID is 1, with EQ_CLAMP
when one reaches its edge (R200). -/
def Port.adapt (p : Port) (wk : Bool) (ctle dfe1 dfe2 dfe3 : Int) : Port :=
  if !p.locked ∨ p.g wk F.LNK_STAT_EQ_FROZEN = 1 ∨ p.g wk F.LNK_EQ_CTL_EQ_HOLD = 1 then p
  else
    let valid := p.g wk F.LNK_EQ_COMM_VALID = 1
    let wc : Int := (p.g wk F.LNK_EQ_CTL_WIN_CTLE : Int) + 1
    let wd : Int := 2 * ((p.g wk F.LNK_EQ_CTL_WIN_DFE : Int) + 1)
    let cc : Int := p.g wk F.LNK_EQ_COMM_CTLE
    let c1 := signedOf 6 (p.g wk F.LNK_EQ_COMM_DFE1)
    let c2 := signedOf 5 (p.g wk F.LNK_EQ_COMM_DFE2)
    let c3 := signedOf 5 (p.g wk F.LNK_EQ_COMM_DFE3)
    let h := fun (c w lo hi x : Int) => clampInt lo hi (if valid then windowed c w x else x)
    let edge := fun (c w x : Int) => decide (x ≤ c - w ∨ c + w ≤ x)
    let p1 := (((p.s wk F.LNK_EQ_CTLE (h cc wc 0 15 ctle).toNat).s wk F.LNK_EQ_DFE1 (patternOf 6 (h c1 wd (-32) 31 dfe1))).s wk
      F.LNK_EQ_DFE2 (patternOf 5 (h c2 wd (-16) 15 dfe2))).s wk F.LNK_EQ_DFE3 (patternOf 5 (h c3 wd (-16) 15 dfe3))
    if valid ∧ (edge cc wc ctle || edge c1 wd dfe1 || edge c2 wd dfe2 || edge c3 wd dfe3) then p1.w1c wk F.LNK_STAT_EQ_CLAMP else p1

/-- A slot in which the port sends nothing of its device: a test mode's blocks or bits, a test sequence, or IDLE with its
own RX_ST (R183, R184, R197, R201); under LPB_FAR it sends nothing of its own (R203). -/
def Port.sendIdle (p : Port) (wk : Bool) (pos part rev side : Nat) : Port :=
  let p31 := p.g wk F.LNK_CTL_PRBS31 = 1
  if p.g wk F.LNK_CTL_LPB_FAR = 1 then p
  else match testMode (p.word wk 0) with
  | 2 =>
    let (bits, gen) := prbsBits p31 128 p.tx.gen
    ({ p with tx := { p.tx with gen := gen } }).emit wk bits none
  | 1 =>
    let (bits, gen) := prbsBits p31 120 p.tx.gen
    ({ p with tx := { p.tx with gen := gen } }).send wk (Block.data (bitsNat bits))
  | _ =>
    if p.tx.seqLeft ≠ 0 then
      let (bits, gen) := prbsBits true 120 p.tx.seqGen
      ({ p with tx := { p.tx with seqGen := gen, seqLeft := p.tx.seqLeft - 1 } }).send wk (Block.data (bitsNat bits))
    else p.send wk (mkIdle (p.rxSt wk) pos part rev side)

/-- A test sequence starts when the receiver is LOCKED and FAR_ST has become WAIT (R184). -/
def Port.seqStart (p : Port) (wk : Bool) : Port :=
  if p.locked ∧ p.tx.seqDue ∧ p.g wk F.LNK_STAT_FAR_ST = 1 then
    { p with tx := { p.tx with seqLeft := 80000, seqGen := BitVec.allOnes 31, seqOn := true, seqDue := false } }
  else p

/-- The sequence is abandoned when the receiver leaves LOCKED or FAR_ST leaves WAIT and TEST (R184). -/
def Port.seqAbandon (p : Port) (wk : Bool) : Port :=
  let far := p.g wk F.LNK_STAT_FAR_ST
  if !p.locked ∨ (far ≠ 1 ∧ far ≠ 2) then { p with tx := { p.tx with seqLeft := 0, seqOn := false, seqDue := false } } else p

/-- The 80,000th test block has left: the sequence is over (R184). -/
def Port.seqEnd (p : Port) : Port :=
  if p.tx.seqLeft = 0 then { p with tx := { p.tx with seqOn := false } } else p

/-- The transmit grid at a time: it moves toward its target the nearer way, one WCK cycle in 20,000, which is 50 ppm
(R522). -/
def PortTx.gridNow (x : PortTx) (tick : Nat) : Nat :=
  let up := (x.gridTo + 8 - x.grid) % 8
  let n := (tick - x.gridAt) / 20000
  if up ≤ 4 then (x.grid + min n up) % 8 else (x.grid + 8 - min n (8 - up)) % 8

/-- The arrival phase on the feeding receiver sets the target of the grid, 3 WCK cycles after it (R156, R522). -/
def Port.gridFollow (p : Port) (tick phase : Nat) : Port :=
  let goal := (phase + 3) % 8
  if goal = p.tx.gridTo then p
  else { p with tx := { p.tx with grid := p.tx.gridNow tick, gridAt := tick, gridTo := goal } }

/-- The slew of the grid has ended: it lies 3 WCK cycles after the arrivals again (R522). -/
def Port.gridEnd (p : Port) (tick : Nat) : Port :=
  if p.tx.gridNow tick = p.tx.gridTo then { p with tx := { p.tx with grid := p.tx.gridTo, gridAt := tick } } else p

/-- Which W1C bits of PRT_STAT or LNK_STAT rose between two states of a port, and whether it entered or left service. -/
def portEvents (wk : Bool) (a b : Port) : List PortEv :=
  let rose := fun (f : Fld) => a.g wk f = 0 && b.g wk f = 1
  let more := fun (f : Fld) => decide (a.g wk f < b.g wk f)
  (if rose F.LNK_STAT_LOCK_LOST || more F.LNK_CNT1_LOCK_LOSS then [PortEv.lockLost] else []) ++
  (if rose F.LNK_STAT_NO_LOCK then [PortEv.noLock] else []) ++
  (if rose F.LNK_STAT_TEST_FAIL || more F.LNK_STAT_FAIL_RUN then [PortEv.testFail] else []) ++
  (if !a.segUp wk && b.segUp wk then [PortEv.inService] else []) ++
  (if a.segUp wk && !b.segUp wk then [PortEv.leftService] else []) ++
  (if rose F.LNK_STAT_EQ_CLAMP then [PortEv.eqClamp] else []) ++
  (if rose F.LNK_STAT_PKT_ERR || more F.LNK_PKT_TRUNC || more F.LNK_PKT_CRC_ERR || more F.LNK_PKT_LEN_ERR || more F.LNK_PKT_FRAME then [PortEv.pktErr] else []) ++
  (if rose F.LNK_STAT_CTL_ERR_F || more F.LNK_CNT1_CTL_ERR then [PortEv.ctlErr] else [])

end Sys2Proof
end

