-- ==== Sys2Proof/Machine/Readout.lean ====
section
/-!
DEFINITION. Machine/Readout.lean: a worker's arbiter, output queue, marks, sightings and uplink slots (R135 to R164,
R194, R220, R225, R226, R524).
-/
namespace Sys2Proof

/-! ## Records and packets -/

/-- A record's age in WCK cycles: the coarse count minus T div 800, which lies ahead of the count for a short while
(R139, R148). -/
def Worker.age (w : Worker) (tick : Nat) (r : Hit) : Int :=
  let d := dist48 r.cnt (w.coarse tick)
  if d < 2 ^ 47 then d else (d : Int) - 2 ^ 48

/-- The age limit of R139. -/
def staleAge : Int := 491520

/-- The entry is a streaming record whose age has reached the limit (R139). -/
def Worker.staleEnt (w : Worker) (tick : Nat) (e : OqEnt) : Bool :=
  match e.hit with
  | some r => !e.mark && decide (staleAge ≤ w.age tick r)
  | none => false

/-- The streaming records of the queue that no packet in progress has still to carry: the last ones (R142). -/
def Worker.committed (w : Worker) : Nat := ((w.out.pkts.filter (fun p => p.kind == kindRecords)).map (·.recsLeft)).sum

/-- A queue without its stale records; the first `n` streaming ones have been chosen for packets and stay (R139). -/
def dropStaleFrom (bad : OqEnt → Bool) : Nat → List OqEnt → List OqEnt
  | _, [] => []
  | 0, e :: l => if bad e then dropStaleFrom bad 0 l else e :: dropStaleFrom bad 0 l
  | n + 1, e :: l => if e.mark then e :: dropStaleFrom bad (n + 1) l else e :: dropStaleFrom bad n l

/-- Discard the stale records of the output queue, counting each (R139). -/
def Worker.dropStale (w : Worker) (tick : Nat) : Worker :=
  let oq := dropStaleFrom (w.staleEnt tick) w.committed w.out.oq
  let n := w.out.oq.length - oq.length
  if n = 0 then w
  else
    let w1 := w.modOut (fun o => { o with oq := oq })
    ({ w1 with regs := RegFile.sat wkrReset w1.regs F.WK_DROP_STALE_LOST n }).raise F.WK_FLAGS_STALE

/-- The pairing count of R142. -/
def Worker.pairing (w : Worker) (n : Nat) : Nat :=
  if n % 2 = 0 ∨ w.out.pairReady ∨ w.g F.WK_RDO_PAIR_WAIT = 0 then n else n - 1

/-- Whole blocks of throttle credit (R142, R159). -/
def Worker.creditBlocks (w : Worker) : Nat := (w.out.credit / 256).toNat

/-- Each block slot the credit grows by RATE/256 of a block, up to 256 blocks; at 0xFF it is held at 256, at 0x00 a
credit above 0 is set to 0 (R159). -/
def Worker.creditSlot (w : Worker) : Worker :=
  let r := w.g F.WK_TRIM_RATE_NOW
  w.modOut (fun o => { o with credit :=
    if r = 0xFF then 65536 else if r = 0 then min 0 o.credit else min 65536 (o.credit + r) })

/-- A data block uses one block of credit (R159); at RATE 0xFF the credit stays at 256 blocks. -/
def Worker.spend (w : Worker) : Worker :=
  if w.g F.WK_TRIM_RATE_NOW = 0xFF then w
  else w.modOut (fun o => { o with credit := max (-4095 * 256) (o.credit - 256) })

/-- Send a block in this slot on the port `west`. -/
def Worker.sendOn (w : Worker) (west : Bool) (b : Block) : Worker := w.modPort west (fun p => p.send true b)

/-- Send IDLE, or a test block, on a port: its own RX_ST, POS, PART, REV and SIDE (R197). -/
def Worker.idleOn (w : Worker) (west : Bool) : Worker :=
  w.modPort west (fun p => p.sendIdle true w.pos 0x0A16 0x21 west.toNat)

/-- The words of a monitor report at the cycle its PKT_START leaves (R164). -/
def Worker.monitorWords (w : Worker) : List Block :=
  let oq := F.WK_OQ_OQ_LEVEL.put (w.word 6) w.out.oq.length
  let mk := F.WK_MARK_MQ_LEVEL.put (w.word 8) w.marks.queue.length
  let fw := F.WK_FWD_SLIP_LEVEL.put (w.word 9) w.out.slip.length
  [Block.data ((w.word 3).toNat * 2 ^ 88 + (w.word 2).toNat * 2 ^ 56 + oq.toNat * 2 ^ 24 + w.g F.WK_TRIM_RATE_NOW * 2 ^ 16),
   Block.data ((w.word 7).toNat * 2 ^ 88 + mk.toNat * 2 ^ 56 + fw.toNat * 2 ^ 24 + (w.word 10).toNat / 256)]

/-- The trailer of a MARK_RESULT (R150, R151). -/
def trailerBlock (id part : Nat) (last : Bool) (status count : Nat) (tiles : BitVec 64) : Block :=
  Block.data (at_ 119 108 id + at_ 107 104 part + at_ 103 103 last.toNat + at_ 102 100 status + at_ 99 87 count + tiles.toNat)

/-- The own packet in progress on a port (R140, R220). -/
def Worker.pktOn (w : Worker) (west : Bool) : Option OwnPkt := w.out.pkts.find? (fun p => p.west == west)

/-- Set, or end, the own packet in progress on a port. -/
def Worker.setPkt (w : Worker) (west : Bool) (p : Option OwnPkt) : Worker :=
  w.modOut (fun o => { o with pkts := o.pkts.filter (fun q => q.west != west) ++ p.toList })

/-- Start a packet: PKT_START leaves in this slot (R140). -/
def Worker.startPkt (w : Worker) (west : Bool) (p : OwnPkt) : Worker :=
  (w.sendOn west (mkPktStart w.pos p.kind p.len p.epoch)).setPkt west (some p)

/-- The streaming records that a new packet can take: those that were in the queue before this cycle and are not in a
packet in progress (R137, R142). -/
def Worker.freeRecords (w : Worker) (tick : Nat) : Nat :=
  (w.out.oq.filter (fun e => !e.mark && decide (e.t0 < tick))).length - w.committed

/-- The packet the worker starts at a slot that R157 offers, if any: a monitor report, a result of one trailer, a part
of the mark being served, or a RECORDS packet (R142, R150, R160, R164, R524, log entry 101). A part waits until no other
packet carries records of its mark. -/
def Worker.choosePkt (w : Worker) (tick : Nat) (west : Bool) : Option OwnPkt :=
  let mk := fun kind len recs words tr sv => (⟨west, kind, len, 0, 0xFFFFFFFF, recs, 0, words, tr, sv, w.ctl.epoch⟩ : OwnPkt)
  let c := w.creditBlocks
  let part := fun (sv : Serving) =>
    if sv.scanned ∧ 1 ≤ c ∧ (!w.ctl.both ∨ sv.mark.west = west) ∧ !w.out.pkts.any (·.serves) then
      let n := min 8188 sv.left
      some (mk kindMarkResult ((n + 1) / 2 + 1) n [] none true)
    else none
  let records :=
    let pc := w.pairing (w.freeRecords tick)
    let l := min (min ((pc + 1) / 2) (max 1 (w.g F.WK_RDO_BURST_MAX))) c
    if l = 0 then none else some (mk kindRecords l (min pc (2 * l)) [] none false)
  if w.out.monitor then some (mk kindMonitor 2 0 w.monitorWords none false)
  else
    match w.marks.trailers.find? (fun t => !w.ctl.both || t.west == west) with
    | some t => if 1 ≤ c then some (mk kindMarkResult 1 0 [] (some t) false) else none
    | none =>
      match w.marks.serving.bind part with
      | some p => some p
      | none => if w.marks.serving.any (fun sv => sv.scanned && (!w.ctl.both || sv.mark.west == west)) then none else records

/-- Take the chosen packet: the pending report or trailer it carries is no longer waiting. -/
def Worker.startChosen (w : Worker) (west : Bool) (p : OwnPkt) : Worker :=
  let w1 := w.startPkt west p
  let w2 := if p.kind = kindMonitor then w1.modOut (fun o => { o with monitor := false }) else w1
  match p.trailer with
  | some t => { w2 with marks := { w2.marks with trailers := w2.marks.trailers.erase t } }
  | none => w2

/-- The first record entries of the output queue that a packet carries: those copied for a mark, or the others. -/
def takeEnts (mark : Bool) : Nat → List OqEnt → List OqEnt × List OqEnt
  | 0, l => ([], l)
  | _ + 1, [] => ([], [])
  | n + 1, e :: l =>
    if e.mark = mark then
      let (a, b) := takeEnts mark n l
      (e :: a, b)
    else
      let (a, b) := takeEnts mark (n + 1) l
      (a, e :: b)

/-- The 60 bits of a record slot; an entry without a record is an empty slot (R141, R149). -/
def slotBits (e : Option OqEnt) : Nat :=
  match e with
  | some ⟨some r, _, _⟩ => r.bits.toNat
  | _ => emptySlot

/-- The packet's data block has left: counts, CRC and credit (R159, R191). -/
def Worker.sentData (w : Worker) (west : Bool) (p : OwnPkt) (b : Block) (recs real : Nat) : Worker :=
  let w1 := (w.sendOn west b).setPkt west (some { p with
    sent := p.sent + 1, crc := crcData p.crc b, recsLeft := p.recsLeft - recs, recsSent := p.recsSent + real,
    words := p.words.drop 1 })
  let w2 := if p.serves then
      match w1.marks.serving with
      | some sv => { w1 with marks := { w1.marks with serving := some { sv with left := sv.left - recs } } }
      | none => w1
    else w1
  if p.kind = kindMonitor then w2 else w2.spend

/-- The trailer of the part in progress, as known when it leaves (R150, R151). -/
def Worker.partTrailer (w : Worker) (p : OwnPkt) : Block :=
  match p.trailer with
  | some t => trailerBlock t.id t.part true t.status 0 0
  | none =>
    match w.marks.serving with
    | some sv =>
      trailerBlock sv.mark.id sv.part (sv.left == 0) (if sv.partialTiles = 0 then 0 else 1) p.recsSent sv.partialTiles
    | none => trailerBlock 0 0 true 0 0 0

/-- The last part of the mark has left: LAST_ID, and PARTIAL_CNT and MARK_PARTIAL for a partial mark (R151). -/
def Worker.markDone (w : Worker) (sv : Serving) : Worker :=
  let w1 := { w.s F.WK_MARK_LAST_ID sv.mark.id with marks := { w.marks with serving := none } }
  if sv.partialTiles = 0 then w1 else (w1.sat F.WK_MARK_PARTIAL_CNT).raise F.WK_FLAGS_MARK_PARTIAL

/-- PKT_END of an own packet; a part of a served mark is followed by the next part or ends the mark (R140, R150). -/
def Worker.endPkt (w : Worker) (west : Bool) (p : OwnPkt) (trunc : Bool) : Worker :=
  let w1 := (w.sendOn west (mkPktEnd w.pos trunc p.sent (Nat.xor p.crc 0xFFFFFFFF))).setPkt west none
  if p.serves then
    match w1.marks.serving with
    | some sv =>
      if trunc ∨ sv.left ≠ 0 then { w1 with marks := { w1.marks with serving := some { sv with part := (sv.part + 1) % 16 } } }
      else w1.markDone sv
    | none => w1
  else if trunc then
    match p.trailer with
    | some t => { w1 with marks := { w1.marks with trailers := t :: w1.marks.trailers } }
    | none => w1
  else w1

/-- The next records of a packet. Those of a mark that have not reached the output queue are copied in this slot, whatever
its level: at most two in the eight cycles of a slot (R149, log entry 102). -/
def Worker.nextRecords (w : Worker) (p : OwnPkt) (n : Nat) : List OqEnt × Worker :=
  let (es, rest) := takeEnts p.serves n w.out.oq
  let w1 := w.modOut (fun o => { o with oq := rest })
  match w1.marks.serving with
  | some sv =>
    if p.serves then
      let now := sv.toCopy.take (n - es.length)
      let got := now.map (fun (t, ix) => (⟨((w1.tile t).ring.find? (fun e => e.ix == ix)).map RingEnt.hit, true, 0⟩ : OqEnt))
      let lost := (now.zip got).foldl (fun (m : BitVec 64) x => if x.2.hit.isNone then m ||| (1 <<< x.1.1) else m) sv.partialTiles
      (es ++ got, { w1 with marks := { w1.marks with serving := some { sv with toCopy := sv.toCopy.drop (n - es.length), partialTiles := lost } } })
    else (es, w1)
  | none => (es, w1)

/-- The next block of the packet in progress on a port (R140, R141, R158). -/
def Worker.packetSlot (w : Worker) (west : Bool) (p : OwnPkt) : Worker :=
  if 287 ≤ w.out.slip.length ∧ west = w.near then w.endPkt west p true
  else if p.len ≤ p.sent then w.endPkt west p false
  else
    match p.words with
    | b :: _ => w.sentData west p b 0 0
    | [] =>
      if p.recsLeft = 0 then w.sentData west p (w.partTrailer p) 0 0
      else
        let n := min 2 p.recsLeft
        let (es, w1) := w.nextRecords p n
        let b := Block.data (slotBits es[0]? * 2 ^ 60 + slotBits es[1]?)
        w1.sentData west p b n (es.filter (fun e => e.hit.isSome)).length

/-! ## Forwarding -/

/-- A forwarded block that does not leave in its slot enters the slip buffer, which holds 288 (R157, R226). -/
def Worker.slipIn (w : Worker) (b : Block) : Worker :=
  if 288 ≤ w.out.slip.length then w
  else
    let n := w.out.slip.length + 1
    let w1 := (w.modOut (fun o => { o with slip := o.slip ++ [b] })).high F.WK_FWD_SLIP_HWM n
    if 256 < n then w1.raise F.WK_FLAGS_SLIP_HI else w1

/-- The forwarded packet in progress after a forwarded block leaves (R157, R194). -/
def fwdAfter (f : Option FwdPkt) (b : Block) : Option FwdPkt :=
  if b.is .pktStart then some ⟨b.pos, 0⟩
  else if b.is .pktEnd then none
  else if b.isData then f.map (fun p => { p with sent := p.sent + 1 })
  else f

/-- Send a forwarded block in this slot. -/
def Worker.sendFwd (w : Worker) (west : Bool) (b : Block) : Worker :=
  (w.sendOn west b).modOut (fun o => { o with fwd := fwdAfter o.fwd b })

/-- The tiles of the sighting block that a slot starting in this cycle carries: those set by the cycle before, two cycles
after their validation event (R154, R155). -/
def Worker.sightsReady (w : Worker) (tick : Nat) : List SightEnt := w.out.sights.filter (fun e => decide (e.when + 3 ≤ tick))

/-- The own pending sighting leaves, with the STAMP of its earliest tile; its first header bit leaves 5 cycles later, and
later than cycle 15 it counts in SGT_LATE (R154, R155). -/
def Worker.sendSight (w : Worker) (west : Bool) (tick : Nat) (e : SightEnt) (rest : List SightEnt) : Worker :=
  let tiles := (e :: rest).foldl (fun (m : BitVec 64) x => m ||| (1 <<< x.tile)) 0
  let w1 := (w.sendOn west (mkSighting w.pos tiles.toNat e.stamp)).modOut
    (fun o => { o with sights := o.sights.filter (fun x => decide (tick < x.when + 3)) })
  if e.when + 15 < tick + 5 then (w1.sat F.WK_FWD_SGT_LATE).raise F.WK_FLAGS_SGT_LATE else w1

/-- The time reference that may leave on a port: the pending one, or the one owed to this port (R143, R220). -/
def Worker.refFor (w : Worker) (west : Bool) : Option Nat :=
  match w.out.timeRef with
  | some r => some r
  | none =>
    match w.out.owed with
    | some (x, r) => if x = west then some r else none
    | none => none

/-- The own time reference leaves; COUNT is the count of the cycle in which its first header bit leaves, 5 cycles after
the slot begins (R143, R155). A worker that serves both ports owes it to the other port too (R220). -/
def Worker.sendTimeRef (w : Worker) (west : Bool) (tick reason : Nat) : Worker :=
  let owed := if w.ctl.both ∧ w.out.timeRef.isSome then some (!west, reason) else none
  (w.sendOn west (mkTimeRef w.pos reason ((w.coarse tick + 5) % 2 ^ 48))).modOut
    (fun o => { o with timeRef := none, owed := owed, lastRef := tick })

/-- Keep the block that arrived for this slot, if another took the slot; IDLE is never kept (R157). -/
def Worker.keepArriving (w : Worker) (a : Option Block) : Worker :=
  match a with
  | some b => if b.is .idle then w else w.slipIn b
  | none => w

/-- The head of the slip buffer leaves. When it was the last block that a further turn has left, the completion on this
port ends where it stands, with no end for a packet still open (R225). -/
def Worker.slipOut (w : Worker) (west : Bool) (b : Block) (rest : List Block) : Worker :=
  ((w.modOut (fun o => { o with slip := rest, first := o.first - 1 })).sendFwd west b).modOut
    (fun o => { o with fwd := if w.out.first = 1 then none else o.fwd })

/-- Rules 4 and 6: the slip buffer's head, or the block arriving in this slot (R157). -/
def Worker.forwardSlot (w : Worker) (west : Bool) (a : Option Block) : Option Worker :=
  match w.out.slip, a with
  | b :: rest, a => some ((w.slipOut west b rest).keepArriving a)
  | [], some b => if b.is .idle then none else some (w.sendFwd west b)
  | [], none => none

/-- An echo leaves with TURN, the cycles from the probe's arrival to its own departure (R189). -/
def Worker.stampEcho (w : Worker) (tick : Nat) (b : Block) : Block :=
  if b.is .beacon then
    mkEcho b.pos (b.f 103 88) (b.f 87 40) (b.f 39 30) ((w.coarse tick + 2 ^ 48 - b.f 87 40) % 2 ^ 48)
  else b

/-- The first REPLY or echo that may leave on a port: while a worker serves both ports, one whose command came on it
(R220). -/
def Worker.answerFor (w : Worker) (west : Bool) : Option Answer := w.out.replies.find? (fun r => !w.ctl.both || r.west == west)

/-- A REPLY or echo leaves. -/
def Worker.sendAnswer (w : Worker) (west : Bool) (tick : Nat) (r : Answer) : Worker :=
  (w.sendOn west (w.stampEcho tick r.blk)).modOut (fun o => { o with replies := o.replies.erase r })

/-- A block that arrives for this slot would find the slip buffer full: the slot then goes to forwarding, so that no
forwarded block is lost (R158). -/
def Worker.slipTight (w : Worker) (a : Option Block) : Bool := decide (288 ≤ w.out.slip.length) && a.any (fun b => !b.is .idle)

/-- Rules 5 to 8, at a forwarded packet boundary or after (R157). The blocks that a further turn has left go before (R225). -/
def Worker.lowSlot (w : Worker) (west : Bool) (tick : Nat) (a : Option Block) : Worker :=
  let own := w.out.fwd.isNone ∧ w.out.first = 0 ∧ !w.slipTight a
  match w.refFor west, w.answerFor west with
  | some r, x =>
    if own then (w.sendTimeRef west tick r).keepArriving a
    else match w.forwardSlot west a, x with
      | some w1, _ => w1
      | none, _ => w.idleOn west
  | none, some r =>
    if own then (w.sendAnswer west tick r).keepArriving a
    else match w.forwardSlot west a with
      | some w1 => w1
      | none => w.idleOn west
  | none, none =>
    match w.forwardSlot west a with
    | some w1 => w1
    | none =>
      if w.out.fwd.isNone then
        let w1 := w.dropStale tick
        match w1.choosePkt tick west with
        | some p => w1.startChosen west p
        | none => w1.idleOn west
      else w.idleOn west

/-- Rules 3 to 8 of R157. -/
def Worker.afterSight (w : Worker) (west : Bool) (tick : Nat) (a : Option Block) : Worker :=
  match w.pktOn west with
  | some p => (w.packetSlot west p).keepArriving a
  | none => w.lowSlot west tick a

/-- The own packet on a port is to be cut short now: the slip buffer has reached 287 blocks (R158). -/
def Worker.mustCut (w : Worker) (west : Bool) : Bool :=
  decide (287 ≤ w.out.slip.length) && (w.pktOn west).isSome && west == w.near

/-- Rules 2 to 8 of R157; a packet that is to be cut short is cut before a sighting takes the slot (R158). -/
def Worker.ownOrForward (w : Worker) (west : Bool) (tick : Nat) (a : Option Block) : Worker :=
  match w.sightsReady tick with
  | e :: rest =>
    if w.out.slip.length < 288 ∧ !w.mustCut west then (w.sendSight west tick e rest).keepArriving a else w.afterSight west tick a
  | [] => w.afterSight west tick a

/-- An uplink block slot on the serving port, with the segment in service: the priority table of R157. -/
def Worker.servingSlot (w : Worker) (west : Bool) (tick : Nat) : Worker :=
  let a := w.out.arriving
  let w := w.modOut (fun o => { o with arriving := none })
  match a with
  | some b => if b.is .sighting then w.sendOn west b else w.ownOrForward west tick (some b)
  | none => w.ownOrForward west tick none

/-- The own packet in progress on a port ends where it stands: what it had not carried stays queued (R183, R226). -/
def Worker.dropPkt (w : Worker) (west : Bool) : Worker :=
  match w.pktOn west with
  | none => w
  | some p =>
    let w1 := w.setPkt west none
    if p.serves then
      match w1.marks.serving with
      | some sv => { w1 with marks := { w1.marks with serving := some { sv with part := (sv.part + 1) % 16 } } }
      | none => w1
    else
      match p.trailer with
      | some t => { w1 with marks := { w1.marks with trailers := t :: w1.marks.trailers } }
      | none => w1

/-- A slot of the serving port while its segment is out of service (R226): IDLE; the packet in progress has ended, a
pending sighting is discarded, and forwarded blocks stay in the slip buffer. -/
def Worker.outSlot (w : Worker) (west : Bool) : Worker :=
  let a := w.out.arriving
  let w1 := (w.dropPkt west).modOut (fun o => { o with arriving := none, sights := [], wasOut := true })
  (w1.keepArriving a).idleOn west

/-- A slot of the old serving port after a turn: the own packet, the slip buffer's blocks, a closing PKT_END for a
forwarded packet still open, then EPOCH_END with the old epoch (R225). -/
def Worker.oldSlot (w : Worker) (o : OldSide) : Worker :=
  match w.pktOn o.west with
  | some p => w.packetSlot o.west p
  | none =>
    match o.blocks with
    | b :: rest =>
      { w.sendOn o.west b with ctl := { w.ctl with old := some { o with blocks := rest, fwd := fwdAfter o.fwd b } } }
    | [] =>
      match o.fwd with
      | some f => { w.sendOn o.west (mkPktEnd f.pos true f.sent 0) with ctl := { w.ctl with old := some { o with fwd := none } } }
      | none => { w.sendOn o.west (mkEpochEnd w.pos o.epoch) with ctl := { w.ctl with old := none } }

/-- The head of a port's queue of blocks leaves; while the segment is out of service it is lost (R183, R196). -/
def Worker.queueSlot (w : Worker) (west : Bool) (b : Block) (rest : List Block) : Worker :=
  let w1 := w.modPort west (fun p => { p with tx := { p.tx with queue := rest } })
  if (w.port west).segUp true then w1.sendOn west b else w1.idleOn west

/-- A slot of a worker that has not been enumerated: it forwards downstream blocks, and sends of its own only the REPLY to
a malformed enumeration command, on the port the command came on (R183, R211). -/
def Worker.unenumSlot (w : Worker) (west : Bool) : Worker :=
  match (w.port west).tx.queue, w.out.replies.find? (fun r => r.west == west) with
  | b :: rest, _ => w.queueSlot west b rest
  | [], some r =>
    if (w.port west).segUp true then (w.sendOn west r.blk).modOut (fun o => { o with replies := o.replies.erase r })
    else w.idleOn west
  | [], none => w.idleOn west

/-- A block slot of one port of a worker (R157, R196, R198, R211, R225, R226). -/
def Worker.slot (w : Worker) (tick : Nat) (west : Bool) : Worker :=
  let w := if west = w.near then w.creditSlot else w
  if w.ctl.clock = none then w.modPort west (fun p => { p with tx := { p.tx with last := [], lastBlk := none } })
  else if w.pos = 0 then w.unenumSlot west
  else if west = w.near ∨ w.ctl.both then
    if (w.port west).segUp true then
      let w1 := if w.out.wasOut then
          w.modOut (fun o => { o with wasOut := false, timeRef := some (o.timeRef.getD 0) })
        else w
      w1.servingSlot west tick
    else w.outSlot west
  else
    match w.ctl.old with
    | some o => if o.west = west ∧ (w.port west).segUp true then w.oldSlot o else w.idleOn west
    | none =>
      match (w.port west).tx.queue with
      | b :: rest => w.queueSlot west b rest
      | [] => w.idleOn west

/-- A block from the far neighbour comes for the next slot; one that waited for it goes into the slip buffer (R157). -/
def Worker.arrives (w : Worker) (b : Block) : Worker :=
  (match w.out.arriving with
    | some c => w.slipIn c
    | none => w).modOut (fun o => { o with arriving := some b })

/-- What goes upstream of an item that a far port's receiver has handed on: a block that is no downstream one, or the end
of a packet that was not told (R194, R521). -/
def goesUp (i : RxItem) : Bool :=
  match i with
  | .block b => !b.isCtl || b.upstream || b.is .idle
  | .close _ _ _ _ _ _ => true

/-- Take the next upstream item the far port's receiver has handed on: a block is forwarded, and an item that closed as
TRUNC or LEN_ERR with no PKT_END of its own going on is followed by PKT_END with TRUNC = 1 and its sender's POS (R157,
R194, R196). -/
def Worker.forwardArrival (w : Worker) : Worker :=
  let far := !w.near
  match (w.port far).inbox.find? goesUp with
  | none => w
  | some it =>
    let w1 := w.modPort far (fun p => { p with inbox := p.inbox.eraseP goesUp })
    match it with
    | .block b => if w.pos = 0 ∨ b.is .idle then w1 else w1.arrives b
    | .close pos _ _ got st told =>
      if w.pos ≠ 0 ∧ !told ∧ (st = .lenErr ∨ st = .trunc) then w1.arrives (mkPktEnd pos true got 0) else w1

/-! ## Marks -/

/-- START extended to the value within 2³⁹ cycles of the current count (R146). -/
def extendStart (cur start : Nat) : Nat :=
  let d := (start + 2 ^ 40 - cur % 2 ^ 40) % 2 ^ 40
  if d < 2 ^ 39 then (cur + d) % 2 ^ 48 else (cur + d + 2 ^ 48 - 2 ^ 40) % 2 ^ 48

/-- A downstream MARK block (R146, R152, R234). -/
def Worker.markReceived (w : Worker) (tick : Nat) (west : Bool) (b : Block) : Worker :=
  let id := b.f 105 94
  let m : WMark := ⟨id, extendStart (w.coarse tick) (b.f 93 54), b.f 53 39 + 1, west⟩
  let ans := fun st (w : Worker) => { w with marks := { w.marks with trailers := w.marks.trailers ++ [⟨id, 0, st, west⟩] } }
  if w.b F.WK_GSTAT_FWD_ONLY then ans 4 w
  else if !w.marked then ans 3 w
  else if 8 ≤ w.marks.queue.length then ans 2 ((w.sat F.WK_MARK_REFUSED_CNT).raise F.WK_FLAGS_MARK_OVF)
  else { w with marks := { w.marks with queue := w.marks.queue ++ [m] } }

/-- The mark at the head of the queue is served once the count has reached START + LEN − 1 + 320 (R148); it leaves the
queue then, and MQ_LEVEL counts it no more (log entry 115). -/
def Worker.markServe (w : Worker) (tick : Nat) : Worker :=
  match w.marks.serving, w.marks.queue with
  | none, m :: rest =>
    if dist48 (m.start + m.len - 1 + 320) (w.coarse tick) < 2 ^ 47 then
      { w with marks := { w.marks with queue := rest, serving := some ⟨m, 0, [], 0, 0, false⟩ } }
    else w
  | _, _ => w

/-- A record lies in a window (R147). -/
def Worker.inWindow (w : Worker) (tick : Nat) (m : WMark) (r : Hit) : Bool :=
  let t := ((extendCoarse (w.coarse tick) (recCoarse r.bits)) % (2 ^ 48 : Nat)).toNat
  decide (dist48 m.start t < m.len)

/-- Scan one ring: reserve its matching unsent records (R149) and evaluate OVW_T (R151); stale records are discarded
at this point (R139). -/
def Worker.scanTile (w : Worker) (tick : Nat) (m : WMark) (acc : Worker × List (Nat × Nat) × BitVec 64) (t : Nat) :
    Worker × List (Nat × Nat) × BitVec 64 :=
  let (w1, res, part) := acc
  let x := w1.tile t
  let hit := x.ring.filter (fun e => !e.sent && w.inWindow tick m e.hit)
  let stale := hit.filter (fun e => decide (staleAge ≤ w.age tick e.hit))
  let live := hit.filter (fun e => decide (w.age tick e.hit < staleAge))
  let ring := (x.ring.filter (fun e => !(stale.any (fun s => s.ix == e.ix)))).map
    (fun e => if live.any (fun s => s.ix == e.ix) then { e with sent := true } else e)
  let w2 := w1.setTile t { x with ring := ring }
  let w3 := if stale = [] then w2 else
    ({ w2 with regs := RegFile.sat wkrReset w2.regs F.WK_DROP_STALE_LOST stale.length }).raise F.WK_FLAGS_STALE
  let late := match x.ovwT with
    | some o => decide (dist48 m.start o < 2 ^ 47)
    | none => false
  (w3, res ++ live.map (fun e => (t, e.ix)), if late then part ||| (1 <<< t) else part)

/-- The scan ends: the reserved records are counted, tile 0 first and oldest first (R149, R151). -/
def Worker.markScanEnd (w : Worker) (tick : Nat) : Worker :=
  match w.marks.serving with
  | some sv =>
    if sv.scanned then w
    else
      let (w1, res, part) := (List.range 64).foldl (w.scanTile tick sv.mark) (w, [], 0)
      let sv1 := { sv with toCopy := res, left := res.length, partialTiles := part, scanned := true }
      { w1 with marks := { w1.marks with serving := some sv1 } }
  | none => w

/-! ## Mode, throttle and trims -/

/-- MODE takes effect at the next WCK edge; on a change to marked mode the rings start empty (R146). -/
def Worker.setMode (w : Worker) (marked : Bool) : Worker :=
  let w1 := (w.s F.WK_GCTL_MODE marked.toNat).s F.WK_GSTAT_MODE_NOW marked.toNat
  if marked ∧ !w.marked then
    (List.range 64).foldl (fun w t => w.setTile t { w.tile t with ring := [], ovwT := none }) w1
  else w1

/-- A RATE takes force (R159); a change from 0xFF starts with a credit of 256 blocks. -/
def Worker.throttle (w : Worker) (rate : Nat) : Worker :=
  let w1 := w.s F.WK_TRIM_RATE_NOW rate
  if rate = 0xFF then w1.modOut (fun o => { o with credit := 65536 })
  else if rate = 0 then w1.modOut (fun o => { o with credit := min 0 o.credit }) else w1

/-- One update of a TRIM block; `f` is what the check of the word finds as it is read. A word that holds an uncorrectable
error is not changed (R91, R161, R162). -/
def Worker.trimOne (w : Worker) (tick u : Nat) (f : Finding) : Worker :=
  if !bitOf u 21 then w
  else
    let a := bitsOf u 20 7
    let w1 := match f with
      | .uncorrectable flips => w.cfgUe tick a flips
      | _ => w
    if F.PIX_ECC_ERR.of (w1.cfg a) = 1 then (w1.sat F.WK_TRIM_TRIM_REJ).raise F.WK_FLAGS_TRIM_REJECT
    else
      let fld := if bitOf u 6 then F.PIX_TRIM_HI else F.PIX_TRIM_LO
      (((w1.s (fld.ix 1 a) (bitsOf u 5 0)).wrote tick (.pixel a)).rest tick a).wrap F.WK_TRIM_TRIM_APPLIED

/-- A TRIM block applies its valid updates in order; `fs` says what the check of each update's word finds, none of it an
error where nothing is said (R161). -/
def Worker.trimBlock (w : Worker) (tick : Nat) (b : Block) (fs : List Finding) : Worker :=
  ([b.f 106 85, b.f 84 63, b.f 62 41, b.f 40 19].zipIdx).foldl (fun w (u, i) => w.trimOne tick u (fs.getD i .clean)) w

/-! ## Enable, disable and forward-only fallback -/

/-- The worker's part of the enable check (R165). -/
def Worker.enable (w : Worker) : Worker :=
  let refuse := fun code => (w.s F.WK_GSTAT_REASON code).raise F.WK_FLAGS_EN_REJECT
  if w.running then w
  else if !w.b F.TC_STAT_INIT_DONE then refuse 0xA4
  else if !w.b F.WK_GSTAT_CNT_SET then refuse 0xA5
  else if w.b F.WK_GSTAT_FWD_ONLY then refuse 0xA6
  else
    let w1 := ((w.s F.WK_GCTL_EN 1).s F.WK_GSTAT_RUNNING 1).s F.WK_GSTAT_REASON 0
    (w1.s F.WK_TRIM_RATE_NOW 0xFF).modOut (fun o => { o with timeRef := some (max 1 (o.timeRef.getD 0)), credit := 65536 })

/-- A write of 0 to EN (R166). -/
def Worker.disable (w : Worker) : Worker := (w.s F.WK_GCTL_EN 0).s F.WK_GSTAT_RUNNING 0

/-- The own packet on a port is closed at once with TRUNC = 1; on a segment out of service it has ended where it stood
(R183, R234). -/
def Worker.cutPkt (w : Worker) (p : OwnPkt) : Worker :=
  if (w.port p.west).segUp true then w.endPkt p.west p true else w.dropPkt p.west

/-- The one-trailer results of the marks that fallback leaves unserved: the mark being served, with its next PART number,
and those in the queue (R234). -/
def Worker.unserved (w : Worker) : List Trailer :=
  (w.marks.serving.map (fun sv => (⟨sv.mark.id, sv.part, 4, sv.mark.west⟩ : Trailer))).toList ++
    w.marks.queue.map (fun m => (⟨m.id, 0, 4, m.west⟩ : Trailer))

/-- A tile without the records in its FIFO and its ring. -/
def Tile.emptied (x : Tile) : Tile := { x with fifo := [], ring := [], ovwT := none }

/-- The worker falls back to forward-only operation (R233, R234). -/
def Worker.fallback (w : Worker) : Worker :=
  if w.b F.WK_GSTAT_FWD_ONLY then { w with ctl := { w.ctl with passes := 0 } }
  else
    let w0 := w.out.pkts.foldl Worker.cutPkt w
    let w1 := (((w0.s F.WK_GSTAT_FWD_ONLY 1).raise F.WK_FLAGS_SELF_FAULT).s F.WK_GCTL_EN 0).s F.WK_GSTAT_RUNNING 0
    let w2 := { w1 with marks := ⟨[], none, w0.marks.trailers ++ w0.unserved⟩, ctl := { w1.ctl with passes := 0 } }
    (List.range 64).foldl (fun w t => w.setTile t (w.tile t).emptied) (w2.modOut (fun o => { o with oq := [], sights := [] }))

/-- The logic self-check every 2²⁰ cycles (R233, R234): a wrong test record starts fallback, and three consecutive
passes leave it. `oneDiffers` is a difference in one voted copy only, which is corrected. -/
def Worker.selfCheck (w : Worker) (oneDiffers recordWrong : Bool) : Worker :=
  let w1 := if oneDiffers then w.raise F.WK_FLAGS_VOTE_ERR else w
  if recordWrong then w1.fallback
  else
    let n := w1.ctl.passes + 1
    if w1.b F.WK_GSTAT_FWD_ONLY ∧ 3 ≤ n then { w1.s F.WK_GSTAT_FWD_ONLY 0 with ctl := { w1.ctl with passes := 0 } }
    else { w1 with ctl := { w1.ctl with passes := n } }

end Sys2Proof
end

