-- ==== Sys2Proof/Machine/WorkerCtl.lean ====
section
/-!
DEFINITION. Machine/WorkerCtl.lean: control of a worker: blocks received, turning (R219 to R226), commands (R210 to
R216), beacons and probes (R257 to R263), holds (R223), enumeration and resets (R209, R499), and its register bus.
-/
namespace Sys2Proof

/-! ## Receiving -/

/-- The kind of a worker's port (R211, R219, R220, R521). -/
def Worker.kindOf (w : Worker) (west : Bool) : PortKind :=
  if w.pos = 0 ∨ w.ctl.both ∨ west = w.near then .wkrServing w.pos else .wkrFar w.pos

/-- LINK_E or LINK_W is raised when the port sets LOCK_LOST, NO_LOCK or TEST_FAIL (R185). -/
def Worker.linkFlags (w : Worker) (west : Bool) (evs : List PortEv) : Worker :=
  if evs.any (fun e => e == .lockLost || e == .noLock || e == .testFail) then
    w.raise (if west then F.WK_FLAGS_LINK_W else F.WK_FLAGS_LINK_E)
  else w

/-- The time at which a receiver first reached LOCKED since reset (R209). -/
def firstLock (was : Option Nat) (p : Port) (tick : Nat) : Option Nat :=
  match was with
  | some t => some t
  | none => if p.locked then some tick else none

/-- Change a port and raise what its W1C bits report. -/
def Worker.portStep (w : Worker) (tick : Nat) (west : Bool) (f : Port → Port) : Worker :=
  let a := w.port west
  let b := f a
  let w1 := (w.setPort west b).linkFlags west (portEvents true a b)
  { w1 with ctl := { w1.ctl with lockEast := firstLock w1.ctl.lockEast w1.east tick, lockWest := firstLock w1.ctl.lockWest w1.west tick } }

/-- A block from the serving port goes on downstream unless it is the worker's own or the worker serves both ports
(R196, R210, R211, R220, R225). -/
def Worker.passDown (w : Worker) (west : Bool) (b : Block) : Worker :=
  let own := b.pos = w.pos
  if w.ctl.both ∨ own ∨ w.ctl.old.isSome then w
  else w.modPort (!west) (fun p => { p with tx := { p.tx with queue := p.tx.queue ++ [b] } })

/-- The worker acts on a downstream block: its own POS, or 0x1F; a worker with POS 0 acts on the enumeration command
only (R190, R211). -/
def Worker.actsOn (w : Worker) (b : Block) : Bool :=
  if w.pos = 0 then b.is .cmd && b.pos == 0 else b.pos == w.pos || b.pos == 0x1F

/-- One item handed on by the serving port's receiver. -/
def Worker.sortServing (tick : Nat) (west : Bool) (w : Worker) (it : RxItem) : Worker :=
  match it with
  | .block b =>
    if b.is .idle then w
    else
      let w1 := { w.passDown west b with ctl := { w.ctl with lastDown := tick } }
      if w.actsOn b then w1.modPort west (fun p => { p with inbox := p.inbox ++ [.block b] }) else w1
  | .close _ _ _ _ _ _ => w

/-- The 128 line bits of a block time arrive on a port (R178). The arrival phase at a locked receiver sets the target of the
other port's grid (R522). -/
def Worker.receive (w : Worker) (tick : Nat) (west : Bool) (bits : List Bool) (phase : Nat) : Worker :=
  let k := w.kindOf west
  let before := (w.port west).inbox.length
  let w1 := (w.portStep tick west (fun p => p.receive k tick bits)).modPort west (fun p => { p with rx := { p.rx with phase := phase } })
  let w2 := if (w1.port west).locked then w1.modPort (!west) (fun p => p.gridFollow tick phase) else w1
  match k with
  | .wkrServing _ =>
    let items := (w2.port west).inbox.drop before
    let w3 := w2.modPort west (fun p => { p with inbox := p.inbox.take before })
    items.foldl (Worker.sortServing tick west) w3
  | _ => w2

/-! ## Turning -/

/-- What the old serving port still has to complete after a turn, if its segment is in service: the slip buffer with the
block that has arrived for this slot, and the open forwarded packet (R225, R226). -/
def Worker.oldSide (w : Worker) : Option OldSide :=
  let arrived := match w.out.arriving with
    | some b => if b.is .idle then [] else [b]
    | none => []
  if (w.port w.near).segUp true then some ⟨w.near, w.ctl.epoch, w.out.slip ++ arrived, w.out.fwd⟩ else none

/-- What an earlier turn has left on the port that becomes the serving port: its blocks and, with them, the forwarded packet
that they belong to (R225). -/
def Worker.leftOver (w : Worker) : List Block × Option FwdPkt :=
  match w.ctl.old with
  | some o => if o.west ≠ w.near ∧ o.blocks ≠ [] then (o.blocks, o.fwd) else ([], none)
  | none => ([], none)

/-- The worker turns: its far port becomes its serving port (R225, R226, R260). A packet in progress goes on, on the port it
was started on. -/
def Worker.turn (w : Worker) : Worker :=
  let old := w.near
  let (slip, fwd) := w.leftOver
  let w0 := if (w.port old).segUp true then w else w.dropPkt old
  let w1 := w0.modOut (fun o => { o with slip := slip, first := slip.length, fwd := fwd, arriving := none,
                                         timeRef := some (max 2 (o.timeRef.getD 0)) })
  let w2 := (w1.s F.WK_POS_NEAR (!old).toNat).modPort (!old) (fun p => { p with
    tx := { p.tx with queue := [] },
    inbox := p.inbox.filter (fun i => match i with
      | .block b => b.downstream
      | .close _ _ _ _ _ _ => false) })
  { w2 with ctl := { w2.ctl with epoch := (w.ctl.epoch + 1) % 256, old := w.oldSide, clock := some (!old) },
            time := { w2.time with valid := false } }

/-- Take the first downstream block of a kind off a port's inbox; on the far port the worker turns first (R224). -/
def Worker.takeDown (w : Worker) (tick : Nat) (west : Bool) (want : Block → Bool) : Option (Block × Worker) :=
  let sel := fun (i : RxItem) => match i with
    | .block b => want b
    | .close _ _ _ _ _ _ => false
  match (w.port west).inbox.find? sel with
  | some (.block b) =>
    let w1 := w.modPort west (fun p => { p with inbox := p.inbox.eraseP sel })
    let far := w1.pos ≠ 0 ∧ !w1.ctl.both ∧ west ≠ w1.near
    let w2 := if far ∧ b.pos = w1.pos then w1.turn else w1
    some (b, { w2 with ctl := { w2.ctl with lastDown := tick } })
  | _ => none

/-! ## Register bus of a worker -/

/-- The link register an address names: the side and the number (R206). -/
def linkAddr (a : Nat) : Option (Bool × Nat) :=
  if 0x100 ≤ a ∧ a ≤ 0x109 then some (false, a - 0x100)
  else if 0x110 ≤ a ∧ a ≤ 0x119 then some (true, a - 0x110)
  else none

/-- The row of a link register. -/
def linkSpec (i : Nat) : Option RegSpec := specAt linkSpecs i

/-- A write to a link register of a port, under a role, whose special bits act (R200 to R204, R207, R222). -/
def Port.writeLink (p : Port) (wk : Bool) (role : Role) (tick i : Nat) (v : Word) : Port :=
  match linkSpec i with
  | none => p
  | some r =>
    let old := p.word wk i
    let new := writeWord r role old v
    match i with
    | 0 =>
      let p1 := (p.setSvc wk tick (F.LNK_CTL_SVC_EN.of new = 1)).setTest wk tick new
      if F.LNK_CTL_CNT_CLR.of new = 1 then p1.clearCounters wk else p1
    | 9 => let p1 := p.setWord wk 9 new
           if F.LNK_EQ_CTL_CAPTURE.of new = 1 then p1.eqCapture wk else p1
    | 1 => p.setWord wk 1 (new ||| p.hot)
    | _ => p.setWord wk i new

/-- The fields of TILE_AFE other than PG (R97). The word replaced goes on settling for 1 µs (R88). -/
def Worker.writeAfe (w : Worker) (tick t : Nat) (v : Word) : Worker :=
  let a := 0x301 + 4 * t
  let old := w.word a
  let keep : Word := BitVec.ofNat 32 (F.TILE_AFE_PG.mask + F.TILE_AFE_READY.mask)
  let w1 := w.setWord a ((old &&& keep) ||| (v &&& 0x7F800FFF))
  let w2 := w1.setTile t { w1.tile t with afeWas := keepWas (w1.tile t).afeWas old tick }
  match F.TILE_AFE_PG.of old, F.TILE_AFE_PG.of v with
  | 0, 1 => w2.powerDown t
  | 1, 0 => w2.powerUp tick t
  | _, _ => w2

/-- TILE_THR: THR_CLAMP shows a THR_HI below THR_LO + 8 (R72, R96). The word replaced goes on settling for 1 µs (R88). -/
def Worker.writeThr (w : Worker) (tick t : Nat) (v : Word) : Worker :=
  let a := 0x300 + 4 * t
  let clamp := decide (F.TILE_THR_THR_HI.of v < F.TILE_THR_THR_LO.of v + 8)
  let w1 := w.setWord a (F.TILE_THR_THR_CLAMP.put (v &&& 0x03FF03FF) clamp.toNat)
  w1.setTile t { w1.tile t with thrWas := keepWas (w1.tile t).thrWas (w.word a) tick }

/-- WK_GCTL (R146, R153, R163, R165, R166). -/
def Worker.writeGctl (w : Worker) (v : Word) : Worker :=
  let w1 := (w.s F.WK_GCTL_SGT_EN (F.WK_GCTL_SGT_EN.of v)).s F.WK_GCTL_MON_EN (F.WK_GCTL_MON_EN.of v)
  let w2 := w1.setMode (F.WK_GCTL_MODE.of v = 1)
  if F.WK_GCTL_EN.of v = 1 then w2.enable else w2.disable

/-- TC_CTL (R15, R112, R129). Background calibration that is enabled again goes on with the tile it was at (log entry 117);
a 0 written to CAL_FG during a foreground pass ends it. -/
def Worker.writeTcCtl (w : Worker) (v : Word) : Worker :=
  let w1 := w.setWord 0x200 (v &&& 0xFE0FFFFF)
  if F.TC_CTL_CAL_FG.of v = 1 then w1.calFg
  else if w1.b F.TC_STAT_FG_BUSY then w1.fgClear
  else w1.s F.TC_STAT_CAL_BUSY (if w1.b F.TC_STAT_INIT_DONE then F.TC_CTL_BGCAL_EN.of v else 0)

/-- The W1C bits of a worker register that hardware has set in this cycle: a write leaves them set (R15). -/
def Worker.hotOf (w : Worker) (a : Nat) : Word := AMap.get (always 0) w.hot a

/-- A write to a worker register (R15, R47, R48, R167, R168). The manager has judged roles before it sends the CMD
(R19), so every RWL field takes its value. -/
def Worker.writeReg (w : Worker) (tick a : Nat) (v : Word) : Worker :=
  match linkAddr a with
  | some (west, i) => w.portStep tick west (fun p => p.writeLink true .device tick i v)
  | none =>
    if 0x1000 ≤ a ∧ a < 0x5000 then w.writePixel tick (a - 0x1000) v
    else if 0x300 ≤ a ∧ a < 0x400 then
      let t := (a - 0x300) / 4
      match (a - 0x300) % 4 with
      | 0 => w.writeThr tick t v
      | 1 => w.writeAfe tick t v
      | 2 => w.setWord a (v &&& 0xFF)
      | _ => w.s (F.TILE_STAT_FIFO_HWM.ix 4 t) (w.tile t).fifo.length
    else match a with
    | 0x001 => w.writeGctl v
    | 0x006 => w.s F.WK_OQ_OQ_HWM w.out.oq.length
    | 0x009 => w.s F.WK_FWD_SLIP_HWM w.out.slip.length
    | 0x200 => w.writeTcCtl v
    | 0x205 => w.writeInj tick v
    | 0x208 => (w.tblWrite tick v).tblInc
    | 0x209 => if F.TC_SWAP_SWAP_GO.of v = 1 then w.swapGo (F.TC_SWAP_TILE.of v) else w.s F.TC_SWAP_TILE (F.TC_SWAP_TILE.of v)
    | _ =>
      match specAt wkrSpecs a with
      | some r => w.setWord a (writeWord r .device (w.word a) v ||| w.hotOf a)
      | none => w

/-- A read of a worker register: the value and the state after it; `ro` is what the ring oscillator counter shows
(R47, R48, R129, R130). -/
def Worker.readReg (w : Worker) (tick a ro : Nat) : Word × Worker :=
  match linkAddr a with
  | some (west, i) => ((w.port west).word true i, w)
  | none =>
    if 0x1000 ≤ a ∧ a < 0x5000 then (w.readPixel (a - 0x1000), w)
    else match a with
    | 0x006 => (F.WK_OQ_OQ_LEVEL.put (w.word a) w.out.oq.length, w)
    | 0x008 => (F.WK_MARK_MQ_LEVEL.put (w.word a) w.marks.queue.length, w)
    | 0x009 => (F.WK_FWD_SLIP_LEVEL.put (w.word a) w.out.slip.length, w)
    | 0x203 => w.cntLoRead tick
    | 0x208 => (BitVec.ofNat 32 w.tblRead, w.tblInc)
    | 0x20C => (BitVec.ofNat 32 (lowBits 16 ro), w)
    | _ => (match specAt wkrSpecs a with
      | some _ => w.word a
      | none => 0, w)

/-! ## Commands -/

/-- A command in forward-only fallback executes only on WK_FLAGS, WK_GCTL and the link registers (R234). -/
def fallbackWritable (a : Nat) : Bool := a == 0x003 || a == 0x001 || (linkAddr a).isSome

/-- The command was executed before, and its REPLY is stored (R215). -/
def Worker.storedReply (w : Worker) (b : Block) : Option Block :=
  (w.ctl.cmds.find? (fun c => c.seq == b.f 57 50 && c.wr == (b.f 106 106 == 1) && c.addr == b.f 105 90 && c.data == b.f 89 58)).map
    (fun c => c.reply)

/-- A REPLY or echo waits for its slot; `west` is the port its command came on (R211, R214, R220). -/
def Worker.queueReply (w : Worker) (west : Bool) (r : Block) : Worker :=
  w.modOut (fun o => { o with replies := o.replies ++ [⟨r, west⟩] })

/-- Keep the last 8 executed commands (R215). -/
def Worker.keepCmd (w : Worker) (b r : Block) : Worker :=
  let c : CmdRec := ⟨b.f 57 50, b.f 106 106 == 1, b.f 105 90, b.f 89 58, r⟩
  { w with ctl := { w.ctl with cmds := (c :: w.ctl.cmds).take 8 } }

/-- What the check of the protected word that a read addresses finds (R91, R127). -/
def Worker.readFinds (w : Worker) (tick a : Nat) (f : Finding) : Worker :=
  if 0x1000 ≤ a ∧ a < 0x5000 then
    match f with
    | .uncorrectable flips => w.cfgUe tick (a - 0x1000) flips
    | _ => w
  else if a = 0x208 then w.tblFound f
  else w

/-- The word that the indirect window selects holds an uncorrectable error (R127, R130). -/
def Worker.tblBad (w : Worker) : Bool :=
  let i := w.g F.TC_TBL_ADDR_INDEX
  match w.g F.TC_TBL_ADDR_TBL with
  | 0 => i % 1024 < 800 ∧ i / 1024 < 64 ∧ AMap.get (always false) w.tab.badBins (binKey (w.tile (i / 1024)).bank (i / 1024) (i % 1024))
  | 2 => i < 16384 ∧ AMap.get (always false) w.tab.badOfs i
  | _ => false

/-- The REPLY carries DATA_ERR: the word read holds an uncorrectable error (R91, R127, R216). -/
def Worker.readErr (w : Worker) (a : Nat) : Bool :=
  (decide (0x1000 ≤ a ∧ a < 0x5000) && F.PIX_ECC_ERR.of (w.cfg (a - 0x1000)) == 1) || (a == 0x208 && w.tblBad)

/-- A CMD has executed: its REPLY is kept and waits for its slot (R214, R215). -/
def Worker.replied (w : Worker) (west : Bool) (b : Block) (status data : Nat) : Worker :=
  let r := mkReply w.pos status (b.f 105 90) data (b.f 57 50)
  (w.keepCmd b r).queueReply west r

/-- Execute a CMD addressed to the worker (R214 to R216, R234). `find` is what the check of a protected word finds. -/
def Worker.execCmd (w : Worker) (tick ro : Nat) (west : Bool) (find : Finding) (b : Block) : Worker :=
  let a := b.f 105 90
  match w.storedReply b with
  | some r => w.queueReply west r
  | none =>
    if b.f 106 106 = 1 then
      let d := b.f 89 58
      if w.b F.WK_GSTAT_FWD_ONLY ∧ !fallbackWritable a then w.replied west b 3 d
      else (w.writeReg tick a (BitVec.ofNat 32 d)).replied west b 0 d
    else
      let w1 := w.readFinds tick a find
      let (v, w2) := w1.readReg tick a ro
      w2.replied west b (w1.readErr a).toNat v.toNat

/-- The next CMD on a port is executed (R214). -/
def Worker.cmdExecute (w : Worker) (tick ro : Nat) (west : Bool) (find : Finding) : Worker :=
  match w.takeDown tick west (fun b => b.is .cmd && b.pos != 0) with
  | some (b, w1) => w1.execCmd tick ro west find b
  | none => w

/-- The enumeration command, a CMD with POS 0 (R209 to R211). Blocks that waited to leave on the port that now serves are
no longer forwarded. -/
def Worker.enumerate (w : Worker) (tick : Nat) (west : Bool) : Worker :=
  if w.pos ≠ 0 then w
  else
    match w.takeDown tick west (fun b => b.is .cmd && b.pos == 0) with
    | none => w
    | some (b, w1) =>
      let d := b.f 89 58
      if b.f 106 106 = 1 ∧ b.f 105 90 = 0x00B ∧ 1 ≤ d ∧ d ≤ 16 then
        let w2 := ((w1.s F.WK_POS_POS d).s F.WK_POS_NEAR west.toNat).modPort west (fun p => { p with tx := { p.tx with queue := [] } })
        let w3 := { w2 with ctl := { w2.ctl with clock := some west, home := west } }
        w3.queueReply west (mkReply d 0 0x00B (w3.word 0x00B).toNat (b.f 57 50))
      else (w1.raise F.WK_FLAGS_CMD_ERR).queueReply west (mkReply 0 2 (b.f 105 90) d (b.f 57 50))

/-! ## Beacons, probes and time -/

/-- A difference of frame times as the signed distance on the counter's circle. -/
def circleDiff (x y : Int) : Int :=
  let c : Int := (800 * 2 ^ 48 : Nat)
  (x - y + c / 2) % c - c / 2

/-- A beacon counts as accepted (R260). -/
def Worker.beaconAccepted (w : Worker) (tick : Nat) : Worker :=
  { w with time := { w.time with lastBeacon := tick, missRaised := false } }

/-- A BEACON of form 0b00 (R257 to R260), used only when it came on the port that gives WCK (R258). `sub` is the arrival
within the tick, in fine LSBs. -/
def Worker.beacon (w : Worker) (tick : Nat) (west : Bool) (sub : Nat) : Worker :=
  match w.takeDown tick west (fun b => b.is .beacon && b.form == 0) with
  | none => w
  | some (b, w) =>
    let t : Int := w.now tick + sub
    let cnt : Int := 800 * b.f 103 56
    let a := circleDiff t cnt
    let adj := signedOf 20 (b.f 55 36)
    let set := b.f 104 104 = 1
    let all := b.pos = 0x1F
    let acc := fun (w : Worker) => w.beaconAccepted tick
    if w.ctl.clock ≠ some west then w
    else if set then
      if all ∨ w.running then w
      else
        let w1 := { w with time := { w.time with frame := w.time.frame + (cnt + adj - t), expect := adj, slew := 0, valid := true, slewFrom := tick } }
        acc (((w1.s F.WK_GSTAT_CNT_SET 1).raise F.WK_FLAGS_CNT_STEP).modOut (fun o => { o with timeRef := some 3 }))
    else if !all then
      if !w.b F.WK_GSTAT_CNT_SET then w
      else
        let p := w.time.slew + adj
        acc { w with time := { w.time with slew := p, expect := a + p, valid := true, slewFrom := if adj = 0 then w.time.slewFrom else tick } }
    else
      let d := (w.time.expect - w.time.slew) - a
      if !w.time.valid ∨ d.natAbs < 400 then acc w
      else acc (({ w with time := { w.time with frame := w.time.frame + d } }.raise F.WK_FLAGS_CNT_STEP).modOut
        (fun o => { o with timeRef := some 3 }))

/-- P moves toward 0 by one fine LSB every 4,096 cycles, and the frame with it (R257). -/
def Worker.slewStep (w : Worker) (tick : Nat) : Worker :=
  if w.time.slew = 0 ∨ tick < w.time.slewFrom + 4096 then w
  else
    let s : Int := if 0 < w.time.slew then 1 else -1
    { w with time := { w.time with slew := w.time.slew - s, frame := w.time.frame + s, slewFrom := w.time.slewFrom + 4096 } }

/-- No beacon accepted for 2²⁰ cycles (R260). -/
def Worker.beaconMiss (w : Worker) (tick : Nat) : Worker :=
  if w.time.missRaised ∨ tick < w.time.lastBeacon + 2 ^ 20 then w
  else ({ w with time := { w.time with missRaised := true } }).raise F.WK_FLAGS_BEACON_MISS

/-- A BEACON probe: the worker turns if it came on the far port, and returns an echo (R224, R262, R263). -/
def Worker.probe (w : Worker) (tick : Nat) (west : Bool) (sub : Nat) : Worker :=
  match w.takeDown tick west (fun b => b.is .beacon && b.form == 2) with
  | none => w
  | some (b, w1) =>
    let t := (w1.now tick + sub) % (800 * 2 ^ 48)
    w1.queueReply west (mkEcho w1.pos (b.f 103 88) (t / 800) (t % 800) 0)

/-- A time reference becomes pending once the count passes a multiple of 2¹⁸ (R143). -/
def Worker.timeRefDue (w : Worker) (tick : Nat) : Worker :=
  if w.pos = 0 ∨ w.coarse tick / 2 ^ 18 = w.coarse w.out.lastRef / 2 ^ 18 then w
  else w.modOut (fun o => { o with timeRef := some (o.timeRef.getD 0) })

/-- The newest streaming record has waited PAIR_WAIT block slots (R142). -/
def Worker.pairWait (w : Worker) (tick : Nat) : Worker :=
  match (w.out.oq.filter (fun e => !e.mark)).getLast? with
  | some e => if e.t0 + 8 * w.g F.WK_RDO_PAIR_WAIT ≤ tick then w.modOut (fun o => { o with pairReady := true }) else w
  | none => w

/-- The monitor period has passed (R163). -/
def Worker.monitorPeriod (w : Worker) (tick : Nat) : Worker :=
  if w.b F.WK_GCTL_MON_EN ∧ w.ctl.monFrom + 2 ^ (14 + w.g F.WK_RDO_MON_PER) ≤ tick then
    { w with out := { w.out with monitor := true }, ctl := { w.ctl with monFrom := tick } }
  else w

/-- A THROTTLE block (R159). -/
def Worker.throttleIn (w : Worker) (tick : Nat) (west : Bool) : Worker :=
  match w.takeDown tick west (fun b => b.is .throttle) with
  | some (b, w1) => w1.throttle (b.f 106 99)
  | none => w

/-- A TRIM block (R161). -/
def Worker.trimIn (w : Worker) (tick : Nat) (west : Bool) (fs : List Finding) : Worker :=
  match w.takeDown tick west (fun b => b.is .trim) with
  | some (b, w1) => w1.trimBlock tick b fs
  | none => w

/-- A MARK block (R146). -/
def Worker.markIn (w : Worker) (tick : Nat) (west : Bool) : Worker :=
  match w.takeDown tick west (fun b => b.is .mark) with
  | some (b, w1) => w1.markReceived tick west b
  | none => w

/-! ## Clock, holds and resets -/

/-- Until it is enumerated a worker takes WCK from the first receiver to reach LOCKED, or from the east one if both have one
block time, 8 cycles, later (R209). -/
def Worker.wckSelect (w : Worker) (tick : Nat) : Worker :=
  let take := fun west => { w with ctl := { w.ctl with clock := some west } }
  if w.pos ≠ 0 ∨ w.ctl.clock.isSome then w
  else
    match w.ctl.lockEast, w.ctl.lockWest with
    | none, none => w
    | some e, none => if tick < e + 8 then w else take false
    | none, some x => if tick < x + 8 then w else take true
    | some e, some x => if tick < min e x + 8 then w else take (decide (x + 8 < e))

/-- A worker releases a hold it carries when its serving port has had no downstream control block other than IDLE for
2¹³ cycles (R223). -/
def Worker.holdRelease (w : Worker) (tick : Nat) (west : Bool) : Worker :=
  if tick < w.ctl.lastDown + 8192 then w else w.portStep tick west (fun p => p.setSvc true tick true)

/-- The old side has completed: EPOCH_END leaves with the old epoch (R225). -/
def Worker.epochEnd (w : Worker) : Worker :=
  match w.ctl.old with
  | some o => if w.pktOn o.west = none ∧ o.blocks = [] ∧ o.fwd = none ∧ (w.port o.west).segUp true then w.oldSlot o else w
  | none => w

/-- The worker serves a port with no turn: NEAR and the source of WCK follow, and no epoch ends (R220). -/
def Worker.serveSide (w : Worker) (west : Bool) : Worker :=
  let w1 := w.s F.WK_POS_NEAR west.toNat
  { w1 with ctl := { w1.ctl with clock := some west } }

/-- A single-worker loop serves both ports while both segments are in service and carry IDLE of manager worker ports, with
WCK from the port that faces 2n; it serves the other alone when one leaves service (R220). -/
def Worker.servesBoth (w : Worker) : Worker :=
  if w.pos = 1 ∧ w.east.segUp true ∧ w.west.segUp true ∧ w.east.farSide = 2 ∧ w.west.farSide = 2 then
    let w1 := { w with ctl := { w.ctl with both := true } }
    if w.near = w.ctl.home then w1 else w1.serveSide w.ctl.home
  else if w.ctl.both then
    let w1 := ({ w with ctl := { w.ctl with both := false } }).modOut (fun o => { o with owed := none })
    if !(w.port w.near).segUp true ∧ (w.port (!w.near)).segUp true then w1.serveSide (!w.near) else w1
  else w

/-- A grid that was slewing has reached its new position (R522). -/
def Worker.gridEnd (w : Worker) (tick : Nat) (west : Bool) : Worker := w.modPort west (fun p => p.gridEnd tick)

/-- Both receivers have been out of LOCKED for 20 ms (R499). -/
def Worker.linkLost (w : Worker) (tick : Nat) : Bool :=
  !w.east.locked && !w.west.locked && w.east.rx.huntFrom + 12800000 ≤ tick && w.west.rx.huntFrom + 12800000 ≤ tick

/-- The pixel configuration words of a register file. -/
def keepPixels (m : RegFile) : RegFile := m.filter (fun (a, _) => 0x1000 ≤ a ∧ a < 0x5000)

/-- A port after a reset of its device: what its pins receive does not change with it. -/
def Port.afterReset (wk : Bool) (p : Port) : Port :=
  if p.los then Port.init else { Port.init.s wk F.LNK_STAT_LOS 0 with los := false }

/-- The latches of idle pixels hold the configuration words that a reset keeps (R87, R499). -/
def keptLatches (m : RegFile) : AMap Pixel :=
  m.foldl (fun l e => AMap.set (always Pixel.init) l (e.1 - 0x1000) { Pixel.init with latch := e.2 }) []

/-- A link-loss reset keeps the pixel words and the tables, with the active bank of each tile, and does not repeat their
initialisation; background calibration starts at tile 0 (R128, R499). -/
def Worker.linkLossReset (w : Worker) : Worker :=
  let kept := keepPixels w.regs
  let done := w.g F.TC_STAT_INIT_DONE
  let w1 : Worker := { Worker.init with
    regs := kept, tab := w.tab, pixels := keptLatches kept,
    tiles := AMap.mapV (always Tile.init) w.tiles (fun x => { Tile.init with bank := x.bank }),
    ctl := { Worker.init.ctl with calIn := w.ctl.calIn },
    east := w.east.afterReset true, west := w.west.afterReset true }
  ((w1.s F.TC_STAT_INIT_DONE done).s F.TC_STAT_CAL_BUSY done).calRound

/-- A worker held in reset, or without supply: as after its power-on reset (R499, R501). Its pins stay as they are driven. -/
def Worker.heldReset (w : Worker) (powered : Bool) : Worker :=
  { Worker.init with
    ctl := { Worker.init.ctl with powered := powered, inReset := true, calIn := w.ctl.calIn },
    east := w.east.afterReset true, west := w.west.afterReset true }

end Sys2Proof
end

