-- ==== Sys2Proof/Machine/Chip.lean ====
section
/-!
DEFINITION. Machine/Chip.lean: the chipset without its bias interlock: the manager AM1K and its workers AW16K.
-/
namespace Sys2Proof

/-- The manager and its workers (R22 to R56). -/
structure Chip where
  /-- MCK cycles since power-up; WCK is recovered from MCK, so it is every worker's cycle too (R38, R39). -/
  tick : Nat
  /-- The number of free values taken so far. -/
  freeIx : Nat
  /-- Worker k of pair n sits in slot 16n + k − 1 (R36). -/
  workers : AMap Worker
  /-- The manager's registers, by address, other than link registers. -/
  regs : RegFile
  /-- The W1C bits of the manager's registers that hardware has set in the present MCK cycle (R15). -/
  hot : AMap Word
  /-- Ports 0 to 127, PEER0 as 128 and PEER1 as 129 (R45). -/
  ports : AMap Port
  eng : AMap Engine
  pairs : AMap Pair
  slots : AMap SlotX
  evt : EvtState
  log : LogState
  mer : Mer
  que : Que
  rose : Rose
  wake : Wake
  egr : Egr
  int : Integ
  hk : Hk
  nvm : Nvm
  mgt : Mgt
  pwr : Pwr
  /-- The working copy of the Chart; empty when there is none (R370). -/
  work : Image
  /-- The trim-set slot of the non-volatile memory; empty when there is none (R475). -/
  trim : Image
  bus : BusRes
  deriving DecidableEq, Repr

end Sys2Proof
end

