-- ==== Sys2Proof/Machine/ChipOps.lean ====
section
/-!
DEFINITION. Machine/ChipOps.lean: the named operations on the manager's state that every family uses: register
fields, ports, slots, workers, Meridian time, events (R479 to R481) and Logbook records (R483, R485).
-/
namespace Sys2Proof

/-! ## Registers -/

/-- A register field of the manager. -/
def Chip.g (c : Chip) (f : Fld) : Nat := RegFile.get mgrReset c.regs f

/-- A one-bit register field of the manager. -/
def Chip.b (c : Chip) (f : Fld) : Bool := c.g f ≠ 0

/-- Set a register field of the manager. -/
def Chip.s (c : Chip) (f : Fld) (n : Nat) : Chip := { c with regs := RegFile.set mgrReset c.regs f n }

/-- Hardware sets a W1C bit: a write that clears it in the same MCK cycle leaves it set (R15). -/
def Chip.latch (c : Chip) (f : Fld) : Chip :=
  { c.s f 1 with hot := AMap.upd (always 0) c.hot f.reg (fun m => m ||| BitVec.ofNat 32 f.mask) }

/-- The bits of a register that hardware has set in the present MCK cycle (R15). -/
def Chip.hotOf (c : Chip) (a : Nat) : Word := AMap.get (always 0) c.hot a

/-- Advance a saturating counter field. -/
def Chip.sat (c : Chip) (f : Fld) (n : Nat := 1) : Chip := { c with regs := RegFile.sat mgrReset c.regs f n }

/-- Advance a wrapping counter field. -/
def Chip.wrap (c : Chip) (f : Fld) (n : Nat := 1) : Chip := { c with regs := RegFile.wrap mgrReset c.regs f n }

/-- A register word as stored. -/
def Chip.word (c : Chip) (a : Nat) : Word := AMap.get mgrReset c.regs a

/-- Set a register word. -/
def Chip.setWord (c : Chip) (a : Nat) (v : Word) : Chip := { c with regs := AMap.set mgrReset c.regs a v }

/-- Raise a counter field to a level it has not reached before (the HWM fields). -/
def Chip.high (c : Chip) (f : Fld) (n : Nat) : Chip := if c.g f < n then c.s f n else c

/-- A value the manual does not state, of `w` bits; the next one is another. -/
def Chip.free (c : Chip) (w : Nat) : Nat × Chip := (lowBits w (Config.freeBits c.freeIx), { c with freeIx := c.freeIx + 1 })

/-! ## Ports, pairs, slots, workers -/

def Chip.port (c : Chip) (p : Nat) : Port := AMap.get (always Port.init) c.ports p
def Chip.setPort (c : Chip) (p : Nat) (x : Port) : Chip := { c with ports := AMap.set (always Port.init) c.ports p x }
def Chip.engine (c : Chip) (p : Nat) : Engine := AMap.get (always Engine.init) c.eng p
def Chip.setEngine (c : Chip) (p : Nat) (x : Engine) : Chip := { c with eng := AMap.set (always Engine.init) c.eng p x }
def Chip.pair (c : Chip) (n : Nat) : Pair := AMap.get (always Pair.init) c.pairs n
def Chip.setPair (c : Chip) (n : Nat) (x : Pair) : Chip := { c with pairs := AMap.set (always Pair.init) c.pairs n x }
def Chip.slot (c : Chip) (k : Nat) : SlotX := AMap.get (always SlotX.init) c.slots k
def Chip.setSlot (c : Chip) (k : Nat) (x : SlotX) : Chip := { c with slots := AMap.set (always SlotX.init) c.slots k x }
def Chip.modSlot (c : Chip) (k : Nat) (f : SlotX → SlotX) : Chip := c.setSlot k (f (c.slot k))
def Chip.modPair (c : Chip) (n : Nat) (f : Pair → Pair) : Chip := c.setPair n (f (c.pair n))
def Chip.hop (c : Chip) (i : Nat) : Hop := AMap.get (always Hop.init) c.mer.hops i
def Chip.modMer (c : Chip) (f : Mer → Mer) : Chip := { c with mer := f c.mer }

/-- A field of PRT_SLOT of a slot, which lies in the even port's window (R239). -/
def slotFld (f : Fld) (slot : Nat) : Fld := (f.at (windowBase (2 * (slot / 16)))).ix 4 (slot % 16)

/-- A field of a pair register, in the even port's window (R238). -/
def pairFld (f : Fld) (n : Nat) : Fld := f.at (windowBase (2 * n))

/-- A field of a command register of a port (R238). -/
def portFld (f : Fld) (p : Nat) : Fld := f.at (windowBase p)

def Chip.sg (c : Chip) (f : Fld) (slot : Nat) : Nat := c.g (slotFld f slot)
def Chip.ss (c : Chip) (f : Fld) (slot n : Nat) : Chip := c.s (slotFld f slot) n

/-- Slot states (R239). -/
def stNotListed : Nat := 0
def stUnseen : Nat := 1
def stMismatch : Nat := 2
def stReady : Nat := 3
def stRunning : Nat := 4
def stFwdOnly : Nat := 5
def stCutOff : Nat := 6
def stLost : Nat := 7

/-- A worker out of 1,024. -/
def Chip.worker (c : Chip) (k : Nat) : Worker := AMap.get (always Worker.init) c.workers k

/-- Set a worker. -/
def Chip.setWorker (c : Chip) (k : Nat) (w : Worker) : Chip := { c with workers := AMap.set (always Worker.init) c.workers k w }

/-- A worker takes a step of its own: only one with supply, out of reset (R499). -/
def Chip.modW (c : Chip) (k : Nat) (f : Worker → Worker) : Chip :=
  let w := c.worker k
  if w.ctl.powered ∧ !w.ctl.inReset then c.setWorker k (f w) else c

/-! ## Meridian time -/

/-- Meridian time in SUBNS LSBs since the epoch (R240, R241). -/
def Chip.sub (c : Chip) : Nat := ((1600 : Int) * c.tick + c.mer.ofs).toNat

/-- The Meridian count K (R241). -/
def Chip.kcount (c : Chip) : Nat := c.sub / 1600

/-- Meridian time in fine LSBs (R242). -/
def Chip.fine (c : Chip) : Nat := c.sub / 2

/-- One second in SUBNS LSBs. -/
def subSec : Nat := 1024000000000

/-- SEC, NS and SUBNS of a time (R240). -/
def secOf (t : Nat) : Nat := t / subSec
def nsOf (t : Nat) : Nat := t % subSec / 1024
def subnsOf (t : Nat) : Nat := t % 1024

/-- The time SEC, NS, SUBNS name (R241). -/
def timeOf (sec ns sub : Nat) : Nat := (sec * 1000000000 + ns) * 1024 + sub

/-- The EBOUND code of a bound in ps: the least e from 1 to 255 with bound ≤ 2^((e − 1) / 8), or 0, unknown, for a bound
that no code reaches (R243; DEDUCED, log entry 122). -/
def eboundCode (bound : Nat) : Nat :=
  let x := bound ^ 8
  let l := if x ≤ 1 then 0 else (x - 1).log2 + 1
  if 1 + l ≤ 255 then 1 + l else 0

/-- The error bound in reckoning, in ps (R246): the bound at entry, and (HOLD_FREQ + 1 ppb) × the time since; HOLD_FREQ
is in 0.1 ppb and an MCK cycle is 1,562.5 ps. -/
def Chip.reckBound (c : Chip) : Nat :=
  c.mer.boundAt + (c.tick - c.mer.reckFrom) * 15625 * (c.g F.MER_HOLD_HOLD_FREQ + 10) / 100000000000

/-- EBOUND (R243, R244, R246): 0 while lost, the bound of R246 in reckoning; the bound in fix is not stated. -/
def Chip.ebound (c : Chip) : Nat :=
  match c.g F.MER_STAT_STATE with
  | 0 => 0
  | 1 => eboundCode c.reckBound
  | _ => c.g F.MER_STAT_EBOUND

/-- A Meridian stamp of a time (R243). -/
def Chip.stampAt (c : Chip) (t : Nat) : Nat :=
  at_ 127 64 (secOf t) + at_ 63 34 (nsOf t) + at_ 33 24 (subnsOf t) + at_ 23 21 (c.g F.MER_STAT_SRC) + at_ 20 19 (c.g F.MER_STAT_STATE)
    + at_ 18 18 (c.g F.MER_STAT_SLEW) + at_ 17 17 (c.g F.MER_STAT_SEC_SET) + at_ 16 16 (c.g F.MER_STAT_MU) + at_ 15 8 c.ebound

/-- The Meridian stamp now (R243). -/
def Chip.stamp (c : Chip) : Nat := c.stampAt c.sub

/-- Meridian is in fix, reckoning or lost (R243). -/
def Chip.inFix (c : Chip) : Bool := c.g F.MER_STAT_STATE = 2
def Chip.isLost (c : Chip) : Bool := c.g F.MER_STAT_STATE = 0

/-- A run is enabled (R379). -/
def Chip.run (c : Chip) : Bool := c.b F.GBL_CTL_RUN_EN

/-- Ticks of a microsecond, a millisecond and a second (R38). -/
def usTicks : Nat := 640
def msTicks : Nat := 640000
def sTicks : Nat := 640000000

/-! ## Role context, Logbook, events -/

/-- The role in context (R469, R490). -/
def Chip.role (c : Chip) : Role :=
  match c.g F.MGT_ROLE_ROLE with
  | 1 => .operator | 2 => .installer | 3 => .maker | _ => .none

/-- The fingerprint in context (R490). -/
def Chip.roleFp (c : Chip) : Nat := c.g F.MGT_ROLE_FP_HI_FP * 2 ^ 32 + c.g F.MGT_ROLE_FP_LO_FP

/-- The record kinds (R483). -/
def kEvent : Nat := 1
def kChange : Nat := 2
def kRefusal : Nat := 3
def kAuto : Nat := 4
def kCheck : Nat := 5
def kBoot : Nat := 6
def kMemFail : Nat := 7
def kCore : Nat := 8

/-- The record made of what a writer gives: it takes the next SEQ and the present counts and stamp (R483). -/
def Chip.sealRec (c : Chip) (w : LogWait) : LogRec :=
  ⟨c.log.nextSeq, c.log.optime, c.log.pcyc, if c.inFix then c.stamp else 0, w.kind, w.role, w.code, w.keyfp, w.data⟩

/-- The write queue holds 64 records (R485). -/
def logQueueMax : Nat := 64

/-- Put a record into the write queue (R485): with no room an event record is dropped, any other waits. -/
def Chip.logPut (c : Chip) (w : LogWait) : Chip :=
  if c.log.waiting = [] ∧ c.log.queue.length < logQueueMax then
    let r := c.sealRec w
    { c with log := { c.log with queue := c.log.queue ++ [r], nextSeq := c.log.nextSeq + 1 } }
  else if w.kind = kEvent then (c.sat F.LOG_STAT_DROP_CNT).latch F.LOG_STAT_DROP
  else { c with log := { c.log with waiting := c.log.waiting ++ [w] } }

/-- A record of the role and fingerprint in context (R483). -/
def Chip.logCtx (c : Chip) (kind code data : Nat) : Chip := c.logPut ⟨kind, c.role.code, code, c.roleFp, data⟩

/-- A record of the device's own (R218, R482). -/
def Chip.logDev (c : Chip) (kind code data : Nat) : Chip := c.logPut ⟨kind, 0, code, 0, data⟩

/-- An autonomous action (R483): slot or port, before, after. -/
def Chip.logAuto (c : Chip) (code who before after : Nat) : Chip :=
  c.logDev kAuto code (at_ 159 128 who + at_ 127 64 before + at_ 63 0 after)

/-- A check result (R483): DETAIL, and 16 bytes of state the manual does not state; the device's own or of the context. -/
def Chip.logCheck (c : Chip) (dev : Bool) (code detail : Nat) : Chip :=
  let (x, c1) := c.free 128
  if dev then c1.logDev kCheck code (at_ 159 128 detail + x) else c1.logCtx kCheck code (at_ 159 128 detail + x)

/-- Field EVT_ROUTE of an event. -/
def evtFld (f : Fld) (e : Nat) : Fld := f.ix 4 e

/-- An event occurs (R479 to R481): DETAIL is latched, PEND sets, COUNT and LAST follow; an event routed to LOG or HELM
is owed a record or a notification, and TRIG_EVT an urgent trigger (R430). -/
def Chip.event (c : Chip) (e d : Nat) : Chip :=
  let c1 := ((c.latch (evtFld F.EVT_ROUTE_PEND e)).sat (evtFld F.EVT_ROUTE_COUNT e)).s (evtFld F.EVT_DETAIL_DETAIL e) d
  let c2 := c1.s F.EVT_CTL_LAST e
  let log := c2.b (evtFld F.EVT_ROUTE_LOG e) ∨ (224 ≤ e ∧ e < 240)
  let helm := c2.b (evtFld F.EVT_ROUTE_HELM e)
  let since := if log then AMap.upd (always 0) c2.evt.since e (· + 1) else c2.evt.since
  let subs := if helm then c2.evt.subs.map (fun s => if bitOf s.mask (e / 16) then { s with due := AMap.upd (always 0) s.due e (· + 1) } else s)
    else c2.evt.subs
  let trig : Bool := c2.evt.trig || (c2.b F.HK_INJ_EVT_EN && c2.g F.HK_INJ_TRIG_EVT == e)
  { c2 with evt := { c2.evt with since := since, subs := subs, trig := trig } }

/-- A W1C bit sets with its event: the event occurs whether or not the bit was set already (R479). -/
def Chip.flag (c : Chip) (f : Fld) (e d : Nat) : Chip := (c.latch f).event e d

/-- The CORE interrupt line (R481): some event with CORE routing is pending and IRQ_EN is 1. -/
def Chip.irq (c : Chip) : Bool :=
  c.b F.EVT_CTL_IRQ_EN && (List.range 256).any (fun e => c.b (evtFld F.EVT_ROUTE_PEND e) && c.b (evtFld F.EVT_ROUTE_CORE e))

end Sys2Proof
end

