-- ==== Sys2Proof/Machine/Loops.lean ====
section
/-!
DEFINITION. Machine/Loops.lean: the loop controller and the command engines of the manager: positions and enumeration
(R208 to R212), commands and replies (R213 to R218, R19, R165), holds (R221 to R223), moves of the split point (R228
to R232), placement epochs (R235, R236) and the split policy (R237).
-/
namespace Sys2Proof

/-! ## Topology -/

def Chip.pairCfg (c : Chip) (n : Nat) : Nat := c.g (pairFld F.PRT_LOOP_CFG_CFG n)
def Chip.nEven (c : Chip) (n : Nat) : Nat := c.g (pairFld F.PRT_LOOP_CFG_N_EVEN n)
def Chip.nOdd (c : Chip) (n : Nat) : Nat := c.g (pairFld F.PRT_LOOP_CFG_N_ODD n)
def Chip.isLoop (c : Chip) (n : Nat) : Bool := c.pairCfg n = 1
def Chip.split (c : Chip) (n : Nat) : Nat := c.g (pairFld F.PRT_LOOP_STAT_SPLIT n)

/-- The port of a pair has a chain: as loop end or as a spur (R22). -/
def Chip.portUsed (c : Chip) (p : Nat) : Bool :=
  match c.pairCfg (p / 2) with
  | 1 | 4 => true
  | 2 => p % 2 == 0
  | 3 => p % 2 == 1
  | _ => false

/-- The workers of the chain seen from a port: a loop's, up to 16, or the spur's, up to 8 (R22, R36). -/
def Chip.chainLen (c : Chip) (p : Nat) : Nat :=
  let n := p / 2
  match c.pairCfg n with
  | 1 => min 16 (c.nEven n)
  | 2 => if p % 2 = 0 then min 8 (c.nEven n) else 0
  | 3 => if p % 2 = 1 then min 8 (c.nOdd n) else 0
  | 4 => min 8 (if p % 2 = 0 then c.nEven n else c.nOdd n)
  | _ => 0

/-- The slot of position `k` on the chain of a port (R36). -/
def Chip.slotAt (c : Chip) (p k : Nat) : Option Nat :=
  if 1 ≤ k ∧ k ≤ c.chainLen p then
    let n := p / 2
    some (if c.isLoop n ∨ p % 2 = 0 then 16 * n + k - 1 else 16 * n + 7 + k)
  else none

/-- The cabling position of a slot's worker on its chain (R36). -/
def Chip.posOf (c : Chip) (slot : Nat) : Nat :=
  let n := slot / 16
  let k := slot % 16
  if c.isLoop n then k + 1 else if k < 8 then k + 1 else k - 7

/-- The slot lies on the odd port's spur. -/
def Chip.onOddSpur (c : Chip) (slot : Nat) : Bool := !c.isLoop (slot / 16) && 8 ≤ slot % 16

/-- The slots of a port's chain, in ascending position. -/
def Chip.chainSlots (c : Chip) (p : Nat) : List Nat :=
  (List.range (c.chainLen p)).filterMap (fun i => c.slotAt p (i + 1))

/-- The slot's worker has been enumerated: it has a position (R239). -/
def Chip.enumerated (c : Chip) (slot : Nat) : Bool := c.sg F.PRT_SLOT_POS slot ≠ 0

/-- The manager port that serves a slot, if one does (R26, R239). -/
def Chip.servePort (c : Chip) (slot : Nat) : Option Nat :=
  let n := slot / 16
  match c.sg F.PRT_SLOT_SERVE slot with
  | 0 => some (2 * n)
  | 1 => some (2 * n + 1)
  | 2 => some (2 * n)
  | _ => none

/-- The enumerated slots that a port serves: its half-loop or spur, in ascending position (R19, R213). -/
def Chip.served (c : Chip) (p : Nat) : List Nat :=
  (c.chainSlots p).filter (fun s => c.enumerated s && (c.servePort s == some p || c.sg F.PRT_SLOT_SERVE s == 2))

/-! ## Ports -/

/-- The kind of a manager port (R521). -/
def Chip.kindOf (c : Chip) (p : Nat) : PortKind := if p < 128 then .mgrWorker else .mgrPeer (c.g F.MER_CTL_ROLE = 0)

/-- A manager port's segment is in service (R183). -/
def Chip.up (c : Chip) (p : Nat) : Bool := (c.port p).segUp false

/-- DETAIL of a port (R480). -/
def portDetail (p : Nat) : Nat := if p < 128 then p else p - 128

/-- The manager events of a port's change (R479, banks 2). -/
def Chip.portEvent (p : Nat) (c : Chip) (e : PortEv) : Chip :=
  let ev := fun n => c.event n (portDetail p)
  match e with
  | .lockLost => if p < 128 then ev 32 else ev 40
  | .noLock => ev 33
  | .testFail => ev 34
  | .inService => if p < 128 then ev 35 else ev 41
  | .leftService => c
  | .eqClamp => ev 36
  | .pktErr => ev 37
  | .ctlErr => ev 38
  | .testOut => ev 39

/-- A port's waiting blocks are dropped once its segment is out of service: a port out of service sends none of them
(R183), and none is kept for its return (R32, R54; DEDUCED, log entry 120). -/
def Port.dropWaiting (p : Port) : Port :=
  if p.segUp false then p else { p with tx := { p.tx with queue := [], pass := [] } }

/-- Change a manager port and raise what its change reports. -/
def Chip.portStep (c : Chip) (p : Nat) (f : Port → Port) : Chip :=
  let a := c.port p
  let b := f a
  (portEvents false a b).foldl (Chip.portEvent p) (c.setPort p b.dropWaiting)

/-- A block waits at a manager port for its slot (R40); a port out of service takes none (R183, log entry 120). -/
def Chip.queueOn (c : Chip) (p : Nat) (b : Block) : Chip :=
  let x := c.port p
  if x.segUp false then c.setPort p { x with tx := { x.tx with queue := x.tx.queue ++ [b] } } else c

/-- A position is held back by the move in progress: the workers that change side (R228 step 2, R229 step 1). -/
def MoveSt.holds (m : MoveSt) (pos : Nat) : Bool := min m.src m.dst < pos && pos ≤ max m.src m.dst

/-- Blocks for a slot are held back (R228, R229). -/
def Chip.heldBack (c : Chip) (slot : Nat) : Bool :=
  match (c.pair (slot / 16)).move with
  | some m => c.isLoop (slot / 16) && m.holds (c.posOf slot)
  | none => false

/-- A MARK, TRIM, THROTTLE or CMD block for a slot: held back during a move, or sent on the port that serves it. -/
def Chip.toSlot (c : Chip) (slot : Nat) (b : Block) : Chip :=
  if c.heldBack slot then
    c.modPair (slot / 16) (fun p => { p with held := p.held ++ [⟨c.posOf slot, false, b⟩] })
  else match c.servePort slot with
    | some p => c.queueOn p b
    | none => c

/-- A broadcast block of a port: a planned move of the pair holds it back (R228). -/
def Chip.toAll (c : Chip) (p : Nat) (b : Block) : Chip :=
  match (c.pair (p / 2)).move with
  | some m => if m.failOver then c.queueOn p b
    else c.modPair (p / 2) (fun x => { x with held := x.held ++ [⟨0x1F, p % 2 = 1, b⟩] })
  | none => c.queueOn p b

/-! ## Command engine -/

/-- RETRY and REPLY_TO of a port (R238): 0 µs is taken as 1. -/
def Chip.retry (c : Chip) (p : Nat) : Nat := c.g (portFld F.PRT_CMD_TIM_RETRY p)
def Chip.replyTo (c : Chip) (p : Nat) : Nat := usTicks * max 1 (c.g (portFld F.PRT_CMD_TIM_REPLY_TO p))

/-- The slot whose SEQ counter a command uses: the slot it addresses, or one counter a port for broadcasts. -/
def Chip.seqKey (c : Chip) (p : Nat) (o : CmdOut) : Nat :=
  let pos := match o.tag with
    | .enum k => k
    | _ => o.pos
  match c.slotAt p pos with
  | some s => s
  | none => 2048 + p

/-- The engine has room: at most 16 outstanding, at most 4 to one worker (R213). -/
def Engine.room (e : Engine) (pos : Nat) : Bool :=
  e.out.length < 16 && (e.out.filter (fun o => o.pos == pos)).length < 4

/-- A command of this kind waits while its worker changes side; the others are the loop controller's own work on the move
and on links. -/
def CmdTag.movable : CmdTag → Bool
  | .prt | .own | .trim _ | .gstat | .wkId | .maskRead _ | .pgRead => true
  | _ => false

/-- The block of a command. -/
def CmdOut.block (o : CmdOut) : Block := mkCmd o.pos o.wr o.addr o.data o.seq

/-- Send the block of a command: to its slot, to the half-loop, or straight out of the port for an enumeration
command and the loop controller's own work on links. -/
def Chip.cmdBlock (c : Chip) (p : Nat) (o : CmdOut) : Chip :=
  if !o.tag.movable then c.queueOn p o.block
  else if o.pos = 0x1F then c.toAll p o.block
  else match c.slotAt p o.pos with
    | some s => if c.heldBack s then c.toSlot s o.block else c.queueOn p o.block
    | none => c.queueOn p o.block

/-- The command is held back by the move in progress: it has not been sent yet, or not to where its worker is now (R228,
R229). -/
def Chip.cmdHeld (c : Chip) (p : Nat) (o : CmdOut) : Bool :=
  o.tag.movable && (if o.pos = 0x1F then (match (c.pair (p / 2)).move with
      | some m => !m.failOver
      | none => false)
    else match c.slotAt p o.pos with
      | some s => c.heldBack s
      | none => false)

/-- Send the block of a command again (R213): to a worker that has been turned since, through the port that serves it
now (DEDUCED, log entry 35). -/
def Chip.cmdAgain (c : Chip) (p : Nat) (o : CmdOut) : Chip :=
  match c.slotAt p o.pos with
  | some s =>
    match c.servePort s with
    | some q => if q / 2 = p / 2 then c.cmdBlock q o else c.cmdBlock p o
    | none => c.cmdBlock p o
  | none => c.cmdBlock p o

/-- Start a command of a port's engine: it takes the next SEQ and is sent, or waits for room (R213). -/
def Chip.cmdSend (c : Chip) (p : Nat) (o : CmdOut) : Chip :=
  let e := c.engine p
  if !e.room o.pos then c.setEngine p { e with wait := e.wait ++ [o] }
  else
    let k := c.seqKey p o
    let q := (c.slot k).seq
    let o1 := { o with seq := q, tries := 1, due := c.tick + c.replyTo p }
    let c1 := (c.modSlot k (fun s => { s with seq := (q + 1) % 256 })).setEngine p { e with out := e.out ++ [o1] }
    c1.cmdBlock p o1

/-- A command not yet sent. -/
def mkOut (pos : Nat) (wr : Bool) (addr data : Nat) (tag : CmdTag) : CmdOut := ⟨pos, wr, addr, data, 0, 0, 0, tag⟩

/-- Commands that waited for room are sent while there is room. -/
def Chip.cmdPump (c : Chip) (p : Nat) : Chip :=
  let e := c.engine p
  e.wait.foldl (fun c o => c.cmdSend p o) (c.setEngine p { e with wait := [] })

/-- Remove an outstanding command, and let a waiting one go. -/
def Chip.cmdDone (c : Chip) (p : Nat) (o : CmdOut) : Chip :=
  let e := c.engine p
  (c.setEngine p { e with out := e.out.erase o }).cmdPump p

/-- A command of the loop controller to a slot's worker, through the port that serves it (R218). -/
def Chip.ownCmd (c : Chip) (slot : Nat) (wr : Bool) (addr data : Nat) (tag : CmdTag) : Chip :=
  match c.servePort slot with
  | some p => c.cmdSend p (mkOut (c.posOf slot) wr addr data tag)
  | none => c

/-! ## Segments known to be out of service (R229) -/

/-- The name of segment h of a chain in its pair's list. -/
def Chip.segKey (c : Chip) (p h : Nat) : Nat := if c.isLoop (p / 2) ∨ p % 2 = 0 then h else 32 + h

/-- A segment is known to be out of service. -/
def Chip.segFailed (c : Chip) (n key : Nat) : Bool := (c.pair n).failed.any (fun f => f.1 == key)

/-- The loop controller learns that a segment is out of service. -/
def Chip.segOut (c : Chip) (n key : Nat) : Chip :=
  if c.segFailed n key then c else c.modPair n (fun p => { p with failed := p.failed ++ [(key, c.tick)] })

/-- The loop controller learns that a segment is back. -/
def Chip.segIn (c : Chip) (n key : Nat) : Chip := c.modPair n (fun p => { p with failed := p.failed.filter (fun f => f.1 ≠ key) })

/-- Segment h of the chain of a port carries traffic as far as the loop controller knows: it is neither known to be out
of service nor held. -/
def Chip.segGood (c : Chip) (p h : Nat) : Bool :=
  !c.segFailed (p / 2) (c.segKey p h) && !(c.isLoop (p / 2) && (c.pair (p / 2)).heldSegs.contains h)

/-- The path from a port to position k of its chain is in service (R212). -/
def Chip.reaches (c : Chip) (p k : Nat) : Bool :=
  let hs := if c.isLoop (p / 2) ∧ p % 2 = 1 then (List.range (c.nEven (p / 2) + 1 - k)).map (k + ·) else List.range k
  c.up p && hs.all (c.segGood p)

/-! ## Holds (R221 to R223) -/

/-- LNK_CTL of the worker's port that faces a segment of its loop (R206, R219, R262): worker k has segment k − 1 before
it and segment k behind it. -/
def Chip.facing (c : Chip) (slot h : Nat) : Nat :=
  let k := c.posOf slot
  let nearSeg := if c.sg F.PRT_SLOT_SERVE slot = 1 ∧ c.isLoop (slot / 16) then k else k - 1
  let west := if h = nearSeg then c.sg F.PRT_SLOT_NEAR slot = 1 else c.sg F.PRT_SLOT_NEAR slot = 0
  if west then 0x110 else 0x100

/-- Write SVC_EN at one end of segment h of a loop: node h or node h + 1 (R221, R262). -/
def Chip.svcAt (c : Chip) (n node h : Nat) (v : Bool) : Chip :=
  let len := c.nEven n
  if node = 0 then c.portStep (2 * n) (fun p => p.setSvc false c.tick v)
  else if node = len + 1 then c.portStep (2 * n + 1) (fun p => p.setSvc false c.tick v)
  else
    let slot := 16 * n + node - 1
    c.ownCmd slot false (c.facing slot h) 0 (.svcRead v)

/-- Hold or release both ends of a segment (R221). -/
def Chip.holdSeg (c : Chip) (n h : Nat) (v : Bool) : Chip :=
  let c1 := (c.svcAt n h h (!v)).svcAt n (h + 1) h (!v)
  c1.modPair n (fun p => { p with heldSegs := if v then (p.heldSegs.erase h) ++ [h] else p.heldSegs.erase h })

/-- The held segments at a slot's worker, as the LNK_CTL addresses that face them (R223). -/
def Chip.holdsAt (c : Chip) (slot : Nat) : List Nat :=
  let k := c.posOf slot
  ((c.pair (slot / 16)).heldSegs.filter (fun h => h = k ∨ h + 1 = k)).map (c.facing slot)

/-- Every 3.2 µs: a CMD read of each held port's LNK_CTL on a worker that carries a hold (R223). Of a held end that
faces a LOST worker LNK_STAT is read too (R232). -/
def Chip.keepalive (c : Chip) (slot : Nat) : Chip :=
  let st := c.sg F.PRT_SLOT_STATE slot
  if c.tick < (c.slot slot).keepAt + 2048 ∨ c.holdsAt slot = [] ∨ st = stCutOff ∨ st = stLost then c
  else
    let lost := c.chainSlots (2 * (slot / 16)) |>.any (fun s => c.sg F.PRT_SLOT_STATE s == stLost)
    let c1 := c.modSlot slot (fun x => { x with keepAt := c.tick })
    (c.holdsAt slot).foldl (fun c a =>
      let c2 := c.ownCmd slot false a 0 .keep
      if lost then c2.ownCmd slot false (a + 1) 0 .keep else c2) c1

/-! ## Probes (R262, R263) -/

/-- Send a probe to a slot from a port. The tag is the slot's own count. -/
def Chip.sendProbe (c : Chip) (slot : Nat) (odd turning live : Bool) (tries : Nat) : Chip :=
  let n := slot / 16
  let p := 2 * n + odd.toNat
  let x := c.slot slot
  let tag := (x.tag + 1) % 65536
  let c1 := c.setSlot slot { x with tag := tag, lastProbe := c.tick,
                                    probe := some ⟨tag, odd, none, c.tick + c.replyTo p, tries, turning, live⟩ }
  c1.queueOn p (mkProbe (c.posOf slot) tag)

/-! ## Placement epochs (R235) -/

/-- Open the slot's drain at a new turn: E counts up and the timer starts at DRAIN_TO; 0 µs is taken as 1. -/
def Chip.openDrain (c : Chip) (slot : Nat) : Chip :=
  let e := (c.sg F.PRT_SLOT_EPOCH slot + 1) % 256
  let dst := usTicks * max 1 (c.g (pairFld F.PRT_LOOP_TIM_DRAIN_TO (slot / 16)))
  ((c.ss F.PRT_SLOT_EPOCH slot e).ss F.PRT_SLOT_DRAIN slot 1).modSlot slot (fun x => { x with drainEnd := c.tick + dst })

/-- The drain timer reaches 0 (R236). -/
def Chip.drainTimeout (c : Chip) (slot : Nat) : Chip :=
  if c.sg F.PRT_SLOT_DRAIN slot = 1 ∧ (c.slot slot).drainEnd ≤ c.tick then
    ((c.ss F.PRT_SLOT_DRAIN slot 0).sat (pairFld F.PRT_EPOCH_STAT_DRAIN_EXP (slot / 16))).event 76 slot
  else c

/-- An item is accepted by its epoch (R236). -/
def Chip.epochOk (c : Chip) (slot e : Nat) : Bool :=
  let cur := c.sg F.PRT_SLOT_EPOCH slot
  e == cur || (e == (cur + 255) % 256 && c.sg F.PRT_SLOT_DRAIN slot == 1)

/-- An EPOCH_END block (R236). -/
def Chip.epochEnd (c : Chip) (slot e : Nat) : Chip :=
  let c1 := c.sat (pairFld F.PRT_EPOCH_STAT_EPOCH_END_CNT (slot / 16))
  if e = (c.sg F.PRT_SLOT_EPOCH slot + 255) % 256 ∧ c.sg F.PRT_SLOT_DRAIN slot = 1 then c1.ss F.PRT_SLOT_DRAIN slot 0 else c1

/-- A packet discarded by its epoch (R236). -/
def Chip.latePacket (c : Chip) (slot : Nat) : Chip :=
  (c.sat (pairFld F.PRT_EPOCH_STAT_LATE_CNT (slot / 16))).event 77 slot

/-- E restarts at an enumeration of the slot (R235). -/
def Chip.epochReset (c : Chip) (slot : Nat) : Chip := (c.ss F.PRT_SLOT_EPOCH slot 0).ss F.PRT_SLOT_DRAIN slot 0

/-! ## Slot states -/

/-- An autonomous action with no LIMITS flag: the manual gives its record no CODE, which is free (R483). -/
def Chip.logAct (c : Chip) (who before after : Nat) : Chip :=
  let (code, c1) := c.free 16
  c1.logAuto code who before after

/-- A slot's state changes; each change is recorded (R218). -/
def Chip.setState (c : Chip) (slot st : Nat) : Chip :=
  let old := c.sg F.PRT_SLOT_STATE slot
  if old = st then c else (c.ss F.PRT_SLOT_STATE slot st).logAct slot old st

/-! ## Trim sets (R475, R476) -/

/-- The offset of a slot's worker record in a trim set. -/
def trimRec (g : Image) (slot : Nat) : Option Nat :=
  if g = [] then none
  else ((List.range (beField g 6 2)).map (fun i => 64 + 35336 * i)).find? (fun o => beField g o 2 == slot)

/-- Word `i` of a worker record as a register write: 128 tile words, then 16,384 pixel words with their MASK. -/
def trimWord (g : Image) (o i : Nat) : Nat × Nat :=
  if i < 128 then (0x300 + 4 * (i / 2) + i % 2, beField g (o + 8 + 4 * i) 4)
  else
    let a := i - 128
    let mask := bitOf (beField g (o + 33288 + a / 8) 1) (7 - a % 8)
    (0x1000 + a, beField g (o + 520 + 2 * a) 2 * 65536 + mask.toNat * 2 ^ F.PIX_MASK.lo)

/-- The words of a worker record. -/
def trimWords : Nat := 128 + 16384

/-- Write the next word of a worker's trim set, or end: the slot becomes READY (R476). -/
def Chip.trimStep (c : Chip) (slot i : Nat) : Chip :=
  match trimRec c.trim slot with
  | none => c.setState slot stReady
  | some o =>
    if i < trimWords then
      let (a, d) := trimWord c.trim o i
      let c1 := if i = 0 then c.modSlot slot (fun x => { x with autoMask := [], autoPg := [] }) else c
      c1.ownCmd slot true a d (.trim i)
    else (c.modSlot slot (fun x => { x with trimOk := true })).setState slot stReady

/-! ## Enumeration (R210, R212) -/

/-- Send the enumeration command for position k from a port. -/
def Chip.sendEnum (c : Chip) (p k : Nat) : Chip := c.cmdSend p (mkOut 0 true 0x00B k (.enum k))

/-- Step 1 of R212: SVC_EN is set and the listed slots become UNSEEN. -/
def Chip.enumStart (c : Chip) (n : Nat) : Chip :=
  let ports := [2 * n, 2 * n + 1].filter c.portUsed
  let c1 := ports.foldl (fun c p => c.portStep p (fun x => x.setSvc false c.tick true)) c
  let c2 := (List.range 16).foldl (fun c i =>
    let s := 16 * n + i
    let listed := (c.chainSlots (2 * n) ++ c.chainSlots (2 * n + 1)).contains s && (wkEntry c.work s).isSome
    let c := c.epochReset s
    let c := ((c.ss F.PRT_SLOT_SERVE s 3).ss F.PRT_SLOT_POS s 0).ss F.PRT_SLOT_NEAR s 0
    c.setState s (if listed then stUnseen else stNotListed)) c1
  let c3 := ((c2.s (pairFld F.PRT_LOOP_STAT_ENUM_DONE n) 0).s (pairFld F.PRT_LOOP_STAT_FOUND_EVEN n) 0).s (pairFld F.PRT_LOOP_STAT_FOUND_ODD n) 0
  c3.setPair n { Pair.init with enum := if c.pairCfg n = 0 then .idle else .waiting c.tick }

/-- What the loop controller knew of a worker before its enumeration no longer holds. -/
def SlotX.fresh (x : SlotX) : SlotX :=
  { x with trimOk := false, needSet := true, rtEven := none, rtOdd := none, samples := 0, adj := 0, avg := 0 }

/-- A worker has answered its enumeration command: it takes its slot (R210, R212, R235). FOUND_EVEN and FOUND_ODD count
workers, so one that had been LOST is not counted again (R238). -/
def Chip.found (c : Chip) (p k near : Nat) : Chip :=
  match c.slotAt p k with
  | none => c
  | some s =>
    let odd := p % 2
    let c1 := ((c.epochReset s).ss F.PRT_SLOT_POS s k).ss F.PRT_SLOT_NEAR s near
    let c2 := c1.ss F.PRT_SLOT_SERVE s odd
    let f := pairFld (if odd = 1 then F.PRT_LOOP_STAT_FOUND_ODD else F.PRT_LOOP_STAT_FOUND_EVEN) (p / 2)
    let c3 := (if c.sg F.PRT_SLOT_STATE s = stLost then c2 else c2.sat f).modSlot s (fun x => { x.fresh with lastSeen := c.tick })
    c3.cmdSend p (mkOut k false 0x000 0 .wkId)

/-! ## Moves of the split point (R228, R229) -/

/-- The port from which a move turns workers is 2n+1 when the split moves down, 2n when it moves up. -/
def MoveSt.fromOdd (m : MoveSt) : Bool := m.dst < m.src

/-- The first worker to turn, and the one after worker k. -/
def MoveSt.first (m : MoveSt) : Nat := if m.fromOdd then m.src else m.src + 1
def MoveSt.next (m : MoveSt) (k : Nat) : Option Nat :=
  if m.fromOdd then (if m.dst + 1 < k then some (k - 1) else none) else (if k < m.dst then some (k + 1) else none)

/-- The node whose released port must read SEG_UP (R228 step 3, R229 step 3). -/
def MoveSt.waitNode (m : MoveSt) : Nat := if m.fromOdd then m.src + 1 else m.src

/-- Read LNK_STAT of the worker the move waits for; at a manager port its own SEG_UP tells. -/
def Chip.pollUp (c : Chip) (n : Nat) (m : MoveSt) : Chip :=
  let node := m.waitNode
  if node = 0 ∨ node = c.nEven n + 1 then c
  else
    let slot := 16 * n + node - 1
    c.ownCmd slot false (c.facing slot m.src + 1) 0 .segUp

/-- Turn worker k: a probe from the new side; E counts up and the drain opens (R228 step 4, R235). -/
def Chip.turnWorker (c : Chip) (n k : Nat) (m : MoveSt) : Chip :=
  let slot := 16 * n + k - 1
  let c1 := (c.openDrain slot).sendProbe slot m.fromOdd true false 1
  c1.modPair n (fun p => { p with move := some { m with step := .turning k } })

/-- The window of a held MARK ends more than 32,768 cycles before Meridian now: it is not sent (R230). START is the low
40 bits of a count. -/
def Chip.markTooOld (c : Chip) (b : Block) : Bool :=
  let stop := b.f 93 54 + b.f 53 39
  let back := (c.kcount + 2 ^ 40 - stop % 2 ^ 40) % 2 ^ 40
  b.is .mark && decide (32768 < back) && decide (back < 2 ^ 39)

/-- The reply time of a CMD starts when it is sent (R213): a block sent only now starts that of its CMD. -/
def Chip.restartDue (c : Chip) (n : Nat) (b : Block) : Chip :=
  [2 * n, 2 * n + 1].foldl (fun c p =>
    let e := c.engine p
    c.setEngine p { e with out := e.out.map (fun o => if o.block = b then { o with due := c.tick + c.replyTo p } else o) }) c

/-- The time of a worker mark that was held back runs from when it is sent (R230, R328). -/
def Chip.markSent (c : Chip) (b : Block) : Chip :=
  if b.is .mark then
    { c with wake := { c.wake with windows := AMap.mapV (always none) c.wake.windows (fun x => x.map (fun w =>
      { w with outst := w.outst.map (fun o => if o.id = b.f 105 94 ∧ !o.done then { o with sent := c.tick } else o) })) } }
  else c

/-- Send the blocks held back through the port that now serves each worker (R228 step 6, R229 step 6, R230). -/
def Chip.releaseHeld (c : Chip) (n : Nat) : Chip :=
  let held := (c.pair n).held
  let c1 := c.modPair n (fun p => { p with held := [] })
  held.foldl (fun c h =>
    if c.markTooOld h.blk then
      let slots := if h.pos = 0x1F then (c.served (2 * n + h.odd.toNat)).filter (fun s => c.sg F.PRT_SLOT_STATE s = stRunning)
        else [16 * n + h.pos - 1]
      slots.foldl (fun c slot =>
        (c.modPair n (fun p => { p with missed := p.missed ++ [(slot, h.blk.f 105 94)] })).logAct slot (h.blk.f 105 94) 0) c
    else if h.pos = 0x1F then ((c.queueOn (2 * n + h.odd.toNat) h.blk).restartDue n h.blk).markSent h.blk
    else ((c.toSlot (16 * n + h.pos - 1) h.blk).restartDue n h.blk).markSent h.blk) c1

/-- A move ends: steps 5 and 6 of R228 and R229. -/
def Chip.moveEnd (c : Chip) (n : Nat) (m : MoveSt) : Chip :=
  let c1 := if m.nearHeld then c.svcAt n (if m.fromOdd then m.dst + 1 else m.dst) m.dst false else c.holdSeg n m.dst true
  let c2 := c1.modPair n (fun p => { p with
    move := none
    lastMove := c.tick
    heldSegs := (p.heldSegs.filter (fun h => h ≠ m.dst ∧ h ≠ m.src)) ++ [m.dst] })
  let c3 := ((c2.s (pairFld F.PRT_LOOP_STAT_SPLIT n) m.final).wrap (pairFld F.PRT_LOOP_STAT_MOVE_CNT n)).s (pairFld F.PRT_LOOP_STAT_MOVING n) 0
  let c4 := if m.byGo then c3.s (pairFld F.PRT_LOOP_MOVE_GO n) 0 else c3
  let c5 := (List.range 16).foldl (fun c i =>
    let s := 16 * n + i
    if c.sg F.PRT_SLOT_STATE s = stCutOff ∧ m.holds (i + 1) then c.setState s (c.slot s).saved else c) c4
  let c6 := c5.releaseHeld n
  (c6.event (if m.failOver then 67 else 65) (2 * n)).logAct (2 * n) m.src m.final

/-- A CMD that changes SVC_EN is outstanding at a port of the pair. -/
def Chip.svcBusy (c : Chip) (n : Nat) : Bool :=
  let isSvc : CmdOut → Bool := fun o => match o.tag with
    | .svcRead _ | .svcWrite => true
    | _ => false
  [2 * n, 2 * n + 1].any (fun p => (c.engine p).out.any isSvc || (c.engine p).wait.any isSvc)

/-- The released segment reads SEG_UP: the first worker is turned, or the move ends at once. A planned move takes up no
step before the CMDs of the step before are answered. -/
def Chip.moveUp (c : Chip) (n : Nat) : Chip :=
  match (c.pair n).move with
  | some m =>
    if m.step = .waitUp ∧ (m.failOver ∨ !c.svcBusy n) then
      let c1 := c.segIn n m.src
      if m.holds m.first then c1.turnWorker n m.first m else c1.moveEnd n m
    else c
  | none => c

/-- The echo of a turning worker has arrived (R228 step 4, R229 step 4). -/
def Chip.moveEcho (c : Chip) (n k : Nat) : Chip :=
  match (c.pair n).move with
  | some m =>
    if m.step = .turning k then
      let slot := 16 * n + k - 1
      let c1 := ((c.ss F.PRT_SLOT_SERVE slot m.fromOdd.toNat).ss F.PRT_SLOT_NEAR slot (1 - c.sg F.PRT_SLOT_NEAR slot)).modSlot slot
        (fun x => { x with turned := true })
      let c2 := if m.failOver then c1.logAct slot m.since c.tick else c1
      match m.next k with
      | some j => c2.turnWorker n j m
      | none => c2.moveEnd n m
    else c
  | none => c

/-- Step 1 of a planned move (R228): every segment of the span is in service, and no slot that changes side has its
drain open or is CUT_OFF. The split segment is the one that is held; at a manager port its receiver stays LOCKED (R27),
and step 3 waits for it. -/
def Chip.moveAllowed (c : Chip) (n s t : Nat) : Bool :=
  let lo := min s t
  let hi := max s t
  let len := c.nEven n
  let segs := (List.range (hi - lo + 1)).map (lo + ·)
  let slots := (List.range (hi - lo)).map (fun i => 16 * n + lo + i)
  let fit := fun (h : Nat) =>
    if h = s then (h ≠ 0 || (c.port (2 * n)).locked) && (h ≠ len || (c.port (2 * n + 1)).locked)
    else c.segGood (2 * n) h && (h ≠ 0 || c.up (2 * n)) && (h ≠ len || c.up (2 * n + 1))
  segs.all fit && !slots.any (fun k => c.sg F.PRT_SLOT_DRAIN k == 1 || c.sg F.PRT_SLOT_STATE k == stCutOff)

/-- A planned move is refused (R228). -/
def Chip.moveRefused (c : Chip) (n t : Nat) (byGo : Bool) : Chip :=
  let c1 := (c.flag (pairFld F.PRT_LOOP_STAT_MOVE_ERR n) 66 (2 * n)).logAct (2 * n) (c.split n) t
  if byGo then c1.s (pairFld F.PRT_LOOP_MOVE_GO n) 0 else c1

/-- Start a move: hold-back begins, and the split segment is released (R228 steps 2 and 3). A fail-over holds the failed
segment at the end it can reach, and releases the far end of the split segment (R229 steps 1 and 2). -/
def Chip.moveStart (c : Chip) (n : Nat) (m : MoveSt) : Chip :=
  let c1 := (c.s (pairFld F.PRT_LOOP_STAT_MOVING n) 1).modPair n (fun p => { p with move := some m })
  let c2 := if m.failOver then
      ((c1.svcAt n (if m.fromOdd then m.dst else m.dst + 1) m.dst false).svcAt n m.waitNode m.src true).modPair n
        (fun p => { p with heldSegs := (p.heldSegs.filter (fun h => h ≠ m.src ∧ h ≠ m.dst)) ++ [m.dst] })
    else c1.holdSeg n m.src false
  c2.pollUp n m

/-- REBAL_INT in ticks, no less than the Chart's LIMITS allow (R237, R238): 10 ms units, 0 taken as 1. -/
def Chip.rebalInt (c : Chip) (n : Nat) : Nat :=
  10 * msTicks * max (limRebalMin c.work) (max 1 (c.g (pairFld F.PRT_LOOP_TIM_REBAL_INT n)))

/-! ### One worker in a loop (R28, R220) -/

/-- Where the split of a one-worker loop lies, and what serves its worker: inside the worker while both segments are in
service, else the segment that is out of service (R28, R220, R239; DEDUCED, log entry 119). -/
def Chip.onePlace (c : Chip) (n : Nat) : Option (Nat × Nat) :=
  match c.up (2 * n), c.up (2 * n + 1) with
  | true, true => some (0x1F, 2)
  | true, false => some (1, 0)
  | false, true => some (0, 1)
  | false, false => none

/-- The split of a one-worker loop follows its two segments; the worker tells which port it takes its clock from. -/
def Chip.settleOne (c : Chip) (n : Nat) : Chip :=
  let slot := 16 * n
  let old := c.split n
  match c.onePlace n with
  | none => c
  | some (sp, sv) =>
    if !c.enumerated slot ∨ c.sg F.PRT_SLOT_STATE slot = stLost ∨ (old = sp ∧ c.sg F.PRT_SLOT_SERVE slot = sv) then c
    else
      let c1 := ((c.ss F.PRT_SLOT_SERVE slot sv).s (pairFld F.PRT_LOOP_STAT_SPLIT n) sp).wrap (pairFld F.PRT_LOOP_STAT_MOVE_CNT n)
      let c2 := c1.modPair n (fun p => { p with lastMove := c.tick })
      ((c2.event 67 (2 * n)).logAct (2 * n) old sp).ownCmd slot false 0x00B 0 .near

/-- A planned move to a target split (R228, R237). A loop of one worker has none: its split follows its segments. -/
def Chip.plan (c : Chip) (n t : Nat) (byGo : Bool) : Chip :=
  let s := c.split n
  if !c.isLoop n ∨ c.g (pairFld F.PRT_LOOP_STAT_ENUM_DONE n) = 0 ∨ (c.pair n).move.isSome then c
  else if (c.pair n).lastMove ≠ 0 ∧ c.tick < (c.pair n).lastMove + c.rebalInt n then c
  else if c.nEven n < t ∨ c.nEven n = 1 ∨ !c.moveAllowed n s t then c.moveRefused n t byGo
  else if s = t then (if byGo then c.s (pairFld F.PRT_LOOP_MOVE_GO n) 0 else c)
  else c.moveStart n ⟨false, s, t, t, false, .waitUp, c.tick, byGo⟩

/-- PLANNED_MOVE: a move in progress that waits at a manager port goes on when SEG_UP reads 1; else GO of
PRT_LOOP_MOVE, or the policy's home split, starts one (R228, R237). -/
def Chip.plannedMove (c : Chip) (n : Nat) : Chip :=
  match (c.pair n).move with
  | some m =>
    if m.step = .waitUp then
      if m.waitNode = 0 then (if c.up (2 * n) then c.moveUp n else c)
      else if m.waitNode = c.nEven n + 1 then (if c.up (2 * n + 1) then c.moveUp n else c)
      else c.pollUp n m
    else c
  | none =>
    if c.g (pairFld F.PRT_LOOP_MOVE_GO n) = 1 then c.plan n (c.g (pairFld F.PRT_LOOP_MOVE_TARGET n)) true
    else if c.isLoop n ∧ c.nEven n = 1 then (if c.g (pairFld F.PRT_LOOP_STAT_ENUM_DONE n) = 1 then c.settleOne n else c)
    else
      let fixed := c.g (pairFld F.PRT_LOOP_CFG_POLICY n) = 0 ∨ !limFlag c.work limBalance
      let home := c.g (pairFld F.PRT_LOOP_CFG_HOME n)
      if fixed ∧ c.split n ≠ home ∧ c.moveAllowed n (c.split n) home then c.plan n home false else c

/-- The fail-over of a loop after segment j has failed (R229); `final` is SPLIT at its end. The slots cut off keep the
state they had before. A planned move that still waits for its first step gives way. -/
def Chip.failOverAt (c : Chip) (n j final since : Nat) : Chip :=
  let s := c.split n
  let byGo : Bool := match (c.pair n).move with
    | some m => m.byGo
    | none => false
  let m : MoveSt := ⟨true, s, j, final, true, .waitUp, since, byGo⟩
  let c1 := (List.range 16).foldl (fun c i =>
    let k := 16 * n + i
    let st := c.sg F.PRT_SLOT_STATE k
    if m.holds (i + 1) ∧ stMismatch ≤ st ∧ st < stCutOff then
      ((c.modSlot k (fun x => { x with saved := st })).setState k stCutOff).event 68 k
    else c) c
  if s = j then c1.moveEnd n m else c1.moveStart n m

/-- The segment of a loop that is out of service: from a manager port's own status, or as reported (R229). A segment
held already, or on its way back, is none. -/
def Chip.failedSeg (c : Chip) (n : Nat) : Option (Nat × Nat) :=
  let len := c.nEven n
  let s := c.split n
  let own := (if !c.up (2 * n) then [(0, c.tick)] else []) ++ (if !c.up (2 * n + 1) then [(len, c.tick)] else [])
  ((c.pair n).failed ++ own).find? (fun f => f.1 ≠ s && !(c.pair n).heldSegs.contains f.1 && (c.pair n).returning != some f.1)

/-- A spur (R29): every worker beyond the first segment out of service is CUT_OFF until that segment recovers. The
loop controller reads LNK_STAT of the worker in front of a failed segment to learn when it does (R232). -/
def Chip.spurFail (c : Chip) (p : Nat) : Chip :=
  let n := p / 2
  let c1 := if c.up p then c.segIn n (c.segKey p 0) else c
  let out := ((List.range (c.chainLen p)).filter (fun h => c1.segFailed n (c.segKey p h)))
  let cut := if !c.up p then some 0 else out.min?
  let c2 := (c.chainSlots p).foldl (fun c s =>
    let st := c.sg F.PRT_SLOT_STATE s
    let beyond : Bool := match cut with
      | some j => decide (j < c.posOf s)
      | none => false
    if beyond ∧ stMismatch ≤ st ∧ st < stCutOff then
      (((c.modSlot s (fun x => { x with saved := st })).setState s stCutOff).event 68 s).logAct s (cut.getD 0) 0
    else if !beyond ∧ st = stCutOff then c.setState s (c.slot s).saved else c) c1
  match cut with
  | some j => match c.slotAt p j with
    | some s => c2.ownCmd s false (c2.facing s j + 1) 0 (.linkChk j)
    | none => c2
  | none => c2

/-- FAIL_OVER (R229, R28, R29). -/
def Chip.failOver (c : Chip) (n : Nat) : Chip :=
  if c.isLoop n then
    let busy : Bool := match (c.pair n).move with
      | some m => m.failOver || m.step ≠ .waitUp
      | none => false
    if busy ∨ c.g (pairFld F.PRT_LOOP_STAT_ENUM_DONE n) = 0 then c
    else if c.nEven n = 1 then c.settleOne n
    else match c.failedSeg n with
      | some (j, t) => c.failOverAt n j j t
      | none => c
  else [2 * n, 2 * n + 1].foldl (fun c p => if c.portUsed p then c.spurFail p else c) c

/-- Both segments of a slot's worker are known to be out of service (R231). -/
def Chip.bothOut (c : Chip) (slot : Nat) : Bool :=
  let n := slot / 16
  let k := c.posOf slot
  let out := fun h => c.segFailed n h || (h == 0 && !c.up (2 * n)) || (h == c.nEven n && !c.up (2 * n + 1))
  out (k - 1) && out k

/-- The move in progress when worker k is lost (R231): a fail-over that was to turn worker k stops short of it; any other
ends where it stands. -/
def Chip.moveCut (c : Chip) (n k : Nat) (m : MoveSt) : Chip :=
  let at_? : Option Nat := match m.step with
    | .turning i => some i
    | .waitUp => none
  let dst := if m.fromOdd then k else k - 1
  if m.failOver ∧ m.holds k then
    let m1 := { m with dst := dst, final := k - 1 }
    if at_? = some k ∨ m.src = dst then c.moveEnd n m1
    else c.modPair n (fun p => { p with move := some m1, heldSegs := (p.heldSegs.erase dst) ++ [dst] })
  else
    let here := match at_? with
      | some i => if m.fromOdd then i else i - 1
      | none => m.src
    c.moveEnd n { m with failOver := true, dst := here, final := here, nearHeld := false }

/-- A slot's worker is taken as lost (R231): both its segments are known out of service, or no probe from either side
was answered. Its segments are held at their far ends, and the workers on each side are turned toward their nearer
intact port, SPLIT coming to lie in front of it. -/
def Chip.workerLost (c : Chip) (slot : Nat) : Chip :=
  let n := slot / 16
  let k := c.posOf slot
  if !c.isLoop n ∨ !c.enumerated slot ∨ c.sg F.PRT_SLOT_STATE slot = stLost ∨ !c.bothOut slot then c
  else
    let since := (((c.pair n).failed.find? (fun f => f.1 = k ∨ f.1 + 1 = k)).map (·.2)).getD c.tick
    let side := c.sg F.PRT_SLOT_SERVE slot = 1
    let c1 := (((c.setState slot stLost).ss F.PRT_SLOT_SERVE slot 3).event 69 slot).modSlot slot (fun x => { x with side := side, probe := none })
    let c2 := ((c1.svcAt n (k - 1) (k - 1) false).svcAt n (k + 1) k false).modPair n
      (fun p => { p with heldSegs := (p.heldSegs.filter (fun h => h ≠ k ∧ h + 1 ≠ k)) ++ [k - 1, k], relocked := [], returning := none })
    if c.nEven n = 1 then
      (((c2.s (pairFld F.PRT_LOOP_STAT_SPLIT n) 0).wrap (pairFld F.PRT_LOOP_STAT_MOVE_CNT n)).event 67 (2 * n)).logAct (2 * n) (c.split n) 0
    else
      let go := fun (c : Chip) => c.failOverAt n (if k ≤ c.split n then k else k - 1) (k - 1) since
      match (c2.pair n).move with
      | none => go c2
      | some m =>
        let c3 := c2.moveCut n k m
        if m.failOver ∧ m.holds k then c3 else go c3

/-- LIVENESS_TIMEOUT (R229): LIVE_TO is held to 0x034. -/
def Chip.liveness (c : Chip) (slot : Nat) : Chip :=
  let dst := 10 * usTicks * max 0x34 (c.g (pairFld F.PRT_LOOP_TIM_LIVE_TO (slot / 16)))
  if c.sg F.PRT_SLOT_STATE slot = stRunning ∧ (c.slot slot).lastSeen + dst ≤ c.tick ∧ (c.slot slot).probe = none then
    c.sendProbe slot (c.sg F.PRT_SLOT_SERVE slot = 1) false true 1
  else c

/-- A turning worker gives no echo: the loop controller turns the move into a fail-over, with the split at that worker
(R228). -/
def Chip.turnFailed (c : Chip) (n k : Nat) : Chip :=
  match (c.pair n).move with
  | some m =>
    if m.step = .turning k then
      let dst := if m.fromOdd then k else k - 1
      (c.segOut n dst).moveEnd n { m with failOver := true, dst := dst, final := dst, nearHeld := false }
    else c
  | none => c

/-- PROBE_TIMEOUT (R228, R229, R231, R232). -/
def Chip.probeTimeout (c : Chip) (slot : Nat) : Chip :=
  let n := slot / 16
  let x := c.slot slot
  match x.probe with
  | none => c
  | some q =>
    let p := 2 * n + q.odd.toNat
    if c.tick < q.due then c
    else if q.tries ≤ c.retry p then c.sendProbe slot q.odd q.turning q.live (q.tries + 1)
    else
      let c1 := c.setSlot slot { x with probe := none }
      let k := c.posOf slot
      if c.sg F.PRT_SLOT_STATE slot = stLost then (c1.ss F.PRT_SLOT_POS slot 0).sendEnum p k
      else if q.turning then c1.turnFailed n k
      else if q.live then c1.segOut n (c.segKey p (if q.odd ∧ c.isLoop n then k else k - 1))
      else c1

/-- Probe a LOST worker at its position from the nearer port (R232 step 2). A probe that comes in on the worker's far
port turns it, so its drain opens (R235); a worker alone in its loop has no far port to turn from (R220). -/
def Chip.lostProbe (c : Chip) (slot : Nat) (odd : Bool) : Chip :=
  let n := slot / 16
  let c1 := c.modPair n (fun p => { p with returning := none })
  let turns := c.nEven n ≠ 1 ∧ (c.slot slot).side ≠ odd
  (if turns then c1.openDrain slot else c1).sendProbe slot odd false false 1

/-- LOST_WORKER_RETURN (R232): the held end toward the worker on one side has locked again; it is released, and once the
segment is in service the worker is probed at its position. -/
def Chip.lostReturn (c : Chip) (slot : Nat) (odd : Bool) : Chip :=
  let n := slot / 16
  let k := c.posOf slot
  let h := if odd then k else k - 1
  let node := if odd then k + 1 else k - 1
  let last := c.nEven n + 1
  let locked := (c.pair n).relocked.contains h || (node == 0 && (c.port (2 * n)).locked) || (node == last && (c.port (2 * n + 1)).locked)
  if c.sg F.PRT_SLOT_STATE slot ≠ stLost ∨ (c.slot slot).probe.isSome ∨ (c.pair n).move.isSome then c
  else if (c.pair n).returning = some h then
    if node = 0 then (if c.up (2 * n) then c.lostProbe slot odd else c)
    else if node = last then (if c.up (2 * n + 1) then c.lostProbe slot odd else c)
    else
      let s := 16 * n + node - 1
      c.ownCmd s false (c.facing s h + 1) 0 (.linkChk h)
  else if (c.pair n).returning.isSome ∨ !locked then c
  else
    (((c.svcAt n node h true).segIn n h)).modPair n
      (fun p => { p with heldSegs := p.heldSegs.erase h, relocked := p.relocked.erase h, returning := some h })

/-- A LOST worker answers (R232 steps 2 to 4): its port is the nearer one, its other port is held, and the split goes back
by a planned move. A worker that echoed has kept its position and its state, and has turned when the probe came in on its
far port; one that had to be enumerated takes the slot as at enumeration. In a one-worker loop the other end is released
too, since nothing is held there (R220). -/
def Chip.lostFound (c : Chip) (slot : Nat) (odd echoed : Bool) : Chip :=
  let n := slot / 16
  let k := c.posOf slot
  let far := if odd then k - 1 else k
  let turned := echoed ∧ c.nEven n ≠ 1 ∧ (c.slot slot).side ≠ odd
  let near := c.sg F.PRT_SLOT_NEAR slot
  let c1 := ((c.ss F.PRT_SLOT_SERVE slot odd.toNat).ss F.PRT_SLOT_NEAR slot (if turned then 1 - near else near)).event 70 slot
  let c2 := c1.modSlot slot (fun x => { x with lastSeen := c.tick, turned := x.turned || turned })
  let split := if odd then k - 1 else k
  let c3 := if c.nEven n = 1 then
      (c2.svcAt n (if odd then 0 else 2) far true).modPair n (fun p => { p with heldSegs := [], failed := [] })
    else (c2.svcAt n k far false).modPair n (fun p => { p with heldSegs := (p.heldSegs.erase far) ++ [far] })
  let c4 := (c3.s (pairFld F.PRT_LOOP_STAT_SPLIT n) split).logAct (2 * n) (c.split n) split
  if echoed then (c4.setState slot stReady).ownCmd slot false 0x002 0 .gstat else c4.logAct slot stLost stReady

/-! ## Enumeration, continued -/

/-- Enumeration of a pair ends (R212 steps 4 and 5): the initial split is s = N, or lies at the break, and its segment
is held; the planned move to the home split releases it again. -/
def Chip.enumEnd (c : Chip) (n : Nat) : Chip :=
  let c1 := ((c.s (pairFld F.PRT_LOOP_STAT_ENUM_DONE n) 1).modPair n (fun p => { p with enum := .done })).event 64 (2 * n)
  let c2 := c1.logAct (2 * n) (c.g (pairFld F.PRT_LOOP_STAT_FOUND_EVEN n)) (c.g (pairFld F.PRT_LOOP_STAT_FOUND_ODD n))
  if !c.isLoop n then c2
  else if c.nEven n = 1 then c2.settleOne n
  else
    let len := c.nEven n
    let fe := c.g (pairFld F.PRT_LOOP_STAT_FOUND_EVEN n)
    let c3 := c2.s (pairFld F.PRT_LOOP_STAT_SPLIT n) fe
    let home := c.g (pairFld F.PRT_LOOP_CFG_HOME n)
    let c4 := if fe = len ∧ home ≠ len then c3.plan n home false else c3
    if (c4.pair n).move.isSome then c4 else c4.holdSeg n fe true

/-- The next command of an enumeration, from the even port or the odd (R212 steps 2 and 3). -/
def Chip.enumEven (c : Chip) (n k : Nat) : Chip :=
  if k ≤ c.chainLen (2 * n) then (c.modPair n (fun p => { p with enum := .fromEven k })).sendEnum (2 * n) k
  else if c.isLoop n ∨ c.chainLen (2 * n + 1) = 0 then c.enumEnd n
  else (c.modPair n (fun p => { p with enum := .fromOdd 1 0 })).sendEnum (2 * n + 1) 1

/-- A command of the present enumeration has been answered, or not (R212 steps 2 and 3). -/
def Chip.enumNext (c : Chip) (n : Nat) (ok : Bool) : Chip :=
  match (c.pair n).enum with
  | .fromEven k =>
    if ok then c.enumEven n (k + 1)
    else if c.isLoop n then
      (c.modPair n (fun p => { p with enum := .fromOdd (c.nEven n) k, failed := p.failed ++ [(k - 1, c.tick)] })).sendEnum (2 * n + 1) (c.nEven n)
    else if c.chainLen (2 * n + 1) = 0 then c.enumEnd n
    else (c.modPair n (fun p => { p with enum := .fromOdd 1 0 })).sendEnum (2 * n + 1) 1
  | .fromOdd k stop =>
    if c.isLoop n then
      if ok ∧ stop < k then (c.modPair n (fun p => { p with enum := .fromOdd (k - 1) stop })).sendEnum (2 * n + 1) (k - 1)
      else c.enumEnd n
    else if ok ∧ k < c.chainLen (2 * n + 1) then
      (c.modPair n (fun p => { p with enum := .fromOdd (k + 1) stop })).sendEnum (2 * n + 1) (k + 1)
    else c.enumEnd n
  | _ => c

/-- ENUMERATE_PAIR (R212): it starts, or its wait for service ends: for a loop when port 2n reads SEG_UP, for spurs when
their ports do, or after 2 ms. -/
def Chip.enumeratePair (c : Chip) (n : Nat) : Chip :=
  if c.pairCfg n = 0 then c
  else match (c.pair n).enum with
    | .idle => c.enumStart n
    | .waiting t =>
      let ready : Bool := match c.pairCfg n with
        | 3 => c.up (2 * n + 1)
        | 4 => c.up (2 * n) && c.up (2 * n + 1)
        | _ => c.up (2 * n)
      if ready ∨ t + 2 * msTicks ≤ c.tick then c.enumEven n 1 else c
    | _ => c

/-- The UNSEEN positions of a chain that a port's path reaches, in the order of R212. -/
def Chip.unseenFor (c : Chip) (p : Nat) : List Nat :=
  let n := p / 2
  let ks := (c.chainSlots p).filterMap (fun s => if c.sg F.PRT_SLOT_STATE s = stUnseen ∧ c.reaches p (c.posOf s) then some (c.posOf s) else none)
  if c.isLoop n ∧ p % 2 = 1 then ks.reverse else ks

/-- UNSEEN_REENUMERATE (R212): a segment of the pair has entered service. -/
def Chip.unseenRetry (c : Chip) (p : Nat) : Chip :=
  let n := p / 2
  let busy := (c.engine p).out.any (fun o => match o.tag with
    | .enum _ => true
    | _ => false)
  if (c.pair n).enum ≠ .done ∨ !c.portUsed p ∨ busy then c
  else match c.unseenFor p with
    | [] => c
    | k :: r =>
      (c.modPair n (fun x => if p % 2 = 1 then { x with retryOdd := r } else { x with retryEven := r })).sendEnum p k

/-- The next UNSEEN position after an answer or the lack of one. -/
def Chip.unseenNext (c : Chip) (p : Nat) : Chip :=
  let n := p / 2
  let l := if p % 2 = 1 then (c.pair n).retryOdd else (c.pair n).retryEven
  match l with
  | [] => c
  | k :: r => (c.modPair n (fun x => if p % 2 = 1 then { x with retryOdd := r } else { x with retryEven := r })).sendEnum p k

/-- An enumeration command for position k has been answered well (R210). -/
def Chip.enumOk (c : Chip) (p k near : Nat) : Chip :=
  let n := p / 2
  match c.slotAt p k with
  | none => c
  | some s =>
    let lost := c.sg F.PRT_SLOT_STATE s = stLost
    let c1 := c.found p k near
    if lost then c1.lostFound s (p % 2 = 1) false
    else if (c.pair n).enum = .done then
      let c2 := c1.logAct s stUnseen stReady
      (if c.isLoop n ∧ c.nEven n = 1 then c2.settleOne n else c2).unseenNext p
    else c1.enumNext n true

/-- An enumeration command got no reply, or was taken as malformed; the positions behind it are not tried now (R212). -/
def Chip.enumFail (c : Chip) (p k : Nat) : Chip :=
  let n := p / 2
  let c1 := c.event 52 (portDetail p)
  if (c.pair n).enum = .done then
    (match c.slotAt p k with
      | some s =>
        if c.sg F.PRT_SLOT_STATE s = stLost then c1.ss F.PRT_SLOT_POS s k
        else c1.modPair n (fun x => if p % 2 = 1 then { x with retryOdd := [] } else { x with retryEven := [] })
      | none => c1)
  else c1.enumNext n false

/-- WK_ID has been read (R212, R357): the population matches, so the slot is READY (R239) and its trims are written; or
the slot is ID_MISMATCH. -/
def Chip.idRead (c : Chip) (slot v : Nat) : Chip :=
  let w := BitVec.ofNat 32 v
  if wkMatches c.work slot (F.WK_ID_PART.of w) (F.WK_ID_REV.of w) then (c.setState slot stReady).trimStep slot 0
  else (c.setState slot stMismatch).event 71 slot

/-! ## PRT_CMD (R19, R165, R213, R217) -/

/-- The RWL fields of a worker register. -/
def wkrRwl (a : Nat) : List RwlFld :=
  match linkAddr a with
  | some (_, i) => match linkSpec i with
    | some r => r.rwl
    | none => []
  | none => match specAt wkrSpecs a with
    | some r => r.rwl
    | none => []

/-- The transaction of a port ends: the result registers are final and GO clears (R217, R238). -/
def Chip.txnEnd (c : Chip) (p result status : Nat) : Chip :=
  let e := c.engine p
  let c1 := (c.s (portFld F.PRT_CMD_RSLT_RESULT p) result).s (portFld F.PRT_CMD_RSLT_STATUS p) status
  let c2 := (c1.s (portFld F.PRT_CMD_RSLT_DONE p) 1).s (portFld F.PRT_CMD_GO p) 0
  let c3 := c2.setEngine p { e with txn := none }
  match result with
  | 1 => c3.event 48 (portDetail p)
  | 4 => c3.event 49 (portDetail p)
  | 2 => c3.event 244 (portDetail p)
  | _ => c3

/-- The final result of a transaction carried out worker by worker (R19, R165, R217): ROLE_DENIED if it applies to any
worker, ENABLE_REFUSED if the manager's enable check failed for any, else the first other result that is not REPLIED
with STATUS OK. The refused attempt is recorded under the role of the write. -/
def Chip.txnFinish (c : Chip) (p : Nat) (t : Txn) : Chip :=
  if t.denied then
    (c.logPut ⟨kRefusal, t.role.code, 0x0100, t.fp, at_ 159 128 t.addr + at_ 127 64 t.data⟩).txnEnd p 2 0
  else if t.refused ∧ !t.readFirst then c.txnEnd p 5 0
  else match t.bad with
    | some (r, st) => c.txnEnd p r st
    | none => c.txnEnd p 0 0

/-- The part of the enable check the manager makes (R165): the first reason that holds. -/
def Chip.enableReason (c : Chip) (slot : Nat) : Nat :=
  let st := c.sg F.PRT_SLOT_STATE slot
  if st = stMismatch then 0xA0
  else if !c.enumerated slot then 0xA1
  else if !(c.slot slot).trimOk then 0xA2
  else if c.isLost then 0xA3
  else 0

/-- The manager's part of the check of a write of EN = 1: a worker already running is not checked again; a position
outside the Chart's chain is one where no worker has been enumerated. -/
def Chip.enableCheck (c : Chip) (slot : Option Nat) : Nat :=
  match slot with
  | some s => if c.sg F.PRT_SLOT_STATE s = stRunning then 0 else c.enableReason s
  | none => 0xA1

/-- The manager refuses an enable (R165). -/
def Chip.enableRefused (c : Chip) (slot reason : Nat) : Chip :=
  ((c.ss F.PRT_SLOT_REASON slot reason).event 25 slot).logCheck true reason slot

/-- The write sets EN of WK_GCTL (R165). -/
def Txn.enables (t : Txn) : Bool := t.wr && t.addr == 0x001 && bitOf t.data 31

/-- LNK_CTL of a worker's port. -/
def isLnkCtl (a : Nat) : Bool := a == 0x100 || a == 0x110

/-- Go on with a transaction at its next worker (R19, R165). -/
def Chip.txnNext : Nat → Chip → Nat → Txn → Chip
  | 0, c, p, t => c.txnFinish p t
  | fuel + 1, c, p, t =>
    match t.todo with
    | [] => c.txnFinish p t
    | k :: r =>
      let reason := if t.enables then c.enableCheck (c.slotAt p k) else 0
      let refuse := match c.slotAt p k with
        | some slot => c.enableRefused slot reason
        | none => c.logCheck true reason k
      if reason ≠ 0 then Chip.txnNext fuel refuse p { t with todo := r, refused := true, bad := t.bad.or (some (5, 0)) }
      else
        let o := if t.readFirst then mkOut k false t.addr 0 .prt else mkOut k t.wr t.addr t.data .prt
        let c1 := c.setEngine p { c.engine p with txn := some { t with todo := r, phase := if t.readFirst then .reading k else .writing k } }
        c1.cmdSend p o

/-- GO of PRT_CMD (R213, R217): the manager's own checks, then the CMD. While a command is outstanding a write sets WR,
POS and ADDR, GO stays 1, and no second CMD is sent (DESIGN CHOICE, log entry 118). An enable of an UNSEEN
slot is refused with code 0xA1 rather than not sent (log entry 121). -/
def Chip.cmdGo (c : Chip) (p : Nat) (v : Word) : Chip :=
  let e := c.engine p
  let reg := windowBase p + 0x100
  let busy := e.txn.isSome ∨ c.g (portFld F.PRT_CMD_GO p) = 1
  if p ≥ 128 then c
  else if busy then c.setWord reg ((v &&& 0x5F00FFFF) ||| 0x80000000)
  else if F.PRT_CMD_GO.of v = 0 then c.setWord reg (v &&& 0x5F00FFFF)
  else
    let pos := F.PRT_CMD_POS.of v
    let wr := F.PRT_CMD_WR.of v = 1
    let addr := F.PRT_CMD_ADDR.of v
    let data := c.g (portFld F.PRT_CMD_WDATA_WDATA p)
    let c1 := (c.setWord reg (v &&& 0xDF00FFFF)).setWord (windowBase p + 0x108) 0
    let lnk := isLnkCtl addr ∧ c.run
    let denyable := (wkrRwl addr).any (fun f => !c.role.mayWrite f.role)
    let t0 : Txn := ⟨c.role, c.roleFp, wr, addr, data, pos = 0x1F, .broadcast, [], wr && (denyable || decide lnk), false, false, none, 0⟩
    let st := (c.slotAt p pos).map (c.sg F.PRT_SLOT_STATE)
    let unreached := st = some stCutOff ∨ st = some stLost ∨ st = some stUnseen ∨ !c.up p
    if t0.enables ∧ st = some stUnseen then Chip.txnNext 2 c1 p { t0 with todo := [pos] }
    else if unreached then c1.txnEnd p 3 0
    else if pos = 0 then (c1.setEngine p { e with txn := some { t0 with phase := .writing 0 } }).cmdSend p (mkOut 0 wr addr data .prt)
    else if pos = 0x1F then
      let fail := t0.enables ∧ (c.served p).any (fun s => c.enableCheck (some s) ≠ 0)
      if t0.readFirst ∨ fail then Chip.txnNext 17 c1 p { t0 with todo := (c.served p).map c.posOf }
      else (c1.setEngine p { e with txn := some t0 }).cmdSend p (mkOut 0x1F wr addr data .prt)
    else Chip.txnNext 2 c1 p { t0 with todo := [pos] }

/-- The word sent after the read of R19 and R217, whether the attempt is denied, and whether it would have changed SVC_EN
while the loop controller owns it. -/
def mixWord (t : Txn) (run : Bool) (read : Nat) : Nat × Bool × Bool :=
  let rwl := wkrRwl t.addr
  let bad := rwl.filter (fun f => !t.role.mayWrite f.role)
  let old := BitVec.ofNat 32 read
  let new := BitVec.ofNat 32 t.data
  let denied := bad.any (fun f => bitsOf t.data f.hi f.lo != (if f.selfClear then 0 else bitsOf read f.hi f.lo))
  let mixed := bad.foldl (fun (w : Word) f =>
    let x : Fld := ⟨0, f.hi, f.lo⟩
    x.put w (if f.selfClear then 0 else x.of old)) new
  let own := isLnkCtl t.addr && run
  let owned := own && F.LNK_CTL_SVC_EN.of new != F.LNK_CTL_SVC_EN.of old
  let mixed := if own then F.LNK_CTL_SVC_EN.put mixed (F.LNK_CTL_SVC_EN.of old) else mixed
  (mixed.toNat, denied, owned)

/-- After a write of WK_GCTL the manager reads WK_GSTAT of the worker, which tells whether it runs and in which mode (R165,
R239); a worker that has taken EN = 0 is READY at once. -/
def Chip.afterEnable (c : Chip) (p k st : Nat) (t : Txn) : Chip :=
  if !t.wr ∨ t.addr ≠ 0x001 then c
  else
    let c1 := match c.slotAt p k with
      | some s => if st = 0 ∧ !bitOf t.data 31 ∧ c.sg F.PRT_SLOT_STATE s = stRunning then c.setState s stReady else c
      | none => c
    c1.cmdSend p (mkOut k false 0x002 0 .gstat)

/-- PRT_CMD_RDATA and the SEQ and TRIES of PRT_CMD_RSLT take those of a REPLY and its CMD (R238). -/
def Chip.txnTold (c : Chip) (p : Nat) (o : CmdOut) (data : Nat) : Chip :=
  ((c.s (portFld F.PRT_CMD_RDATA_RDATA p) data).s (portFld F.PRT_CMD_RSLT_SEQ p) o.seq).s (portFld F.PRT_CMD_RSLT_TRIES p) o.tries

/-- A REPLY from position `k` to the transaction's CMD (R19, R213, R216, R217). Of the reads that go before writes only one
that ends an addressed transaction is told of. -/
def Chip.txnReply (c : Chip) (p : Nat) (o : CmdOut) (k st data : Nat) : Chip :=
  let c0 := match st with
    | 1 => c.event 50 (portDetail p)
    | 3 => c.event 51 (portDetail p)
    | _ => c
  let told := c0.txnTold p o data
  match (c.engine p).txn with
  | none => c0
  | some t =>
    match t.phase with
    | .broadcast => (told.sat (portFld F.PRT_CMD_RSLT_NREPLY p)).afterEnable p k st t
    | .reading j =>
      if st ≠ 0 then
        let c1 := if t.bcast then c0 else told.sat (portFld F.PRT_CMD_RSLT_NREPLY p)
        Chip.txnNext 17 c1 p { t with bad := t.bad.or (some (0, st)) }
      else
        let (d, denied, owned) := mixWord t c.run data
        let t1 := { t with phase := .writing j, denied := t.denied || denied, bad := if owned then t.bad.or (some (4, 0)) else t.bad }
        (c0.setEngine p { c0.engine p with txn := some t1 }).cmdSend p (mkOut j true t.addr d .prt)
    | .writing j =>
      let c2 := (told.sat (portFld F.PRT_CMD_RSLT_NREPLY p)).afterEnable p j st t
      Chip.txnNext 17 c2 p { t with nreply := t.nreply + 1, bad := if st = 0 then t.bad else t.bad.or (some (0, st)) }

/-- The transaction's CMD has had no reply after its last retry (R19, R213). -/
def Chip.txnTimeout (c : Chip) (p : Nat) (o : CmdOut) : Chip :=
  match (c.engine p).txn with
  | none => c
  | some t =>
    let c1 := (c.s (portFld F.PRT_CMD_RSLT_SEQ p) o.seq).s (portFld F.PRT_CMD_RSLT_TRIES p) o.tries
    match t.phase with
    | .broadcast => if c1.g (portFld F.PRT_CMD_RSLT_NREPLY p) = 0 then c1.txnEnd p 1 0 else c1.txnFinish p t
    | _ => Chip.txnNext 17 c1 p { t with bad := t.bad.or (some (1, 0)) }

/-! ## Replies (R213) -/

/-- What WK_GSTAT tells of a slot (R165, R234, R239). -/
def Chip.gstatRead (c : Chip) (slot v : Nat) : Chip :=
  let w := BitVec.ofNat 32 v
  let st := c.sg F.PRT_SLOT_STATE slot
  let c1 := (c.ss F.PRT_SLOT_REASON slot (F.WK_GSTAT_REASON.of w)).modSlot slot (fun x => { x with marked := F.WK_GSTAT_MODE_NOW.of w = 1 })
  if st < stReady ∨ stCutOff ≤ st then c1
  else if F.WK_GSTAT_FWD_ONLY.of w = 1 then (if st = stFwdOnly then c1 else (c1.setState slot stFwdOnly).event 72 slot)
  else if F.WK_GSTAT_RUNNING.of w = 1 then c1.setState slot stRunning
  else
    let c2 := c1.setState slot stReady
    let c3 := if F.WK_GSTAT_REASON.of w ≠ 0 ∧ st = stReady then (c2.event 25 slot).logCheck true (F.WK_GSTAT_REASON.of w) slot else c2
    c3

/-- A reply to a keep-alive read (R223, R232): a lapsed hold is written again; a relock of a held end is noted. -/
def Chip.keepReply (c : Chip) (slot addr v : Nat) : Chip :=
  let w := BitVec.ofNat 32 v
  let n := slot / 16
  let k := c.posOf slot
  let segs := (c.pair n).heldSegs.filter (fun h => (h = k ∨ h + 1 = k) ∧ (c.facing slot h = addr ∨ c.facing slot h + 1 = addr))
  if isLnkCtl addr then
    if F.LNK_CTL_SVC_EN.of w = 1 ∧ segs ≠ [] then c.ownCmd slot true addr (F.LNK_CTL_SVC_EN.put w 0).toNat .svcWrite else c
  else if F.LNK_STAT_LOCKED.of w = 1 then c.modPair n (fun p => { p with relocked := (p.relocked.filter (fun h => !segs.contains h)) ++ segs })
  else c

/-- LNK_STAT of a worker's port that faces segment h has been read: the segment is out of service, or back (R229, R29); back
at the end released for a LOST worker, it lets that worker be probed (R232). -/
def Chip.linkRead (c : Chip) (slot h : Nat) (up : Bool) : Chip :=
  let n := slot / 16
  let key := if c.onOddSpur slot then 32 + h else h
  let back := (c.pair n).returning = some h ∧ c.isLoop n
  if up then
    let c1 := c.segIn n key
    let odd := c.posOf slot = h + 1
    let lost := 16 * n + (if odd then h - 1 else h)
    if back ∧ c1.sg F.PRT_SLOT_STATE lost = stLost ∧ (c1.slot lost).probe = none then c1.lostProbe lost odd else c1
  else if back then c
  else c.segOut n key

/-- A command of the device's own has been answered. -/
def Chip.ownReply (c : Chip) (p : Nat) (o : CmdOut) (st data : Nat) : Chip :=
  match c.slotAt p o.pos with
  | none => c
  | some s =>
    match o.tag with
    | .wkId => c.idRead s data
    | .svcRead v => c.cmdSend p (mkOut o.pos true o.addr (F.LNK_CTL_SVC_EN.put (BitVec.ofNat 32 data) v.toNat).toNat .svcWrite)
    | .keep => c.keepReply s o.addr data
    | .segUp =>
      if F.LNK_STAT_SEG_UP.of (BitVec.ofNat 32 data) = 1 then c.moveUp (s / 16) else c
    | .linkChk h => if st = 0 then c.linkRead s h (F.LNK_STAT_SEG_UP.of (BitVec.ofNat 32 data) = 1) else c
    | .near => if st = 0 then c.ss F.PRT_SLOT_NEAR s (F.WK_POS_NEAR.of (BitVec.ofNat 32 data)) else c
    | .gstat => c.gstatRead s data
    | .trim i => if st = 0 then c.trimStep s (i + 1) else c.setState s stReady
    | .maskRead v => if st = 0 then c.cmdSend p (mkOut o.pos true o.addr (F.PIX_MASK_AUTO.put (BitVec.ofNat 32 data) v.toNat).toNat .own) else c
    | .pgRead => if st = 0 then c.cmdSend p (mkOut o.pos true o.addr (F.TILE_AFE_PG.put (BitVec.ofNat 32 data) 1).toNat .own) else c
    | .own => if o.addr = 0x001 then c.cmdSend p (mkOut o.pos false 0x002 0 .gstat) else c
    | _ => c

/-- The outstanding CMD a REPLY answers: by POS and SEQ; a POS of 0 answers the enumeration command (R211, R213). -/
def matches_ (b : Block) (o : CmdOut) : Bool :=
  match o.tag with
  | .enum k => (b.pos == 0 || b.pos == k) && o.seq == b.f 55 48
  | _ => (o.pos == b.pos || o.pos == 0x1F || (o.pos == 0 && (b.pos == 0 || b.f 103 88 == 0x00B))) && o.seq == b.f 55 48

/-- Take the first block of a kind off a manager port's inbox. -/
def Chip.takeIn (c : Chip) (p : Nat) (want : Block → Bool) : Option (Block × Chip) :=
  let sel := fun (i : RxItem) => match i with
    | .block b => want b
    | .close _ _ _ _ _ _ => false
  match (c.port p).inbox.find? sel with
  | some (.block b) => some (b, c.setPort p { c.port p with inbox := (c.port p).inbox.eraseP sel })
  | _ => none

/-- REPLY_RECEIVED (R213): the reply may come on the other port of the pair when the worker has turned. -/
def Chip.replyIn (c : Chip) (p : Nat) : Chip :=
  match c.takeIn p (fun b => b.is .reply) with
  | none => c
  | some (b, c1) =>
    let other := if p % 2 = 0 then p + 1 else p - 1
    let pick := fun q => ((c1.engine q).out.find? (matches_ b)).map (fun o => (q, o))
    match (pick p).or (pick other) with
    | none => c1
    | some (q, o) =>
      let st := b.f 106 104
      let data := b.f 87 56
      let seen := fun (c : Chip) => match c.slotAt q o.pos with
        | some s => c.modSlot s (fun x => { x with lastSeen := c.tick })
        | none => c
      let c2 := seen c1
      match o.tag with
      | .prt => if o.pos = 0x1F then c2.txnReply q o b.pos st data else (c2.cmdDone q o).txnReply q o o.pos st data
      | .enum k => if st = 0 then (c2.cmdDone q o).enumOk q k (F.WK_POS_NEAR.of (BitVec.ofNat 32 data)) else (c2.cmdDone q o).enumFail q k
      | _ => (c2.cmdDone q o).ownReply q o st data

/-- REPLY_TIMEOUT (R213): the first CMD of the port whose time is up is sent again, or ends; the time of one that a move
holds back has not begun. -/
def Chip.replyTimeout (c : Chip) (p : Nat) : Chip :=
  match (c.engine p).out.find? (fun o => decide (o.due ≤ c.tick)) with
  | none => c
  | some o =>
    let e := c.engine p
    let again := { o with due := c.tick + c.replyTo p }
    let swap := fun x => c.setEngine p { e with out := e.out.map (fun y => if y = o then x else y) }
    if c.cmdHeld p o then swap again
    else if o.pos ≠ 0x1F ∧ o.tries ≤ c.retry p then
      let o1 := { again with tries := o.tries + 1 }
      (swap o1).cmdAgain p o1
    else
      let c1 := c.cmdDone p o
      match o.tag with
      | .prt => c1.txnTimeout p o
      | .enum k => c1.enumFail p k
      | .trim _ => match c.slotAt p o.pos with
        | some s => c1.setState s stReady
        | none => c1
      | _ => c1

/-! ## Split policy (R237) -/

/-- The move of one position that BALANCE calls for, if any: the busier half carries more than 1.2 times the other, the
move reduces the difference, and the Chart's LIMITS allow the new split (R237). -/
def Chip.balanceTo (c : Chip) (n : Nat) : Option Nat :=
  let s := c.split n
  let half := fun (p : Nat → Bool) => (((List.range (c.nEven n)).filter p).map (fun i => (c.slot (16 * n + i)).recs)).foldl (· + ·) 0
  let e := half (fun i => decide (i < s))
  let o := half (fun i => decide (s ≤ i))
  let d := fun (a b : Nat) => (max a b) - (min a b)
  let fits := fun (t : Nat) => limSplitLo c.work n ≤ t ∧ t ≤ limSplitHi c.work n
  if 10 * e > 12 * o ∧ s ≠ 0 then
    let r := (c.slot (16 * n + s - 1)).recs
    if d (e - r) (o + r) < d e o ∧ fits (s - 1) then some (s - 1) else none
  else if 10 * o > 12 * e ∧ s < c.nEven n then
    let r := (c.slot (16 * n + s)).recs
    if d (e + r) (o - r) < d e o ∧ fits (s + 1) then some (s + 1) else none
  else none

/-- REBALANCE_CHECK (R237): every REBAL_INT under BALANCE the halves' record rates of the interval are compared, and a
move that starts is recorded. -/
def Chip.rebalance (c : Chip) (n : Nat) : Chip :=
  let s := c.split n
  if !c.isLoop n ∨ c.g (pairFld F.PRT_LOOP_CFG_POLICY n) ≠ 1 ∨ !limFlag c.work limBalance ∨ s = 0x1F ∨ c.tick < (c.pair n).rebalAt + c.rebalInt n then c
  else
    let c0 := c.modPair n (fun y => { y with rebalAt := c.tick })
    let c1 := (List.range 16).foldl (fun c i => c.modSlot (16 * n + i) (fun y => { y with recs := 0 })) c0
    match c.balanceTo n with
    | none => c1
    | some t =>
      let c2 := c1.plan n t false
      if (c2.pair n).move.isSome ∧ (c1.pair n).move = none then c2.logAuto limBalance (2 * n) s t else c2

end Sys2Proof
end

