-- ==== Sys2Proof/Machine/Meridian.lean ====
section
/-!
DEFINITION. Machine/Meridian.lean: Meridian's states and sources (R244 to R254), beacons to workers (R258, R261), path
delays, hop table and steering (R262 to R269), the peer chain (R52 to R54, R253, R254, R269), and the table window
(R273).
-/
namespace Sys2Proof

/-! ## States (R244 to R246) -/

/-- FIX_THR and the slew bound, with the values a register takes for others (R272). -/
def Chip.fixThr (c : Chip) : Int := 1024 * (max 1 (c.g F.MER_SERVO_FIX_THR) : Nat)
def Chip.slewMax (c : Chip) : Nat := min 2000 (max 1 (c.g F.MER_SERVO_SLEW_MAX))

/-- The average of the frequency corrections of the last 64 s (R246). -/
def meanFreq (now : Nat) (h : List (Nat × Int)) : Option Int :=
  let l := (h.filter (fun x => now < x.1 + 64 * sTicks)).map (·.2)
  if l = [] then none else some (l.foldl (· + ·) 0 / (l.length : Int))

/-- Meridian changes state: STATE_CHG, the event of the state, and a record (R244, R246). On entry to fix, and to reckoning
from lost, the error bound is one the manual does not state. -/
def Chip.merState (c : Chip) (st : Nat) : Chip :=
  let old := c.g F.MER_STAT_STATE
  if old = st then c
  else
    let held := if st = 1 then
        match meanFreq c.tick c.mer.freqHist with
        | some f => c.s F.MER_FREQ_FREQ (patternOf 32 f)
        | none => c
      else c
    let (bound, c0) := held.free 20
    let c1 := match st with
      | 1 => c0.modMer (fun m => { m with reckFrom := c.tick, goodRun := 0, badRun := 0, boundAt := if old = 2 then m.boundAt else bound })
      | 2 => (c0.modMer (fun m => { m with boundAt := bound, badRun := 0 })).s F.MER_STAT_EBOUND (eboundCode bound)
      | _ => c0.modMer (fun m => { m with goodRun := 0, badRun := 0 })
    let c2 := if old = 2 then c1.modMer (fun m => { m with lastFix := c.tick }) else c1
    let c3 := ((c2.s F.MER_STAT_STATE st).flag F.MER_STAT_STATE_CHG 80 0).event (match st with
      | 2 => 81
      | 1 => 82
      | _ => 83) 0
    c3.logAct 0 old st

/-- The source becomes invalid (R244, R247, R249, R252, R253). -/
def Chip.sourceLost (c : Chip) : Chip :=
  let c1 := (c.modMer (fun m => { m with srcValid := false, goodRun := 0 })).flag F.MER_STAT_SRC_FAULT 84 0
  if c.inFix then c1.merState 1 else c1

/-- A phase correction: stepped while RUN_EN is 0 and the offset exceeds 1 µs, else slewed (R245). -/
def Chip.correct (c : Chip) (off : Int) : Chip :=
  if !c.run ∧ off.natAbs > 1024000 then
    (c.modMer (fun m => { m with ofs := m.ofs - off, slew := 0 })).s F.MER_STAT_SLEW 0
  else (c.modMer (fun m => { m with slew := -off })).s F.MER_STAT_SLEW (if off = 0 then 0 else 1)

/-- OFFSET saturates at 32 bits (R272). -/
def Chip.setOffset (c : Chip) (off : Int) : Chip :=
  c.s F.MER_OFFSET_OFFSET (patternOf 32 (clampInt (-(2 ^ 31 : Int)) (2 ^ 31 - 1) off))

/-- One measurement: an offset from the source, in SUBNS LSBs (R244). `best` is the best state it may lead to. -/
def Chip.judge (c : Chip) (off : Int) (best : Nat) : Chip :=
  let good := decide ((off.natAbs : Int) ≤ c.fixThr)
  let far := decide (4 * c.fixThr < off.natAbs)
  let c1 := (c.setOffset off).modMer (fun m => { m with srcValid := true, goodRun := if good then m.goodRun + 1 else 0,
                                                        badRun := if far then m.badRun + 1 else 0 })
  if !c1.inFix ∧ 8 ≤ c1.mer.goodRun ∧ best = 2 then c1.merState 2
  else if c1.inFix ∧ (4 ≤ c1.mer.badRun ∨ best ≠ 2) then c1.merState 1
  else c1

/-- A frequency correction is in force (R246, R272); reckoning holds the one it has. -/
def Chip.setFreq (c : Chip) (f : Int) : Chip :=
  if c.g F.MER_STAT_STATE = 1 then c
  else (c.s F.MER_FREQ_FREQ (patternOf 32 f)).modMer
    (fun m => { m with freqHist := (c.tick, f) :: m.freqHist.filter (fun x => c.tick < x.1 + 64 * sTicks) })

/-- One MCK cycle of slewing (R245): at most SLEW_MAX × 10⁻⁸ of a cycle's 1,600 LSBs. MCK itself is drawn toward the source,
so a cycle stays 1,600 LSBs (R241) and the correction still to be made shrinks. -/
def Mer.slewTick (m : Mer) (slewMax : Nat) : Mer :=
  if m.slew = 0 then m
  else
    let acc := m.acc + 1600 * slewMax
    let k : Int := acc / 100000000
    let step := if 0 < m.slew then min k m.slew else max (-k) m.slew
    { m with slew := m.slew - step, acc := acc % 100000000 }

/-- Slewing goes on, and SLEW clears when nothing is left to slew (R243). -/
def Chip.slewCycle (c : Chip) : Chip :=
  let m := c.mer.slewTick c.slewMax
  let c1 := { c with mer := m }
  if c.mer.slew ≠ 0 ∧ m.slew = 0 then c1.s F.MER_STAT_SLEW 0 else c1

/-- RECKONING_BOUND_EXCEEDED (R244, R246): LOST_BOUND is in 100 ns. -/
def Chip.boundExceeded (c : Chip) : Chip :=
  if c.g F.MER_STAT_STATE = 1 ∧ 100000 * c.g F.MER_HOLD_LOST_BOUND < c.reckBound then c.merState 0 else c

/-- Every enumerated slot is owed a SET beacon (R261). -/
def Chip.resetFrames (c : Chip) : Chip :=
  (List.range 1024).foldl (fun c s => if c.enumerated s then c.modSlot s (fun x => { x with needSet := true }) else c) c

/-- The NS that a coarse set gives Meridian: SET_NS, or a free NS where SET_NS is no NS value (R240, log entry 106). -/
def Chip.setNs (c : Chip) : Nat × Chip :=
  let ns := c.g F.MER_SET_NS_SET_NS
  if ns < 1000000000 then (ns, c) else let (x, c1) := c.free 30; (x % 1000000000, c1)

/-- MER_SET_CTL with GO = 1 (R245, R377): a coarse set, or its refusal while a run is enabled or being checked. -/
def Chip.coarseSet (c : Chip) : Chip :=
  let c := c.s F.MER_SET_CTL_GO 0
  if c.run ∨ c.b F.GBL_STAT_CHECK_BUSY then
    ((c.s F.MER_SET_CTL_REFUSED 1).flag F.MER_STAT_SET_REFUSED 85 0).logCtx kRefusal 0x08 0
  else
    let sec := c.g F.MER_SET_SEC_HI_SET_SEC * 2 ^ 32 + c.g F.MER_SET_SEC_LO_SET_SEC
    let (ns, c) := c.setNs
    let c1 := c.modMer (fun m => { m with ofs := (timeOf sec ns 0 : Int) - 1600 * c.tick, slew := 0 })
    let c2 := ((c1.s F.MER_SET_CTL_REFUSED 0).s F.MER_STAT_SEC_SET 1).s F.MER_STAT_SLEW 0
    let c3 := if c2.g F.MER_STAT_SRC = 0 then c2.s F.MER_STAT_SRC 5 else c2
    (c3.event 87 0).resetFrames

/-- What SRC reports of a choice of source: codes 6 and 7 are never used (R243). -/
def srcOf (sel : Nat) : Nat := if sel ≤ 5 then sel else 0

/-- A change of SRC_SEL (R247): the old source is no longer valid, and Meridian enters reckoning, from lost too (log entry
21). A lead as the source names the peer port in use (log entry 123). -/
def Chip.sourceChange (c : Chip) : Chip :=
  let sel := c.g F.MER_CTL_SRC_SEL
  let c1 := (c.modMer (fun m => { m with srcValid := false, goodRun := 0, badRun := 0, ptpLast := c.tick, ppsLast := c.tick })).s F.MER_STAT_SRC (srcOf sel)
  let c2 := if sel = 3 ∨ sel = 4 then c1.s F.MER_PEER_STAT_USE (sel - 2) else c1
  c2.merState 1

/-! ## PTP (R248, R249) -/

/-- A write of MER_PADJ (R248, R272): acts only while SRC is PTP; it adds to the correction pending. -/
def Chip.padj (c : Chip) (v : Word) : Chip :=
  if c.g F.MER_STAT_SRC ≠ 1 then c
  else
    let d := v.toInt
    let c1 := c.modMer (fun m => { m with ptpLast := c.tick })
    let c2 := c1.judge (-d) 2
    if !c.run ∧ d.natAbs > 1024000 then c2.modMer (fun m => { m with ofs := m.ofs + d })
    else
      let c3 := c2.modMer (fun m => { m with slew := m.slew + d })
      c3.s F.MER_STAT_SLEW (if c3.mer.slew = 0 then 0 else 1)

/-- A write of MER_FADJ: held to ±100 ppm in 2⁻¹⁶ ppm (R272). -/
def Chip.fadj (c : Chip) (v : Word) : Chip :=
  let c1 := c.s F.MER_FADJ_FADJ v.toNat
  if c.g F.MER_STAT_SRC = 1 then c1.setFreq (clampInt (-6553600) 6553600 v.toInt) else c1

/-- PTP_SERVO_TIMEOUT (R249). -/
def Chip.ptpTimeout (c : Chip) : Chip :=
  if c.g F.MER_STAT_SRC = 1 ∧ c.mer.srcValid ∧ c.mer.ptpLast + 3 * sTicks ≤ c.tick then c.sourceLost else c

/-! ## REF_IN and PPS_IN (R251, R252) -/

/-- The distance of a time from the nearest whole second (R251). -/
def secDist (t : Int) : Int :=
  let s : Int := subSec
  (t + s / 2) % s - s / 2

/-- A PPS_IN edge, `sub` SUBNS LSBs into the present cycle; only the edge that PPS_NEG selects is active (R251). `freq` is
the frequency correction the PLL has found against REF_IN. -/
def Chip.ppsEdge (c : Chip) (rising : Bool) (sub : Nat) (freq : Int) : Chip :=
  if c.g F.MER_STAT_SRC ≠ 2 ∨ rising = c.b F.MER_CTL_PPS_NEG then c
  else
    let t : Int := (c.sub + sub : Nat)
    let off := secDist (t - t % 2 + signedOf 20 (c.g F.MER_REF_DLY_REF_DLY))
    let c0 := (c.modMer (fun m => { m with ppsLast := c.tick })).setFreq freq
    if !c.inFix ∨ off.natAbs ≤ 1024000 then ((c0.modMer (fun m => { m with spurs := [] })).judge off 2).correct off
    else
      let close := c.mer.spurs.takeWhile (fun o => decide ((off - o).natAbs ≤ 102400))
      let c1 := (c0.modMer (fun m => { m with spurs := off :: close })).flag F.MER_STAT_PPS_SPUR 86 0
      if close.length < 2 then c1
      else ((c1.modMer (fun m => { m with spurs := [] })).setOffset off |>.correct off).merState 1

/-- PPS_TIMEOUT (R252). -/
def Chip.ppsTimeout (c : Chip) : Chip :=
  if c.g F.MER_STAT_SRC = 2 ∧ c.mer.srcValid ∧ c.mer.ppsLast + 11 * sTicks / 10 ≤ c.tick then c.sourceLost else c

/-- Edges of REF_IN in 1 µs: it carries 320 MHz or 10 MHz, as REF_320 selects (R251). -/
def Chip.refPerUs (c : Chip) : Nat := if c.b F.MER_CTL_REF_320 then 320 else 10

/-- REF_IN_LOSS (R252): so many edges of REF_IN in a row have not come; the source is invalid after 1 µs without one. -/
def Chip.refLoss (c : Chip) (missed : Nat) : Chip :=
  if c.g F.MER_STAT_SRC = 2 ∧ c.mer.srcValid ∧ c.refPerUs ≤ missed then c.sourceLost else c

/-- PPS_OUT (R255): high for 10 ms from NS = PPS_OFS. -/
def Chip.ppsOut (c : Chip) : Bool :=
  let o := c.g F.MER_PPS_OUT_PPS_OFS
  let ofs := if 1000000000 ≤ o then 0 else o
  c.b F.MER_PPS_OUT_PPS_OUT_EN && decide ((c.sub + subSec - 1024 * ofs) % subSec < 10000000 * 1024)

/-- REF_OUT (R255): 320 MHz or 10 MHz, with a rising edge at each NS = 0. -/
def Chip.refOut (c : Chip) : Bool :=
  let period := if c.b F.MER_PPS_OUT_REF_OUT_10M then 102400 else 3200
  decide (c.sub % subSec % period < period / 2)

/-! ## The transmit timestamp queue (R250) -/

/-- Push (R250): the entry is stored. Whether a 17th stays is settled with the MCK cycle, in which a pop may still come. -/
def Chip.txtsPush (c : Chip) (id time : Nat) : Chip := c.modMer (fun m => { m with txts := m.txts ++ [⟨id, time, c.tick⟩] })

/-- Pop (R250): the head is removed; one pushed in the same cycle is at the head from the next cycle on. -/
def Chip.txtsPop (c : Chip) : Chip :=
  (c.modMer (fun m => { m with txts := match m.txts with
    | e :: r => if e.when = c.tick then e :: r else r
    | [] => [] })).s F.MER_TXTS_POP_POP 0

/-- The end of an MCK cycle at the queue (R250): an entry above the 16th is dropped. -/
def Chip.txtsSettle (c : Chip) : Chip :=
  if c.mer.txts.length ≤ 16 then c
  else
    let surplus := c.mer.txts.length - 16
    ((c.modMer (fun m => { m with txts := m.txts.take 16 })).sat F.MER_TXTS_STAT_OVF_CNT surplus).flag F.MER_TXTS_STAT_OVF 88 0

/-! ## Beacons to workers (R258, R261) -/

/-- PERIODIC_BEACON (R258): once per 2¹⁸ counts every worker port in service takes the broadcast
beacon ahead of other blocks; a
beacon that falls in a fail-over gap leaves after it. COUNT is filled in as the block leaves. -/
def Chip.periodicBeacon (c : Chip) : Chip :=
  if c.kcount / 2 ^ 18 ≤ c.mer.beaconSlot ∨ c.tick < c.mer.gapEnd then c
  else
    let c1 := c.modMer (fun m => { m with beaconSlot := c.kcount / 2 ^ 18 })
    (List.range 128).foldl (fun c p =>
      let x := c.port p
      if x.segUp false then c.setPort p { x with tx := { x.tx with queue := mkTimeBeacon 0x1F false 0 0 :: x.tx.queue } } else c) c1

/-- An addressed beacon for a slot (R259, R261, R267, R268). -/
def Chip.sendBeacon (c : Chip) (slot : Nat) (set : Bool) (adj : Int) : Chip :=
  match c.servePort slot with
  | some p => c.queueOn p (mkTimeBeacon (c.posOf slot) set 0 adj)
  | none => c

/-! ## Path delays (R262 to R266) -/

/-- The index of segment h of a slot's chain in the Meridian table (R273). -/
def Chip.segIx (c : Chip) (slot h : Nat) : Nat := 32 * (slot / 16) + (if c.onOddSpur slot then 24 else 0) + h

/-- RT_h in fine LSBs. -/
def Chip.rt (c : Chip) (ix : Nat) : Int := (c.hop ix).rt16 / 16

/-- The number of segments of the loop a table index lies in, when it is one of a loop. -/
def Chip.asym (c : Chip) (ix : Nat) : Int :=
  let n := ix / 32
  let h := ix % 32
  let mw := signedOf 16 Config.asymMw
  let sk := segSkew c.work ix
  if h = 0 ∨ h = 24 then mw + sk else if c.isLoop n ∧ h = c.nEven n then sk - mw else sk

/-- The one-way delays of a segment (R265). -/
def Chip.fwd (c : Chip) (ix : Nat) : Int := (c.rt ix + c.asym ix) / 2
def Chip.rev (c : Chip) (ix : Nat) : Int := (c.rt ix - c.asym ix) / 2

/-- The segments between a port and a slot's worker (R266). -/
def Chip.pathSegs (c : Chip) (slot : Nat) (odd : Bool) : List Nat :=
  let k := c.posOf slot
  if odd ∧ c.isLoop (slot / 16) then ((List.range (c.nEven (slot / 16) + 1)).drop k).map (c.segIx slot)
  else (List.range k).map (c.segIx slot)

def sumInt (l : List Int) : Int := l.foldl (· + ·) 0

/-- The downlink delay D of a worker from a port's side (R266). -/
def Chip.downDelay (c : Chip) (slot : Nat) (odd : Bool) : Int :=
  let l := c.pathSegs slot odd
  sumInt (l.map (if odd ∧ c.isLoop (slot / 16) then c.rev else c.fwd))

/-- Every segment of the path has been measured. -/
def Chip.pathKnown (c : Chip) (slot : Nat) (odd : Bool) : Bool := (c.pathSegs slot odd).all (fun i => (c.hop i).valid)

/-- A new sample of a segment's round trip (R264). While its path's first measurements are taken, the sample formed of the
least of them stands as it is (R263). -/
def Chip.hopSample (c : Chip) (ix : Nat) (early : Bool) (x : Int) : Chip :=
  let h := c.hop ix
  let put := fun (c : Chip) (y : Hop) => c.modMer (fun m => { m with hops := AMap.set (always Hop.init) m.hops ix y })
  if early ∨ !h.valid then put c { h with valid := true, stale := false, rt16 := 16 * x, lastAt := c.tick, discards := 0 }
  else if (c.g F.MER_WK_CTL_OUTLIER : Int) < (x - h.rt16 / 16).natAbs then
    if 3 ≤ h.discards then ((put c { h with rt16 := 16 * x, discards := 0, stale := false, lastAt := c.tick }).event 90 (ix / 32)).logAct ix
      (patternOf 64 (h.rt16 / 16)) (patternOf 64 x)
    else put c { h with discards := h.discards + 1 }
  else put c { h with rt16 := h.rt16 + (16 * x - h.rt16) / 16, discards := 0, stale := false, lastAt := c.tick }

/-- The value congruent to rt modulo 6,400 that lies nearest the prediction (R263). -/
def nearest (rt pred : Int) : Int := pred + ((rt - pred + 3200) % 6400 - 3200)

/-- A path round trip of a slot from a side: the least of the first 8, then the latest (R263); the difference of two
neighbours' gives the segment's sample (R264). -/
def Chip.rtSample (c : Chip) (slot : Nat) (odd : Bool) (rt : Int) : Chip :=
  let n := slot / 16
  let k := c.posOf slot
  let x := c.slot slot
  let side := odd && c.isLoop n
  let old := if side then x.rtOdd else x.rtEven
  let pred := sumInt ((c.pathSegs slot side).map c.rt)
  let early := decide (x.samples < 8)
  let rt := if c.pathKnown slot side ∧ !early then nearest rt pred else rt
  let now := match old with
    | some r => if early then min r rt else rt
    | none => rt
  let c1 := c.setSlot slot (if side then { x with rtOdd := some now, samples := min 255 (x.samples + 1) }
    else { x with rtEven := some now, samples := min 255 (x.samples + 1) })
  let edge := if side then k = c.nEven n else k = 1
  let seg := c.segIx slot (if side then k else k - 1)
  if edge then c1.hopSample seg early now
  else
    let nb := c1.slot (if side then slot + 1 else slot - 1)
    match (if side then nb.rtOdd else nb.rtEven) with
    | some r => c1.hopSample seg early (now - r)
    | none => c1

/-- A segment that has had no sample for 1 s is STALE (R264). -/
def Chip.hopStale (c : Chip) (ix : Nat) : Chip :=
  let h := c.hop ix
  if h.valid ∧ h.lastAt + sTicks ≤ c.tick then
    c.modMer (fun m => { m with hops := AMap.set (always Hop.init) m.hops ix { h with stale := true } })
  else c

/-! ## Probes and steering (R261, R263, R267, R268) -/

/-- PROBE_SEND: each READY or RUNNING slot once per 2^(16 + PROBE_LOG) cycles (R263). -/
def Chip.probeSend (c : Chip) (slot : Nat) : Chip :=
  let st := c.sg F.PRT_SLOT_STATE slot
  let x := c.slot slot
  if (st = stReady ∨ st = stRunning) ∧ x.probe = none ∧
      (x.tag = 0 ∨ x.lastProbe + 2 ^ (16 + min 8 (c.g F.MER_WK_CTL_PROBE_LOG)) ≤ c.tick) then
    c.sendProbe slot (c.sg F.PRT_SLOT_SERVE slot = 1) false false 1
  else c

/-- Rounding to the nearest of a number in 1/256. -/
def round256 (x : Int) : Int := (x + 128) / 256

/-- The slot is owed a SET beacon and may have it (R261): not RUNNING, and its delay known. -/
def Chip.setFrame (c : Chip) (slot : Nat) (d : Int) : Chip :=
  let x := c.slot slot
  let adj := d - x.wofs
  if 0 ≤ adj ∧ adj ≤ 524287 then
    (c.setSlot slot { x with needSet := false, delay := d, adj := 0, avg := 0, turned := false }).sendBeacon slot true adj
  else (c.setSlot slot { x with needSet := false }).event 92 slot

/-- After a re-route (R268). -/
def Chip.reroute (c : Chip) (slot : Nat) (d arr : Int) : Chip :=
  let x := c.slot slot
  let th := arr - d
  let rr := th - x.theta
  let adj := -x.wofs - th
  let x1 := { x with turned := false, delay := d, theta := th, lastRr := rr, reroutes := min 255 (x.reroutes + 1) }
  let c1 := (c.setSlot slot { x1 with adj := adj, adjEnd := c.tick + 4096 * adj.natAbs, avg := 0 }).sendBeacon slot false adj
  if (c.g F.MER_WK_CTL_RR_TOL : Int) < rr.natAbs then (c1.event 89 slot).logAct slot (patternOf 64 x.theta) (patternOf 64 th) else c1

/-- Steering after a probe (R267). -/
def Chip.steer (c : Chip) (slot : Nat) (d arr : Int) : Chip :=
  let x := c.slot slot
  let th := arr - d
  let avg := x.avg + (256 * (th + x.wofs) - x.avg) / 8
  let adj0 := if x.adjEnd ≤ c.tick then 0 else x.adj
  let x1 := { x with delay := d, theta := th, avg := avg, adj := adj0 }
  if adj0 ≠ 0 ∨ avg.natAbs < 256 then c.setSlot slot x1
  else
    let slow := c.slewMax ≤ 30
    let want := -round256 avg
    let adj := if slow then (if 0 < want then 1 else -1) else want
    let x2 := { x1 with adj := adj, avg := avg + 256 * adj, adjEnd := c.tick + (if slow then max 4096 ((125000 + c.slewMax - 1) / c.slewMax) else 4096 * adj.natAbs) }
    (c.setSlot slot x2).sendBeacon slot false adj

/-- ECHO_RECEIVED (R263 to R268, R228, R232): `age` is the time since the echo's first header bit was captured, in fine
LSBs. -/
def Chip.echoIn (c : Chip) (p age : Nat) : Chip :=
  match c.takeIn p (fun b => b.is .beacon && b.form == 2 && b.f 104 104 == 1) with
  | none => c
  | some (b, c1) =>
    match c1.slotAt p b.pos with
    | none => c1
    | some slot =>
      let x := c1.slot slot
      match x.probe with
      | none => c1
      | some q =>
        match q.kTx with
        | none => c1
        | some k =>
          if q.tag ≠ b.f 103 88 ∨ q.odd ≠ decide (p % 2 = 1) then c1
          else
            let arr := circleDiff (800 * b.f 87 40 + b.f 39 30 : Nat) (800 * k : Nat)
            let tEcho : Int := (c.fine : Int) - age
            let rt := (tEcho - 800 * k) - (800 * (b.f 29 10 : Int) - b.f 39 30)
            let c2 := c1.setSlot slot { x with probe := none, lastSeen := c.tick }
            let n := slot / 16
            let pos := c.posOf slot
            let c3 := if q.odd ∧ c.isLoop n ∧ pos = c.g (pairFld F.PRT_LOOP_STAT_FOUND_EVEN n) then c2.s (pairFld F.PRT_LOOP_STAT_CLOSED n) 1 else c2
            let c4 := if c3.sg F.PRT_SLOT_STATE slot = stLost then c3.lostFound slot q.odd true else c3
            let c5 := if q.turning then c4.moveEcho n pos else c4
            let c6 := c5.rtSample slot q.odd rt
            let y := c6.slot slot
            if !c6.pathKnown slot (q.odd && c.isLoop n) then c6
            else
              let d := c6.downDelay slot q.odd
              if y.needSet then
                (if c6.sg F.PRT_SLOT_STATE slot = stRunning ∨ y.samples < 8 then c6 else c6.setFrame slot d)
              else if y.turned then c6.reroute slot d arr
              else c6.steer slot d arr

/-! ## Manager slots -/

/-- The time fields of a block are those of the slot it leaves in (R241, R253, R258, R262, R263). -/
def Chip.stampBlock (c : Chip) (b : Block) : Block :=
  if b.is .beacon then
    match b.form with
    | 0 => mkTimeBeacon b.pos (b.f 104 104 = 1) (c.kcount % 2 ^ 48) (signedOf 20 (b.f 55 36))
    | 2 => if b.f 104 104 = 1 then mkEcho b.pos (b.f 103 88) (b.f 87 40) (b.f 39 30) ((c.kcount + 2 ^ 48 - b.f 87 40) % 2 ^ 48 % 2 ^ 20) else b
    | 3 => mkPeerTime (c.g F.MER_STAT_STATE) (b.f 107 100) (secOf c.sub % 2 ^ 32) (nsOf c.sub) (subnsOf c.sub)
    | _ => b
  else b

/-- A probe leaves: K_tx is the count of its slot (R263, R269). -/
def Chip.probeLeft (c : Chip) (p : Nat) (b : Block) : Chip :=
  if !(b.is .beacon && b.form == 2 && b.f 104 104 == 0) then c
  else if p < 128 then
    match c.slotAt p b.pos with
    | some s => c.modSlot s (fun x => match x.probe with
      | some q => if q.tag = b.f 103 88 then { x with probe := some { q with kTx := some c.kcount } } else x
      | none => x)
    | none => c
  else if c.mer.peerTag = b.f 103 88 then c.modMer (fun m => { m with peerKtx := some c.kcount })
  else c

/-- What a manager port's next slot carries while its segment is in service: a block it forwards, as it came (R52), else
the block at the head of its queue with the time fields of its slot. -/
def Chip.nextBlock (c : Chip) (x : Port) : Option (Block × PortTx) :=
  match x.tx.pass, x.tx.queue with
  | b :: r, _ => some (b, { x.tx with pass := r })
  | [], b :: r => some (c.stampBlock b, { x.tx with queue := r })
  | [], [] => none

/-- One block slot of a manager port (R40, R183, R197): a block while the segment is in service, else IDLE, with the SIDE
of the port, or test traffic; a slot in the gap of a Meridian unit fail-over carries IDLE (R405). A port in far-end
loop-back sends nothing of its own (R203). -/
def Chip.portSlot (c : Chip) (p : Nat) : Chip :=
  let x := c.port p
  let gap := decide (c.mer.gapEnd ≤ c.tick + 11) && decide (c.tick < c.mer.gapEnd)
  if x.g false F.LNK_CTL_LPB_FAR = 1 then c
  else match x.segUp false && !gap, c.nextBlock x with
    | true, some (b, tx) => (c.setPort p ({ x with tx := tx }.send false b)).probeLeft p b
    | _, _ => c.setPort p (x.sendIdle false 0 0x0A31 0x30 (if p < 128 then 2 else 3))

/-! ## The hierarchy (R50 to R54, R253, R254, R269) -/

/-- The role: 0 alone, 1 lead, 2 subordinate, 3 disciplined subordinate. -/
def Chip.hier (c : Chip) : Nat := c.g F.MER_CTL_ROLE

/-- The peer port in use: what USE reports; before anything has been received the port that SRC_SEL names as the lead's, or
the primary port (R54, R521, log entry 123). -/
def Chip.peerUse (c : Chip) : Nat :=
  match c.g F.MER_PEER_STAT_USE with
  | 1 => 128
  | 2 => 129
  | _ => match c.g F.MER_CTL_SRC_SEL with
    | 3 => 128
    | 4 => 129
    | _ => 128 + c.g F.MER_CTL_PRIM_PEER

/-- A block passes on to the other peer port, cut-through (R52); out of service, that port sends none (R183). -/
def Chip.passOn (c : Chip) (p : Nat) (b : Block) : Chip :=
  let x := c.port p
  if x.segUp false then c.setPort p { x with tx := { x.tx with pass := x.tx.pass ++ [b] } } else c

/-- PEER_BLOCK_FORWARD (R52, R269, R521): the first block of a peer port. `age` is the time since its first header bit
was captured, in fine LSBs. -/
def Chip.peerForward (c : Chip) (odd : Bool) (age : Nat) : Chip :=
  let p := 128 + odd.toNat
  let other := 129 - odd.toNat
  match c.takeIn p (fun b => !b.is .idle) with
  | none => c
  | some (b, c1) =>
    let probe := b.is .beacon && b.form == 2 && b.f 104 104 == 0
    if c.hier = 1 then
      if probe then
        let t := (c.fine - age) % (800 * 2 ^ 48)
        c1.queueOn p (mkEcho b.pos (b.f 103 88) (t / 800) (t % 800) 0)
      else c1
    else if c.hier = 0 then c1
    else
      let c2 := c1.passOn other b
      if b.outward ∧ p = c.peerUse then
        let c3 := if c.g F.MER_PEER_STAT_USE = 0 then c2.s F.MER_PEER_STAT_USE (1 + odd.toNat) else c2
        c3.modMer (fun m => { m with peerIn := m.peerIn ++ [b] })
      else c2

/-- Take the first peer block of a kind. -/
def Chip.takePeer (c : Chip) (want : Block → Bool) : Option (Block × Chip) :=
  match c.mer.peerIn.find? want with
  | some b => some (b, c.modMer (fun m => { m with peerIn := m.peerIn.eraseP want }))
  | none => none

/-- A subordinate goes over to the other peer port where that one is locked; where it has no other path it records the
loss (R54). -/
def Chip.peerMove (c : Chip) : Chip :=
  let p := c.peerUse
  let q := 257 - p
  if (c.port q).locked then
    let c1 := ((c.s F.MER_PEER_STAT_USE (q - 127)).modMer (fun m => { m with goodRun := 0 })).event 91 (q - 128)
    (if 3 ≤ c.g F.MER_STAT_SRC ∧ c.g F.MER_STAT_SRC ≤ 4 then c1.s F.MER_STAT_SRC (3 + (q - 128)) else c1).logAct (q - 128) (p - 128) (q - 128)
  else c.logAct (p - 128) 1 0

/-- PEER_PORT_SWITCH (R54): the port in use has lost lock. -/
def Chip.peerSwitch (c : Chip) : Chip :=
  if c.hier < 2 ∨ (c.port c.peerUse).locked then c
  else (if c.inFix ∧ c.hier = 2 then c.merState 1 else c).peerMove

/-- PEER_BEACON_SEND (R253): every 2¹⁸ cycles a lead sends a peer time beacon on each peer port. -/
def Chip.peerBeacon (c : Chip) : Chip :=
  if c.hier ≠ 1 ∨ c.tick < c.mer.peerSent + 2 ^ 18 then c
  else
    let b := mkPeerTime 0 c.mer.peerSeq 0 0 0
    let c1 := c.modMer (fun m => { m with peerSeq := (m.peerSeq + 1) % 256, peerSent := c.tick })
    (c1.queueOn 128 b).queueOn 129 b

/-- The measured one-way delay of the peer path in use, in fine LSBs (R269). -/
def Chip.peerDelay (c : Chip) : Option Int := if c.peerUse = 128 then c.mer.peerDelay0 else c.mer.peerDelay1

/-- The value for SEC[63:32] that puts the result nearest the device's own time, or 0 when SEC_SET is 0 (R253). -/
def nearHi (own lo : Nat) (set : Bool) : Nat :=
  if !set then lo
  else
    let h := own / 2 ^ 32
    let cand := [h - 1, h, h + 1].map (fun x => x * 2 ^ 32 + lo)
    let d := fun x => max x own - min x own
    cand.foldl (fun b x => if d x < d b then x else b) (h * 2 ^ 32 + lo)

/-- The lead's state bounds a subordinate's: lost with it, and reckoning until its own offset meets R244 (R253). -/
def Chip.leadState (c : Chip) (lead : Nat) : Chip :=
  if lead = 0 then c.merState 0 else if c.g F.MER_STAT_STATE = 0 then c.merState 1 else c

/-- PEER_BEACON_RECEIVED (R253, R254): `age` is the time since its first header bit was captured, in SUBNS LSBs, and `freq`
the frequency correction of the clock recovered on the port in use. A lead is followed while it is the source. -/
def Chip.peerBeaconIn (c : Chip) (age : Nat) (freq : Int) : Chip :=
  match c.takePeer (fun b => b.is .beacon && b.form == 3) with
  | none => c
  | some (b, c1) =>
    let seq := b.f 107 100
    let lead := b.f 109 108
    let inSeq := decide (seq = (c.g F.MER_PEER_STAT_LAST_SEQ + 1) % 256) || decide (c.mer.peerLast = 0)
    let breaks := if inSeq then 0 else c.mer.peerBreaks + 1
    let c2 := ((c1.s F.MER_PEER_STAT_LAST_SEQ seq).s F.MER_PEER_STAT_LEAD_STATE lead).modMer
      (fun m => { m with peerLast := c.tick, peerMiss := 0, peerBreaks := breaks })
    match c2.peerDelay with
    | none => c2
    | some d =>
      let now : Int := (c.sub : Int) - age
      let sec := nearHi (secOf c.sub) (b.f 99 68) (c.b F.MER_STAT_SEC_SET)
      let src : Int := (timeOf sec (b.f 67 38) (b.f 37 28) : Int) + 2 * d
      let off := now - src
      if c.hier = 3 then
        if c.fixThr < off.natAbs then (c2.flag F.MER_STAT_SRC_FAULT 84 0).logAct 0 0 (patternOf 64 off) else c2
      else if c.g F.MER_STAT_SRC ≠ 3 ∧ c.g F.MER_STAT_SRC ≠ 4 then c2
      else if breaks = 8 then c2.sourceLost.peerMove
      else if 8 < breaks then c2
      else ((((c2.s F.MER_STAT_SEC_SET 1).setFreq freq).leadState lead).judge off (min lead 2)).correct off

/-- PEER_BEACON_MISS (R253): one more peer beacon has not come when it was due; at the eighth the source is invalid, and
each eight in a row make the subordinate act as R54 gives. -/
def Chip.peerMiss (c : Chip) : Chip :=
  if c.hier < 2 ∨ c.tick < c.mer.peerLast + 2 ^ 18 * (c.mer.peerMiss + 1) + 2 ^ 17 then c
  else
    let c1 := (c.sat F.MER_PEER_STAT_MISS_CNT).modMer (fun m => { m with peerMiss := m.peerMiss + 1 })
    if c1.mer.peerMiss % 8 ≠ 0 ∨ c.hier ≠ 2 ∨ (c.g F.MER_STAT_SRC ≠ 3 ∧ c.g F.MER_STAT_SRC ≠ 4) then c1
    else (if c1.mer.peerMiss = 8 then c1.sourceLost else c1).peerMove

/-- The sum of the peer skews the TIME section lists for the path (R269). -/
def Chip.peerSkews (c : Chip) : Int := sumInt ((List.range 32).map (peerSkew c.work))

/-- PEER_PROBE (R269): a subordinate takes an echo that carries its index, or sends a probe on the port it measures.
`age` is the time since the echo's first header bit was captured, in fine LSBs. -/
def Chip.peerProbe (c : Chip) (age : Nat) : Chip :=
  if c.hier < 2 then c
  else
    let ix := timeHidx c.work
    match c.takePeer (fun b => b.is .beacon && b.form == 2 && b.f 103 98 == ix) with
    | some (b, c1) =>
      match c.mer.peerKtx with
      | some k =>
        if c.mer.peerTag ≠ b.f 103 88 then c1
        else
          let rt := ((c.fine : Int) - age - 800 * k) - (800 * (b.f 29 10 : Int) - b.f 39 30)
          let d := (rt + c.peerSkews) / 2
          c1.modMer (fun m => if c.peerUse = 128 then { m with peerDelay0 := some d, peerKtx := none } else { m with peerDelay1 := some d, peerKtx := none })
      | none => c1
    | none =>
      let tag := at_ 15 10 ix + (c.mer.peerTag + 1) % 1024
      (c.modMer (fun m => { m with peerTag := tag, peerKtx := none })).queueOn c.peerUse (mkProbe 0 tag)

/-! ## The table window (R273) -/

/-- A segment word: VALID, STALE and the one-way delay in DIR. -/
def Chip.segWord (c : Chip) (ix : Nat) (rev : Bool) : Word :=
  let h := c.hop ix
  if !h.valid then 0
  else BitVec.ofNat 32 (at_ 31 31 1 + at_ 30 30 h.stale.toNat + at_ 29 10 (patternOf 20 (if rev then c.rev ix else c.fwd ix)))

/-- The index names a segment of a chain (R273). -/
def Chip.segNamed (c : Chip) (ix : Nat) : Bool :=
  let n := ix / 32
  let h := ix % 32
  n < 64 && (match c.pairCfg n with
    | 1 => decide (h ≤ c.nEven n)
    | 2 => decide (h < c.nEven n)
    | 3 => 24 ≤ h && decide (h - 24 < c.nOdd n)
    | 4 => if h < 24 then decide (h < c.nEven n) else decide (h - 24 < c.nOdd n)
    | _ => false)

/-- The word MER_TBL_ADDR selects (R273). -/
def Chip.merTblRead (c : Chip) : Word :=
  let ix := c.g F.MER_TBL_ADDR_INDEX
  let rev := c.b F.MER_TBL_ADDR_DIR
  match c.g F.MER_TBL_ADDR_TBL with
  | 0 => if c.segNamed ix then c.segWord ix rev else 0
  | 1 =>
    let x := c.slot (ix / 4)
    if 4096 ≤ ix then 0
    else match ix % 4 with
      | 0 => BitVec.ofNat 32 (patternOf 16 x.wofs)
      | 1 => BitVec.ofNat 32 (patternOf 20 x.delay)
      | 2 => BitVec.ofNat 32 (at_ 31 16 (patternOf 16 (if x.adjEnd ≤ c.tick then 0 else x.adj)) + patternOf 16 (x.avg / 256))
      | _ => BitVec.ofNat 32 (at_ 31 24 x.reroutes + patternOf 16 x.lastRr)
  | 2 =>
    match (if ix = 0 ∧ timeHidx c.work = 1 then c.peerDelay else none) with
    | some d => BitVec.ofNat 32 (at_ 31 31 1 + at_ 29 10 (patternOf 20 d))
    | none => 0
  | _ => 0

/-- A write of the window: only slot word 0, WOFS; a change is slewed by steering (R256, R273). -/
def Chip.merTblWrite (c : Chip) (v : Word) : Chip :=
  let ix := c.g F.MER_TBL_ADDR_INDEX
  if c.g F.MER_TBL_ADDR_TBL = 1 ∧ ix % 4 = 0 ∧ ix < 4096 then
    c.modSlot (ix / 4) (fun x => { x with wofs := signedOf 16 v.toNat })
  else c

/-- INDEX counts on after an access under AUTO_INC. -/
def Chip.merTblInc (c : Chip) : Chip := if c.b F.MER_TBL_ADDR_AUTO_INC then c.wrap F.MER_TBL_ADDR_INDEX else c

/-- A read of MER_NOW_SEC_HI captures the three other words in the same cycle (R272). -/
def Chip.nowRead (c : Chip) : Word × Chip :=
  let t := c.sub
  (BitVec.ofNat 32 (secOf t / 2 ^ 32),
   ((c.s F.MER_NOW_SEC_LO_SEC (secOf t)).s F.MER_NOW_NS_NS (nsOf t)).s F.MER_NOW_SUB_SUBNS (subnsOf t))

end Sys2Proof
end

