-- ==== Sys2Proof/Machine/Ingress.lean ====
section
/-!
DEFINITION. Machine/Ingress.lean: the ingress queues of the manager: dual-clock queues (R274 to R277), the shared pool
and its write stage (R278 to R285), stream time (R286), record placement (R288), watermarks and THROTTLE (R291, R292)
and flushes (R294, R295).
-/
namespace Sys2Proof

def Chip.modQue (c : Chip) (f : Que → Que) : Chip := { c with que := f c.que }
def Chip.modRose (c : Chip) (f : Rose → Rose) : Chip := { c with rose := f c.rose }
def Chip.modWake (c : Chip) (f : Wake → Wake) : Chip := { c with wake := f c.wake }
def Chip.lq (c : Chip) (q : Nat) : LQueue := AMap.get (always LQueue.init) c.que.lq q
def Chip.setLq (c : Chip) (q : Nat) (x : LQueue) : Chip := c.modQue (fun s => { s with lq := AMap.set (always LQueue.init) s.lq q x })
def Chip.modLq (c : Chip) (q : Nat) (f : LQueue → LQueue) : Chip := c.setLq q (f (c.lq q))
def Chip.item (c : Chip) (p : Nat) : Option OpenItem := AMap.get (always none) c.que.items p
def Chip.setItem (c : Chip) (p : Nat) (x : Option OpenItem) : Chip := c.modQue (fun s => { s with items := AMap.set (always none) s.items p x })
def Chip.dcq (c : Chip) (p : Nat) : List RxItem := AMap.get (always []) c.que.dcq p
def Chip.setDcq (c : Chip) (p : Nat) (x : List RxItem) : Chip := c.modQue (fun s => { s with dcq := AMap.set (always []) s.dcq p x })
def Chip.engOf (c : Chip) (e : Nat) : Eng := AMap.get (always Eng.init) c.rose.engs e
def Chip.setEng (c : Chip) (e : Nat) (x : Eng) : Chip := c.modRose (fun s => { s with engs := AMap.set (always Eng.init) s.engs e x })
def Chip.modEng (c : Chip) (e : Nat) (f : Eng → Eng) : Chip := c.setEng e (f (c.engOf e))
def Chip.grp (c : Chip) (g : Nat) : Group := AMap.get (always Group.init) c.rose.groups g
def Chip.setGrp (c : Chip) (g : Nat) (x : Group) : Chip := c.modRose (fun s => { s with groups := AMap.set (always Group.init) s.groups g x })
def Chip.modGrp (c : Chip) (g : Nat) (f : Group → Group) : Chip := c.setGrp g (f (c.grp g))

/-! ## Streams and groups -/

/-- An unused engine input (R358). -/
def noInput : Nat := 0xFFFF

/-- The input word of a stream: its slot and class (R358). -/
def streamWord (q : Nat) : Nat := 2 * (q / 8) + q % 8

/-- The queue an input word reads. -/
def streamQueue (w : Nat) : Nat := 8 * (w / 2) + w % 2

/-- The leaf engine that reads a queue. -/
def Chip.leafOf (c : Chip) (q : Nat) : Option Nat :=
  (List.range 224).find? (fun e => (c.engOf e).used && (c.engOf e).level == 0 && (c.engOf e).inputs.contains (streamWord q))

/-- The merge group a queue is a stream of. -/
def Chip.groupOf (c : Chip) (q : Nat) : Option Nat :=
  if q % 8 < 2 then (c.leafOf q).map (fun e => (c.engOf e).group) else none

/-- The member streams of a group, as queue numbers. -/
def Chip.members (c : Chip) (g : Nat) : List Nat :=
  ((List.range 224).flatMap (fun e =>
    let x := c.engOf e
    if x.used && x.level == 0 && x.group == g then (x.inputs.filter (· ≠ noInput)).map streamQueue else [])).eraseDups

/-! ## Depth and space -/

def QElem.words : QElem → Nat
  | .hit _ _ _ => 1
  | .sight _ _ => 2
  | .status _ _ _ _ _ => Config.statusWords

def qWords (l : List QElem) : Nat := (l.map QElem.words).foldl (· + ·) 0

/-- The depth of a queue in words: all its bucket lists and its late list (R291). -/
def LQueue.depth (x : LQueue) : Nat := (x.buckets.map (fun b => qWords b.2)).foldl (· + ·) (qWords x.late)

/-- Cells of 32 words (R278). -/
def cellsOf (words : Nat) : Nat := (words + 31) / 32

/-- Cells of the pool (R278). -/
def poolCells : Nat := 65536

/-- Free cells of the shared region (R278). -/
def Chip.freeCells (c : Chip) : Nat :=
  let drawn := (c.que.lq.map (fun x => cellsOf x.2.depth - (qParam c.work x.1).guar)).foldl (· + ·) 0
  poolCells - c.que.retired - c.que.guar - drawn

/-- FREE of QUE_POOL, in words (R305). -/
def Chip.poolFree (c : Chip) : Nat := 32 * c.freeCells

/-- A queue has no room for `w` more words (R278). -/
def Chip.qIsFull (c : Chip) (q w : Nat) : Bool :=
  let p := qParam c.work q
  let d := (c.lq q).depth
  decide (32 * p.max < d + w) || (decide (32 * p.guar < d + w) && decide (32 * cellsOf d < d + w) && c.freeCells == 0)

/-- FREE has changed: its minimum and the pool's BUSY source follow (R293, R305). -/
def Chip.poolEval (c : Chip) : Chip :=
  let free := c.poolFree
  let c1 := if free < c.g F.QUE_POOL_MIN_MIN then c.s F.QUE_POOL_MIN_MIN free else c
  let on := 256 * c.g F.QUE_BUSY_BUSY_ON
  let off := max on (256 * c.g F.QUE_BUSY_BUSY_OFF)
  if free ≤ on then c1.modQue (fun s => { s with poolBusy := true })
  else if off ≤ free then c1.modQue (fun s => { s with poolBusy := false })
  else c1

/-! ## THROTTLE (R291, R292) -/

/-- The next queue rate state for a depth (R291). -/
def rateNext (p : QParam) (words st : Nat) : Nat :=
  let s1 := if st = 2 ∧ words < 32 * p.hwm then 1 else st
  let s2 := if s1 = 1 ∧ words ≤ 32 * p.lwm then 0 else s1
  let s3 := if s2 = 0 ∧ 32 * p.hwm ≤ words ∧ p.hwm ≠ 0 then 1 else s2
  if s3 ≠ 2 ∧ 32 * p.full ≤ words ∧ p.full ≠ 0 then 2 else s3

/-- Send a THROTTLE block to a slot on its serving port, or on both ports when SERVE is 0b10 (R291). -/
def Chip.throttleSend (c : Chip) (slot rate : Nat) : Chip :=
  let b := mkThrottle (c.posOf slot) rate
  let n := slot / 16
  let c1 := c.modSlot slot (fun x => { x with throttle := rate, throttleAt := c.tick, throttleOnce := rate = 0xFF })
  if c.sg F.PRT_SLOT_SERVE slot = 2 ∧ !c.heldBack slot then (c1.queueOn (2 * n) b).queueOn (2 * n + 1) b else c1.toSlot slot b

/-- The depth of a slot's class-0 queue, or its share rate, has changed (R291). -/
def Chip.rateEval (c : Chip) (slot : Nat) : Chip :=
  let q := 8 * slot
  let x := c.lq q
  let st := if c.b F.QUE_CTL_THR_EN then rateNext (qParam c.work q) x.depth x.rateSt else 0
  let qr := match st with
    | 0 => 0xFF
    | 1 => c.g F.QUE_CTL_THR_RATE
    | _ => 0
  let rate := min qr x.share
  let c1 := if st = x.rateSt then c else c.setLq q { x with rateSt := st }
  let old := (c.slot slot).throttle
  if rate = old then c1
  else
    let c2 := c1.throttleSend slot rate
    if old = 0xFF then c2.event 101 slot else if rate = 0xFF then c2.event 102 slot else c2

/-- A queue's depth has changed. -/
def Chip.depthEval (c : Chip) (q : Nat) : Chip := if q % 8 = 0 then (c.rateEval (q / 8)).poolEval else c.poolEval

/-- THROTTLE_RESEND (R291): every 2¹⁴ cycles while the rate is below 0xFF, and once after a return to 0xFF. -/
def Chip.throttleResend (c : Chip) (slot : Nat) : Chip :=
  let x := c.slot slot
  if x.throttleAt + 2 ^ 14 ≤ c.tick ∧ (x.throttle < 0xFF ∨ x.throttleOnce) then
    (c.throttleSend slot x.throttle).modSlot slot (fun y => { y with throttleOnce := false })
  else c

/-- Occupancy in percent: data blocks of the 8,192 block slots of an interval (R292). -/
def occPct (blocks : Nat) : Nat := blocks * 100 / 8192

/-- SHARE_INTERVAL (R292): occupancy of a port over 2¹⁶ cycles, and the share rates of its slots. -/
def Chip.shareInterval (c : Chip) (p : Nat) : Chip :=
  if c.tick < AMap.get (always 0) c.que.shareFrom p + 2 ^ 16 then c
  else
    let total := AMap.get (always 0) c.que.occ p
    let occ := occPct total
    let fs := F.QUE_OCC_SHARING.ix 4 p
    let was := c.b fs
    let now := c.b F.QUE_CTL_SHARE_EN &&
      (if was then decide (c.g F.QUE_CTL_SHARE_LO ≤ occ) else decide (min 100 (c.g F.QUE_CTL_SHARE_HI) ≤ occ))
    let c1 := ((c.s (F.QUE_OCC_OCC.ix 4 p) (min 127 occ)).s fs now.toNat).modQue
      (fun s => { s with shareFrom := AMap.set (always 0) s.shareFrom p c.tick, occ := AMap.set (always 0) s.occ p 0 })
    let c2 := if now ∧ !was then c1.event 103 p else if was ∧ !now then c1.event 104 p else c1
    let slots := c.served p
    let n := (slots.filter (fun s => c.sg F.PRT_SLOT_STATE s = stRunning)).length
    slots.foldl (fun c s =>
      let sent := AMap.get (always 0) c.que.slotOcc s
      let share := if now ∧ c.sg F.PRT_SLOT_STATE s = stRunning ∧ total < n * sent then min 0xFF (256 / n) else 0xFF
      let c3 := (c.modLq (8 * s) (fun x => { x with share := share })).modQue (fun y => { y with slotOcc := AMap.set (always 0) y.slotOcc s 0 })
      c3.rateEval s) c2

/-! ## Dual-clock queues (R274 to R277) -/

/-- Blocks held in a dual-clock queue; an item's status travels with a block (R274). -/
def dcqBlocks (l : List RxItem) : Nat :=
  (l.filter (fun i => match i with
    | .block _ => true
    | .close _ _ _ _ _ _ => false)).length

/-- LEVEL of QUE_DCQ: at most 32; the receiver holds a further one (R277, R306). -/
def Chip.dcqLevel (c : Chip) (p : Nat) : Nat := min 32 (dcqBlocks (c.dcq p))

/-- Write one item into a port's dual-clock queue. A block that comes while the receiver holds one is discarded, and
its item is handed on as TRUNC (R276, R277). -/
def Chip.dcqPush (c : Chip) (p : Nat) (i : RxItem) : Chip :=
  let l := c.dcq p
  match i with
  | .close a b e g st t =>
    match c.item p, l.getLast? with
    | _, some (.close _ _ _ _ _ _) => c
    | none, none => c
    | _, _ => c.setDcq p (l ++ [.close a b e g st t])
  | .block b =>
    let n := dcqBlocks l
    if n ≤ 32 then
      let c1 := c.setDcq p (l ++ [.block b])
      let c2 := if n + 1 ≤ 32 then c1.high (F.QUE_DCQ_HWM.ix 4 p) (n + 1) else c1
      if n = 32 then (c2.sat (F.QUE_DCQ_HOLDS.ix 4 p)).flag F.QUE_STAT_DCQ_HOLD 96 p else c2
    else
      let c1 := ((c.sat (F.QUE_DCQ_LOST.ix 4 p)).flag F.QUE_STAT_DCQ_DROP 97 p).event 53 p
      let inPkt : Bool := b.isData || b.is .pktEnd
      if inPkt then
        let c2 := c1.setDcq p (l ++ [.close 0 0 0 0 .trunc false])
        let x := c2.port p
        c2.setPort p (x.framed .idle)
      else if b.is .pktStart then c1.setPort p ((c1.port p).framed .idle)
      else c1

/-- An item of a receiver's output that goes to the pool: not an IDLE block (R274). -/
def forPool (i : RxItem) : Bool :=
  match i with
  | .block b => !b.is .idle
  | .close _ _ _ _ _ _ => true

/-- What a worker port's receiver has handed on since `before` items goes into its dual-clock queue; sightings also
feed the fast mark path (R274, R277, R304). -/
def Chip.intake (c : Chip) (p before : Nat) : Chip :=
  let l := (c.port p).inbox
  let new := l.drop before
  let c1 := c.setPort p { c.port p with inbox := l.take before }
  (new.filter forPool).foldl (fun c i =>
    let c2 := match i with
      | .block b => if b.is .sighting then c.modRose (fun r => { r with sights := r.sights ++ [(p, b)] }) else c
      | .close _ _ _ _ _ _ => c
    c2.dcqPush p i) c1

/-- BLOCK_RECEIVED at a manager port (R178, R274): line bits arrive. -/
def Chip.receive (c : Chip) (p : Nat) (bits : List Bool) : Chip :=
  let before := (c.port p).inbox.length
  let c1 := c.portStep p (fun x => x.receive (c.kindOf p) c.tick bits)
  if p < 128 then c1.intake p before else c1

/-! ## Stream time (R286) -/

/-- The count of `w` bits extended to the full count nearest Meridian now (R242, R303). -/
def Chip.extendTo (c : Chip) (w n : Nat) : Nat :=
  let k : Int := c.kcount
  (k + signedOf w (((n : Int) - k) % (2 ^ w : Nat)).toNat).toNat

/-- The serving segment of a slot is in service (R286). -/
def Chip.servedUp (c : Chip) (slot : Nat) : Bool :=
  match c.servePort slot with
  | some p => c.up p
  | none => false

/-- Stream time S of a queue in a group (R286). -/
def Chip.streamS (c : Chip) (q : Nat) : Nat :=
  let x := c.lq q
  let slot := q / 8
  let k := c.kcount
  let lag := match c.groupOf q with
    | some g => 256 * (c.grp g).quietLag
    | none => 0
  let quiet := c.sg F.PRT_SLOT_STATE slot = stRunning ∧ (c.slot slot).throttle = 0xFF ∧ c.servedUp slot ∧ x.buckets = [] ∧ x.late = []
  min k (if quiet then max x.s (k - lag) else x.s)

/-- The stream has been told of a count. -/
def Chip.raiseS (c : Chip) (q n : Nat) : Chip := c.modLq q (fun x => { x with s := max x.s n })

/-! ## The write stage (R280 to R285, R288) -/

/-- Append an element to a stream by its count (R288): to its bucket, to the late list, or discarded as FUTURE. The
result tells whether it was kept. -/
def Chip.place (c : Chip) (q g count : Nat) (el : QElem) : Chip × Bool :=
  let gr := c.grp g
  let k := count / 2 ^ gr.orderLog
  if gr.close + 128 ≤ k then
    (((c.modLq q (fun x => { x with future := min 65535 (x.future + 1) })).flag F.RSE_STAT_FUTURE 114 (q / 8)), false)
  else
    let c1 := c.modLq q (fun x =>
      let x1 := { x with s := max x.s count }
      if k < gr.close then { x1 with late := x1.late ++ [el], lateCnt := min 65535 (x1.lateCnt + 1) }
      else { x1 with buckets := AMap.upd (always []) x1.buckets k (· ++ [el]) })
    (c1.depthEval q, true)

/-- A push into a full queue (R283): the item drops this block and its later ones, and closes as TRUNC. -/
def Chip.qFull (c : Chip) (p q : Nat) (o : OpenItem) : Chip :=
  ((c.modLq q (fun x => { x with qfull := min 65535 (x.qfull + 1) })).setItem p (some { o with drop := true, trunc := true })).flag
    F.QUE_STAT_QFULL 98 (q / 8)

/-- A push of `words` words into a class-1 to class-4 queue (R280, R283): a queue whose MAX is 0 stores nothing and counts
no loss, and a full one counts its loss. The first result tells whether the item is stored; the readers of classes 2 to 4
take it at once. -/
def Chip.classPush (c : Chip) (q words : Nat) : Bool × Chip :=
  if (qParam c.work q).max = 0 then (false, c)
  else if c.qIsFull q words then
    (false, (c.modLq q (fun x => { x with qfull := min 65535 (x.qfull + 1) })).flag F.QUE_STAT_QFULL 98 (q / 8))
  else (true, c)

/-- An item's part for a class-2 or class-3 queue (R280, R283): what `f` does happens when the queue stores it; a full
queue drops the rest of the item, which closes as TRUNC. -/
def Chip.itemPush (c : Chip) (p : Nat) (o : OpenItem) (q words : Nat) (f : Chip → Chip) : Chip :=
  if (qParam c.work q).max = 0 then c.setItem p (some { o with drop := o.kind == kindMonitor })
  else if c.qIsFull q words then c.qFull p q o
  else f c

/-- The record in a slot of a data block (R141): 60 bits. -/
def recSlot (b : Block) (second : Bool) : Nat := if second then b.f 59 0 else b.f 119 60

/-- Write one record of the open item of a port (R280, R281, R283). -/
def Chip.writeRecord (c : Chip) (p : Nat) (o : OpenItem) (r : Nat) : Chip × OpenItem :=
  let q := 8 * o.slot
  if o.drop ∨ bitsOf r 59 58 = 3 then (c, o)
  else match c.groupOf q with
    | none => (c, o)
    | some g =>
      if c.qIsFull q 1 then
        let c1 := c.qFull p q o
        (c1, { o with drop := true, trunc := true })
      else
        let ref := AMap.get (always 0) c.que.ref o.slot + 2 ^ 19
        let count := (extendCoarse ref (bitsOf r 43 24)).toNat
        let (c1, kept) : Chip × Bool := if o.flushed then (c.raiseS q count, true) else c.place q g count (.hit (o.kind == kindMarkResult) count (BitVec.ofNat 60 r))
        if kept then
          let o1 := { o with n := o.n + 1, cmin := if o.n = 0 then count else min o.cmin count, cmax := max o.cmax count }
          (c1.modSlot o.slot (fun x => { x with recs := x.recs + 1 }), o1)
        else (c1, o)

/-- A data block of the open item of a port (R280). -/
def Chip.poolData (c : Chip) (p : Nat) (b : Block) : Chip :=
  match c.item p with
  | none => c
  | some o =>
    let o1 := { o with got := o.got + 1, lastAt := c.tick }
    let count := fun (c : Chip) => c.modQue (fun s => { s with occ := AMap.upd (always 0) s.occ p (· + 1), slotOcc := AMap.upd (always 0) s.slotOcc o.slot (· + 1) })
    let c0 := (count c).modSlot o.slot (fun x => { x with lastSeen := c.tick })
    if o.drop then c0.setItem p (some o1)
    else if o.kind = kindMonitor then
      c0.itemPush p o1 (8 * o.slot + 2) 5 (fun c => c.setItem p (some { o1 with pay := o.pay ++ [b] }))
    else if o.kind = kindMarkResult ∧ o1.got = o.len then
      c0.itemPush p o1 (8 * o.slot + 3) 3 (fun c => (c.modWake (fun w => { w with trailers := w.trailers ++ [(o.slot, b)] })).setItem p (some o1))
    else
      let (c1, o2) := c0.writeRecord p o1 (recSlot b false)
      let (c2, o3) := c1.writeRecord p o2 (recSlot b true)
      c2.setItem p (some o3)

/-- PKT_START (R236, R282): the item is judged by its epoch and its length. -/
def Chip.poolStart (c : Chip) (p : Nat) (b : Block) : Chip :=
  match c.slotAt p b.pos with
  | none => c.setItem p none
  | some slot =>
    let kind := b.f 106 104
    let len := b.f 103 92
    let o : OpenItem := ⟨slot, kind, b.f 91 84, len, 0, 0, 0, 0, false, false, false, false, c.tick, []⟩
    let q := 8 * slot
    let need := if kind = kindRecords then 2 * len else if kind = kindMarkResult then 2 * (len - 1) else 0
    let c1 := c.modSlot slot (fun x => { x with lastSeen := c.tick })
    if !c.epochOk slot o.epoch then (c1.latePacket slot).setItem p (some { o with drop := true, refused := true })
    else if 32 * (qParam c.work q).max < need then
      ((c1.modLq q (fun x => { x with oversize := min 65535 (x.oversize + 1) })).setItem p (some { o with drop := true, refused := true })).flag
        F.QUE_STAT_OVERSIZE 99 slot
    else c1.setItem p (some o)

/-- WK_GCTL as the Chart's WORKERS entry has it for a slot, with EN = 1 (R357). -/
def wkGctl (g : Image) (slot : Nat) : Nat :=
  let f := ((wkEntry g slot).map (wkFlags g)).getD 0
  2 ^ 31 + (bitOf f 6).toNat * 2 ^ 30 + (bitOf f 5).toNat * 2 ^ 29 + (bitOf f 4).toNat * 2 ^ 28

/-- The segments of a worker whose flags LINK_W and LINK_E a report carries (R206, R229). -/
def Chip.linkSegs (c : Chip) (slot flags : Nat) : List Nat :=
  let k := c.posOf slot
  [k - 1, k].filter (fun h =>
    let west := c.facing slot h = 0x110
    (west && bitOf flags F.WK_FLAGS_LINK_W.lo) || (!west && bitOf flags F.WK_FLAGS_LINK_E.lo))

/-- A monitor report that arrived whole (R163, R164, R229, R234). Its LINK flags are sticky, so LNK_STAT of the ports they
name tells whether a segment has stayed out of service. -/
def Chip.monitorReport (c : Chip) (slot : Nat) (b : Block) : Chip :=
  let flags := b.f 119 88
  let was := c.sg F.PRT_SLOT_STATE slot
  let c1 := if flags ≠ 0 then c.event 74 slot else c
  let c2 := if bitOf flags F.WK_FLAGS_CNT_STEP.lo then c1.event 75 slot else c1
  let c3 := (c.linkSegs slot flags).foldl (fun c h => c.ownCmd slot false (c.facing slot h + 1) 0 (.linkChk h)) c2
  let c4 := c3.gstatRead slot (b.f 87 56)
  if was = stFwdOnly ∧ c4.sg F.PRT_SLOT_STATE slot = stReady ∧ limFlag c.work limAutoReenable ∧ c.run then
    let r := c4.enableReason slot
    if r ≠ 0 then c4.enableRefused slot r
    else ((c4.ownCmd slot true 0x001 (wkGctl c.work slot) .own).event 73 slot).logAuto limAutoReenable slot stFwdOnly stReady
  else c4

/-- A flush of queues ends when no item is still being written into one of them (R294). -/
def Chip.flushCheck (c : Chip) : Chip :=
  let open_ := c.que.items.any (fun x => match x.2 with
    | some o => o.flushed
    | none => false)
  if open_ ∨ !c.que.lq.any (fun x => x.2.flushing) then c
  else
    let qs := (c.que.lq.filter (fun x => x.2.flushing)).map (·.1)
    let c1 := qs.foldl (fun c q => c.modLq q (fun x => { x with flushing := false })) c
    if c1.b F.QUE_FLUSH_GO then (c1.s F.QUE_FLUSH_GO 0).event 107 0 else c1

/-- An item closes (R283, R285): a status other than OK leaves an item status element in the slot's late list, where the
slot's class-0 queue is a stream of a group. -/
def Chip.poolClose (c : Chip) (p : Nat) (st : ItemStatus) : Chip :=
  match c.item p with
  | none => c
  | some o =>
    let c0 := c.setItem p none
    let st1 : ItemStatus := if o.trunc then .trunc else st
    let c1 :=
      if o.refused ∨ o.flushed then c0
      else if st1 = .ok then
        (match o.kind == kindMonitor, o.pay with
          | true, b :: _ => c0.monitorReport o.slot b
          | _, _ => c0)
      else if (c0.groupOf (8 * o.slot)).isNone then c0
      else
        let (lo, ca) := if o.n = 0 then c0.free 48 else (o.cmin, c0)
        let (hi, cb) := if o.n = 0 then ca.free 48 else (o.cmax, ca)
        (cb.modLq (8 * o.slot) (fun x => { x with late := x.late ++ [.status st1 o.epoch o.n lo hi] })).depthEval (8 * o.slot)
    if o.flushed then c1.flushCheck else c1

/-- A sighting reaches the pool: class 1, when it is a stream of a group and has room (R279, R280). -/
def Chip.poolSighting (c : Chip) (p : Nat) (b : Block) : Chip :=
  match c.slotAt p b.pos with
  | none => c
  | some slot =>
    let q := 8 * slot + 1
    let count := c.extendTo 40 (b.f 42 3)
    match c.groupOf q with
    | none => c
    | some g =>
      match c.classPush q 2 with
      | (true, c1) => (c1.place q g count (.sight count (BitVec.ofNat 64 (b.f 106 43)))).1
      | (false, c1) => c1

/-- An upstream time reference or echo is stored in class 4, for diagnosis, besides what acts on it (R279, R280). -/
def Chip.beaconStore (c : Chip) (p : Nat) (b : Block) : Chip :=
  match c.slotAt p b.pos with
  | none => c
  | some slot => (c.classPush (8 * slot + 4) 3).2

/-- A time reference (R144, R280, R286). -/
def Chip.poolTimeRef (c : Chip) (p : Nat) (b : Block) : Chip :=
  match c.slotAt p b.pos with
  | none => c
  | some slot =>
    let n := c.extendTo 48 (b.f 102 55)
    let c1 := (c.modQue (fun s => { s with ref := AMap.set (always 0) s.ref slot n })).modSlot slot (fun x => { x with lastSeen := c.tick })
    (c1.raiseS (8 * slot) n).raiseS (8 * slot + 1) n

/-- Hand a block to the reader that acts on it: the port command engine, or the Meridian logic (R279, R280). -/
def Chip.toReader (c : Chip) (p : Nat) (b : Block) : Chip :=
  c.setPort p { c.port p with inbox := (c.port p).inbox ++ [.block b] }

/-- A REPLY block (R279, R280): the port command engine reads it from class 3, where that queue stores it. A reply of a
position with no slot has no queue and goes to the engine as it is. -/
def Chip.poolReply (c : Chip) (p : Nat) (b : Block) : Chip :=
  match c.slotAt p b.pos with
  | none => c.toReader p b
  | some slot => match c.classPush (8 * slot + 3) 3 with
    | (true, c1) => c1.toReader p b
    | (false, c1) => c1

/-- The 120 payload bits of a block accepted for a group's stream count toward the packing factor (R318). -/
def Chip.countIn (c : Chip) (p : Nat) (b : Block) : Chip :=
  let item : Bool := match c.item p with
    | some o => !o.drop && o.kind != kindMonitor && (c.groupOf (8 * o.slot)).isSome
    | none => false
  let own := fun (cls : Nat) => match c.slotAt p b.pos with
    | some s => (c.groupOf (8 * s + cls)).isSome
    | none => false
  let yes : Bool := if b.isData then item else match b.type with
    | some .pktStart | some .pktEnd => item
    | some .sighting => own 1
    | some .beacon => b.form == 1 && own 0
    | _ => false
  if yes then c.modWake (fun w => { w with inBits := w.inBits + 120 }) else c

/-- One block of a dual-clock queue (R280). -/
def Chip.poolBlock (c : Chip) (p : Nat) (b : Block) : Chip :=
  if b.isData then c.poolData p b
  else match b.type with
    | some .pktStart => c.poolStart p b
    | some .pktEnd => c.modQue (fun s => { s with items := AMap.upd (always none) s.items p (·.map (fun o => { o with lastAt := c.tick })) })
    | some .epochEnd => match c.slotAt p b.pos with
      | some slot => c.epochEnd slot (b.f 106 99)
      | none => c
    | some .sighting => c.poolSighting p b
    | some .reply => c.poolReply p b
    | some .beacon => if b.form = 1 then (c.poolTimeRef p b).beaconStore p b else (c.toReader p b).beaconStore p b
    | _ => c

/-- An item status at the head of a dual-clock queue is taken with the block before it, or alone. -/
def Chip.poolStatus (c : Chip) (p : Nat) : Chip :=
  match c.dcq p with
  | RxItem.close _ _ _ _ st _ :: r => (c.setDcq p r).poolClose p st
  | _ => c

/-- POOL_SERVE (R275): the pool reads a port's dual-clock queue: a block, with the item status that follows it. -/
def Chip.poolServe (c : Chip) (p : Nat) : Chip :=
  let c0 := c.poolStatus p
  match c0.dcq p with
  | RxItem.block b :: r => (((c0.setDcq p r).poolBlock p b).countIn p b).poolStatus p
  | _ => c0

/-! ## Flush (R294, R295) -/

/-- An open item goes into a queue. -/
def OpenItem.into (o : OpenItem) (q : Nat) : Bool :=
  o.slot == q / 8 && (if o.kind = kindMonitor then q % 8 == 2 else if o.kind = kindMarkResult then q % 8 == 0 || q % 8 == 3 else q % 8 == 0)

/-- Flush queues: what they hold is discarded, and an item being written is discarded at its end. -/
def Chip.flushQueues (c : Chip) (qs : List Nat) : Chip :=
  let c1 := qs.foldl (fun c q => c.modLq q (fun x => { x with buckets := [], late := [], flushing := true })) c
  let ports := (c.que.items.map (·.1))
  let c2 := ports.foldl (fun c p =>
    match c.item p with
    | some o => if qs.any o.into then c.setItem p (some { o with flushed := true }) else c
    | none => c) c1
  (qs.foldl Chip.depthEval c2).flushCheck

/-- The queues SCOPE and TARGET name (R305). -/
def Chip.flushScope (c : Chip) : List Nat :=
  let t := c.g F.QUE_FLUSH_TARGET
  match c.g F.QUE_FLUSH_SCOPE with
  | 0 => [t]
  | 1 => (List.range 8).map (8 * (t % 1024) + ·)
  | 2 => c.members (t % 32)
  | _ => ((List.range 8192).filter (fun q => (wkEntry c.work (q / 8)).isSome) ++ c.que.lq.map (·.1) ++ c.que.items.flatMap (fun x => match x.2 with
      | some o => [8 * o.slot, 8 * o.slot + 2]
      | none => [])).eraseDups

/-- QUE_FLUSH_GO (R294): GO has been written. A flush that names nothing ends at once. -/
def Chip.flushGo (c : Chip) : Chip :=
  let c1 := c.s F.QUE_FLUSH_TRUNCATED 0
  match c1.flushScope with
  | [] => (c1.s F.QUE_FLUSH_GO 0).event 107 0
  | qs => c1.flushQueues qs

/-- FLUSH_TIMEOUT (R295): an item being written has had no block for FLUSH_TO. -/
def Chip.flushTimeout (c : Chip) (p : Nat) : Chip :=
  match c.item p with
  | some o =>
    if o.flushed ∧ o.lastAt + usTicks * max 1 (c.g F.QUE_FLUSH_FLUSH_TO) ≤ c.tick then
      (((c.setItem p (some { o with flushed := false, drop := true, refused := true })).s F.QUE_FLUSH_TRUNCATED 1).flag F.QUE_STAT_FLUSH_TRUNC 100 o.slot).flushCheck
    else c
  | none => c

/-- The manager flushes the queues of a slot that has become LOST (R295). -/
def Chip.flushLost (c : Chip) (slot : Nat) : Chip := (c.flushQueues ((List.range 8).map (8 * slot + ·))).logAct slot 0 0

/-- WORKER_LOST (R231, R295). -/
def Chip.workerLostFlush (c : Chip) (slot : Nat) : Chip :=
  let c1 := c.workerLost slot
  if c1.sg F.PRT_SLOT_STATE slot = stLost ∧ c.sg F.PRT_SLOT_STATE slot ≠ stLost then c1.flushLost slot else c1

/-! ## Table window (R306) -/

/-- The word QUE_TBL_ADDR selects, and what its read captures. -/
def Chip.queTblRead (c : Chip) : Word × Chip :=
  let ix := c.g F.QUE_TBL_ADDR_INDEX
  let q := ix / 8
  let p := qParam c.work q
  let x := c.lq q
  let slot := q / 8
  let w := fun (n : Nat) => BitVec.ofNat 32 n
  match ix % 8 with
  | 0 => (w (at_ 31 16 p.guar + at_ 15 0 p.max), c)
  | 1 => (w (at_ 31 16 p.hwm + at_ 15 0 p.lwm), c)
  | 2 => (w (at_ 31 16 p.full + at_ 15 8 (if q % 8 = 0 then (c.slot slot).throttle else 0xFF) + x.rateSt), c)
  | 3 =>
    let open_ := c.que.items.any (fun y => match y.2 with
      | some o => o.into q
      | none => false)
    (w (at_ 31 31 x.absent.toNat + at_ 30 30 x.flushing.toNat + at_ 29 29 open_.toNat + at_ 21 0 x.depth), c)
  | 4 => let s := c.streamS q
    (w (s / 2 ^ 32), c.modQue (fun y => { y with sLow := s % 2 ^ 32 }))
  | 5 => (w c.que.sLow, c)
  | 6 => (w (at_ 31 16 x.qfull + at_ 15 0 x.oversize), c)
  | _ => (w (if q % 8 < 2 then at_ 31 16 x.lateCnt + at_ 15 0 x.future else 0), c)

end Sys2Proof
end

