-- ==== Sys2Proof/Machine/Pack.lean ====
section
/-!
DEFINITION. Machine/Pack.lean: hit packing: the element stream of Wake's pages and of WATCH_SEG and MARK_DATA payloads
(R314 to R317, R340).
-/
namespace Sys2Proof

/-- The time T of a record in fine LSBs: its full count and FINE (R120, R242). -/
def recT (count : Nat) (r : BitVec 60) : Nat := 800 * count + bitsOf r.toNat 23 14

/-- The start B of a bucket in fine LSBs (R315). -/
def bucketFine (ord k : Nat) : Nat := 800 * (k * 2 ^ ord)

/-- The time code of an on-time record (R315). -/
def tdBits (ord base : Nat) (prev : Int) (t : Nat) : List Bool :=
  let d : Int := t - prev
  let z : Nat := if 0 ≤ d then (2 * d).toNat else (-2 * d - 1).toNat
  if z < 1024 then false :: beBits 10 z
  else if z < 16384 then true :: false :: beBits 14 z
  else true :: true :: beBits (ord + 10) (t - base)

/-- A record of a run with LATE = 0 (R315). -/
def onTimeBits (ord k : Nat) (prev : Int) (count : Nat) (r : BitVec 60) : List Bool :=
  let n := r.toNat
  beBits 2 (bitsOf n 59 58) ++ beBits 14 (bitsOf n 57 44) ++ tdBits ord (bucketFine ord k) prev (recT count r)
    ++ beBits 12 (bitsOf n 13 2) ++ beBits 2 (bitsOf n 1 0)

/-- A record of a run with LATE = 1 (R316). -/
def lateBits (ord k : Nat) (count : Nat) (r : BitVec 60) : List Bool :=
  let n := r.toNat
  let lag : Int := (bucketFine ord k : Int) - recT count r
  beBits 2 (bitsOf n 59 58) ++ beBits 14 (bitsOf n 57 44) ++ beBits 30 lag.toNat ++ beBits 12 (bitsOf n 13 2) ++ beBits 2 (bitsOf n 1 0)

/-- A late record whose LAG would reach 2³⁰ is stored as FAR (R316). -/
def isFar (ord k count : Nat) (r : BitVec 60) : Bool := (2 ^ 30 : Int) ≤ (bucketFine ord k : Int) - recT count r

/-- The STATUS code of an item status element (R314). -/
def statusCode : ItemStatus → Nat
  | .ok => 0 | .trunc => 1 | .crcErr => 2 | .lenErr => 3

/-- The packer's state (R315, R317): the run in progress with its records so far, the last T, and its bucket. -/
structure PackSt where
  bucket : Nat
  key : Option (Nat × Bool × Bool)
  n : Nat
  prev : Int
  deriving DecidableEq, Repr

/-- The run key of a stored element: slot, MR and LATE of a record. -/
def WElem.key : WElem → Option (Nat × Bool × Bool)
  | .hit slot mr late _ _ => some (slot, mr, late)
  | _ => none

/-- A record goes on in the run in progress (R317). -/
def PackSt.goesOn (s : PackSt) (e : WEnt) : Bool := e.el.key.isSome && s.key == e.el.key && s.bucket == e.bucket && s.n < 256

/-- The packer's state after an element. -/
def PackSt.after (ord : Nat) (s : PackSt) (e : WEnt) : PackSt :=
  match e.el with
  | .hit _ _ _ count r => ⟨e.bucket, e.el.key, if s.goesOn e then s.n + 1 else 1, recT count r⟩
  | .bend b _ _ _ => ⟨b + 1, none, 0, bucketFine ord (b + 1)⟩
  | _ => ⟨e.bucket, none, 0, 0⟩

/-- The bits one record adds. -/
def PackSt.recBits (ord : Nat) (s : PackSt) (e : WEnt) (late : Bool) (count : Nat) (r : BitVec 60) : List Bool :=
  if late then lateBits ord e.bucket count r
  else onTimeBits ord e.bucket (if s.goesOn e then s.prev else bucketFine ord e.bucket) count r

/-- The bits an element adds to a stream, a new run's 24-bit header included (R314). -/
def PackSt.cost (ord : Nat) (s : PackSt) (e : WEnt) : Nat :=
  match e.el with
  | .hit _ _ late count r => (s.recBits ord e late count r).length + (if s.goesOn e then 0 else 24)
  | .far _ _ _ _ => 139
  | .sight _ _ _ _ => 111
  | .status _ _ _ _ _ _ => 133
  | .bend _ _ _ _ => 99
  | .gap _ _ => 100

/-- An AT element is needed before an entry: the decoder would take it for another bucket (R314). -/
def PackSt.needsAt (s : PackSt) (e : WEnt) : Bool :=
  match e.el with
  | .gap _ _ => false
  | _ => s.bucket ≠ e.bucket

/-- The bits of an AT element (R314). -/
def atBits (k : Nat) : List Bool := beBits 4 6 ++ beBits 48 k

/-- The bits of an element other than a record (R314). -/
def WElem.bits (ord k : Nat) : WElem → List Bool
  | .hit _ _ _ _ _ => []
  | .far slot mr count r => beBits 4 5 ++ beBits 10 slot ++ [mr] ++ beBits 64 count ++ beBits 60 r.toNat
  | .sight slot late count tiles =>
    beBits 4 2 ++ [late] ++ beBits 10 slot ++ beBits 32 (patternOf 32 ((count : Int) - (k * 2 ^ ord : Nat))) ++ beBits 64 tiles.toNat
  | .status slot st epoch n lo hi => beBits 4 3 ++ beBits 10 slot ++ beBits 2 (statusCode st) ++ beBits 8 epoch ++ beBits 13 n ++ beBits 48 lo ++ beBits 48 hi
  | .bend b n late abs => beBits 4 4 ++ beBits 48 b ++ beBits 20 n ++ beBits 16 (min 65535 late) ++ beBits 11 abs
  | .gap lo hi => beBits 4 7 ++ beBits 48 lo ++ beBits 48 hi

/-- The header of a run of `n` records (R314). -/
def runHead (key : Nat × Bool × Bool) (n : Nat) : List Bool := beBits 4 1 ++ [key.2.2, key.2.1] ++ beBits 10 key.1 ++ beBits 8 (n - 1)

/-- Pack elements of a payload: each record's bits gather until its run ends, when the run's header goes before them
(R315, R317). `run` holds the bits of the run in progress, in order. -/
def packEnts (ord : Nat) : PackSt → List Bool → List WEnt → List Bool
  | s, run, [] => (match s.key with
    | some k => runHead k s.n ++ run
    | none => run)
  | s, run, e :: r =>
    let flush := match s.key with
      | some k => runHead k s.n ++ run
      | none => run
    let at_ := if s.needsAt e then atBits e.bucket else []
    match e.el with
    | .hit _ _ late count x =>
      let b := s.recBits ord e late count x
      if s.goesOn e then packEnts ord (s.after ord e) (run ++ b) r
      else flush ++ at_ ++ packEnts ord (s.after ord e) b r
    | el => flush ++ at_ ++ el.bits ord e.bucket ++ packEnts ord (s.after ord e) [] r

/-- The SUMMARY element (R314). -/
def summaryBits (nrec nlate nsight nabs : Nat) : List Bool := beBits 4 8 ++ beBits 32 nrec ++ beBits 24 nlate ++ beBits 24 nsight ++ beBits 11 nabs

/-- Bytes of a bit list of whole bytes. -/
def bitsBytes : Nat → List Bool → List Byte
  | 0, _ => []
  | n + 1, l => BitVec.ofNat 8 (bitsNat (l.take 8)) :: bitsBytes n (l.drop 8)

/-- A payload: END and zero bits up to the next multiple of 4 bytes, unless the stream fills it exactly (R340). -/
def payloadBytes (max : Nat) (bits : List Bool) : List Byte :=
  let n := bits.length
  if n = 8 * max then bitsBytes max bits
  else
    let len := (n + 4 + 31) / 32 * 4
    bitsBytes len (bits ++ List.replicate (8 * len - n) false)

end Sys2Proof
end

