-- ==== Sys2Proof/Machine/Wake.lean ====
section
/-!
DEFINITION. Machine/Wake.lean: Wake: pages and the time index (R309 to R321), marks and the mark queue (R322 to R328),
watches and their builder (R331 to R336), and the Wake table window (R348).
-/
namespace Sys2Proof

/-! ## Pages -/

/-- Pages of Wake's user capacity (R309), and the bits of a page with its waypoint table (R319). -/
def wakePages : Nat := 63488
def pageBits : Nat := 33554432

def Chip.wpage (c : Chip) (n : Nat) : WPage := AMap.get (always WPage.init) c.wake.pages n
def Chip.setPage (c : Chip) (n : Nat) (p : WPage) : Chip := c.modWake (fun w => { w with pages := AMap.set (always WPage.init) w.pages n p })
def Chip.chainOf (c : Chip) (g : Nat) : List Nat := AMap.get (always []) c.wake.chain g
def Chip.lostTo (c : Chip) (g : Nat) : Nat := AMap.get (always 0) c.wake.lostTo g

/-- Pages an object's reader holds: the page it reads and the next page of the group (R329). -/
def Chip.objPages (c : Chip) (o : EObj) : List Nat :=
  match o.page with
  | some n => if (c.wpage n).age = o.age then n :: (if (c.wpage n).next = 0xFFFF then [] else [(c.wpage n).next]) else []
  | none => []

/-- Pinned pages (R311): those that readers hold and those of unconfirmed frames. -/
def Chip.pinned (c : Chip) : List Nat :=
  (c.egr.lanes.flatMap (fun l => l.2.objs.flatMap c.objPages ++ (l.2.unconf ++ l.2.resend).flatMap Frame.pages)).eraseDups

/-- Pages of a stretch, the lowest first, that lie in a stack pages are allocated from: at most 8 need be tried (R381). -/
def firstFree (off : List Nat) (n : Nat) (hi : Nat) : Option Nat :=
  ((List.range 8).map (n + ·)).find? (fun p => decide (p < hi) && !off.contains (p % 8))

/-- The lowest page of Wake that holds no data. -/
def freePage (off : List Nat) : AMap WPage → Nat → Option Nat
  | [], n => firstFree off n wakePages
  | (a, _) :: r, n => (firstFree off n (min a wakePages)).or (freePage off r (a + 1))

/-- The oldest page that may be recycled (R310). -/
def Chip.oldestPage (c : Chip) : Option Nat :=
  let pin := c.pinned
  let ok := c.wake.pages.filter (fun p => p.1 < wakePages && p.2.valid && !p.2.bad && !pin.contains p.1 && !c.wake.noAlloc.contains (p.1 % 8))
  match ok with
  | [] => none
  | x :: r => some (r.foldl (fun (b : Nat × WPage) p => if p.2.age < b.2.age then p else b) x).1

/-- The beats of a page are written anew: errors stored in them are gone (R387, R389). -/
def Chip.clearBeats (c : Chip) (n : Nat) : Chip :=
  let lo := n / 8 * 131072
  let m := AMap.get (always MemX.init) c.int.mems (16 + n % 8)
  let m1 := { m with errs := m.errs.filter (fun e => decide (e.1 < lo) || decide (lo + 131072 ≤ e.1)) }
  { c with int := { c.int with mems := AMap.set (always MemX.init) c.int.mems (16 + n % 8) m1 } }

/-- A group takes a new page (R310, R320, R321). -/
def Chip.takePage (c : Chip) (g : Nat) : Chip :=
  match (freePage c.wake.noAlloc c.wake.pages 0).or c.oldestPage with
  | none => c
  | some n =>
    let old := c.wpage n
    let c1 := if old.valid then
        c.modWake (fun w => { w with chain := AMap.upd (always []) w.chain old.group (fun l => l.erase n),
                                     lostTo := AMap.upd (always 0) w.lostTo old.group (max (old.last + 1)) })
      else c
    let c2 := match (c1.chainOf g).getLast? with
      | some m => c1.setPage m { c1.wpage m with open_ := false, next := n }
      | none => c1
    let fresh := { WPage.init with open_ := true, group := g, orderLog := (c.grp g).orderLog, age := c.wake.ages }
    ((c2.setPage n fresh).clearBeats n).modWake (fun w => { w with ages := w.ages + 1, chain := AMap.upd (always []) w.chain g (· ++ [n]) })

/-- The packer's state at the end of a page. -/
def WPage.packSt (p : WPage) : PackSt :=
  match p.ents.getLast? with
  | none => ⟨p.first, none, 0, 0⟩
  | some e => match e.el with
    | .hit _ _ _ count r => ⟨e.bucket, e.el.key, p.run, recT count r⟩
    | _ => ⟨e.bucket, none, 0, 0⟩

/-- Bits fit in what is left: the rest is END and padding, unless it is filled exactly (R314). -/
def fits (room bits : Nat) : Bool := bits = room || bits + 4 ≤ room

/-- Append an element to a group's open page. -/
def Chip.appendEnt (c : Chip) (g n : Nat) (e : WEnt) : Chip :=
  let p := c.wpage n
  let st := p.packSt
  let cost := st.cost p.orderLog e
  let prevEnd : Option WEnt := match (c.chainOf g).reverse with
    | _ :: m :: _ => (c.wpage m).ents.getLast?
    | _ => none
  let cont : Bool := match prevEnd with
    | some x => x.bucket == e.bucket && (match x.el with
      | .bend _ _ _ _ => false
      | _ => true)
    | none => false
  let p1 := if p.valid then { p with last := e.bucket } else { p with valid := true, first := e.bucket, last := e.bucket, cont := cont }
  let run := (st.after p.orderLog e).n
  (c.setPage n { p1 with bits := p.bits + cost, run := run, ents := p.ents ++ [e] }).modWake (fun w => { w with outBits := w.outBits + cost })

/-- Store one element of a group's output (R310, R314, R316, R317). -/
def Chip.wakeStore (c : Chip) (g k : Nat) (el : OutElem) : Chip :=
  let ord := (c.grp g).orderLog
  let x : WElem := match el with
    | .hit s mr late count r => if late && isFar ord k count r then .far s mr count r else .hit s mr late count r
    | .sight s late count t => .sight s late count t
    | .status s st e n lo hi => .status s st e n lo hi
    | .bend b n late abs => .bend b n late abs
  let c0 := match x with
    | .far _ _ _ _ => c.flag F.WKE_STAT_FAR 133 g
    | _ => c
  let e : WEnt := ⟨k, x⟩
  let open1 : Option Nat := ((c0.chainOf g).getLast?).filter (fun n => (c0.wpage n).open_)
  let c1 : Chip := match open1 with
    | some n => if fits (pageBits - (c0.wpage n).bits) ((c0.wpage n).packSt.cost ord e) then c0 else c0.takePage g
    | none => c0.takePage g
  match ((c1.chainOf g).getLast?).filter (fun n => (c1.wpage n).open_) with
  | some n => c1.appendEnt g n e
  | none => c1

/-- The first cycle of the oldest data Wake retains for a group. -/
def Chip.oldestOf (c : Chip) (g : Nat) : Nat :=
  let gr := c.grp g
  match (c.chainOf g).find? (fun n => (c.wpage n).valid) with
  | some n => (c.wpage n).first * 2 ^ (c.wpage n).orderLog
  | none => gr.close * 2 ^ gr.orderLog

/-- WKE_DEPTH: the age of the oldest data that Wake retains, in µs (R312). -/
def Chip.wakeDepth (c : Chip) : Nat :=
  let ps := c.wake.pages.filter (fun p => p.2.valid)
  match ps with
  | [] => 0
  | x :: r =>
    let o := (r.foldl (fun (b : Nat × WPage) p => if p.2.age < b.2.age then p else b) x).2
    min (2 ^ 32 - 1) ((c.kcount - o.first * 2 ^ o.orderLog) / usTicks)

/-- The packing factor over the last second, in 1/1,024 (R318). -/
def Chip.factorTick (c : Chip) : Chip :=
  if c.tick < c.wake.facFrom + sTicks then c
  else
    let f := if c.wake.outBits = 0 then 0 else min 65535 (c.wake.inBits * 1024 / c.wake.outBits)
    let c1 := (c.s F.WKE_FACTOR_FACTOR f).modWake (fun w => { w with inBits := 0, outBits := 0, facFrom := c.tick })
    if f < c1.g F.WKE_FACTOR_FACTOR_MIN then c1.s F.WKE_FACTOR_FACTOR_MIN f else c1

/-! ## Marks (R322 to R326) -/

/-- The reference count of a mark's time. -/
def Mark.count (m : Mark) : Nat := m.ref / 1600

/-- PRE and POST are at most 100,000 (R322). -/
def held100k (n : Nat) : Nat := min 100000 n

/-- The window of a mark: its first and last MCK cycle (R322). -/
def Mark.lo (m : Mark) : Nat := m.count - 64 * held100k m.pre
def Mark.hi (m : Mark) : Nat := m.count + 64 * held100k m.post

/-- The groups of a mark that keep windows: defined marked groups (R322). -/
def Chip.markGroups (c : Chip) (mask : Nat) : List Nat := (List.range 32).filter (fun g => bitOf mask g && (c.grp g).valid && (c.grp g).marked)

def Chip.win (c : Chip) (e : Nat) : Option Window := AMap.get (always none) c.wake.windows e
def Chip.setWin (c : Chip) (e : Nat) (w : Option Window) : Chip := c.modWake (fun x => { x with windows := AMap.set (always none) x.windows e w })
def Chip.modWin (c : Chip) (e : Nat) (f : Window → Window) : Chip := c.setWin e ((c.win e).map f)

/-- The listed windows. -/
def Chip.windows (c : Chip) : List (Nat × Window) := c.wake.windows.filterMap (fun x => x.2.map (fun w => (x.1, w)))

/-- LEVEL of WKE_MQ: windows not done (R347). -/
def Chip.mqLevel (c : Chip) : Nat := (c.windows.filter (fun x => x.2.st ≠ .done)).length

/-- Entries of the mark queue (R327). -/
def mqMax : Nat := 4096

/-- A free entry of the mark queue: one never used, or else one whose window is done. -/
def Chip.freeWin (c : Chip) : Option Nat :=
  if c.wake.windows.length < mqMax then (List.range (c.wake.windows.length + 1)).find? (fun e => (c.win e).isNone)
  else ((c.windows.filter (fun x => x.2.st = .done)).map (·.1)).head?

/-- Two spans share a cycle or are adjacent (R327). -/
def meet (a b x y : Nat) : Bool := a ≤ y + 1 && x ≤ b + 1

/-- Make or extend the WAITING window of a group over a span (R327). The result tells whether there was room. -/
def Chip.winWaiting (c : Chip) (g lo hi : Nat) (part : Bool) (ids : List WkMark) : Chip × Bool :=
  let hits := c.windows.filter (fun x => x.2.group == g && x.2.st = .waiting && meet x.2.lo x.2.hi lo hi)
  match hits with
  | [] =>
    match c.freeWin with
    | some e => (c.setWin e (some ⟨g, lo, hi, .waiting, part, 1, ids, 0, none, c.g F.MER_STAT_STATE⟩), true)
    | none => ((c.sat F.WKE_MQ_REFUSED).flag F.WKE_STAT_MQ_REF 130 g, false)
  | (e, w) :: r =>
    let all := r.map (·.2)
    let u : Window := { w with
      lo := all.foldl (fun a x => min a x.lo) (min w.lo lo)
      hi := all.foldl (fun a x => max a x.hi) (max w.hi hi)
      partial_ := all.foldl (fun a x => a || x.partial_) (w.partial_ || part)
      marks := all.foldl (fun a x => a + x.marks) (w.marks + 1)
      outst := all.foldl (fun a x => a ++ x.outst) (w.outst ++ ids)
      ready := none }
    let c1 := r.foldl (fun c x => c.setWin x.1 none) c
    (c1.setWin e (some u), true)

/-- Put a window into a list by its start. -/
def insLo (x : Nat × Window) : List (Nat × Window) → List (Nat × Window)
  | [] => [x]
  | y :: r => if x.2.lo ≤ y.2.lo then x :: y :: r else y :: insLo x r

/-- Windows in the order of their starts. -/
def sortLo (l : List (Nat × Window)) : List (Nat × Window) := l.foldr insLo []

/-- A new window that reaches to `hi` meets EXTRACTING windows, given in the order of their starts (R327): each goes on to
that end, or up to the next of them, and takes in the WAITING windows on its way (log entry 143). -/
def Chip.winExtend (c : Chip) (waits : List (Nat × Window)) (hi : Nat) (part : Bool) (ids : List WkMark) : List (Nat × Window) → Chip
  | [] => c
  | (e, w) :: r =>
    let next : Option Nat := (r.head?).map (fun x => x.2.lo)
    let mine := waits.filter (fun x => decide (w.lo < x.2.lo) && next.all (fun n => decide (x.2.lo < n)))
    let top := match next with
      | some n => max w.hi (n - 1)
      | none => mine.foldl (fun a x => max a x.2.hi) (max w.hi hi)
    let w1 : Window := { w with
      marks := mine.foldl (fun a x => a + x.2.marks) (w.marks + 1)
      partial_ := mine.foldl (fun a x => a || x.2.partial_) (w.partial_ || part)
      outst := mine.foldl (fun a x => a ++ x.2.outst) (w.outst ++ ids)
      hi := top
      ready := if w.hi < top then none else w.ready }
    ((mine.foldl (fun c x => c.setWin x.1 none) c).setWin e (some w1)).winExtend waits hi part ids r

/-- A mark's window for one group (R327). -/
def Chip.winAdd (c : Chip) (g lo hi : Nat) (part : Bool) (ids : List WkMark) : Chip × Bool :=
  let count := fun (c : Chip) => match (c.windows.filter (fun x => x.2.group == g && x.2.st = .done)).getLast? with
    | some x => c.modWin x.1 (fun w => { w with marks := w.marks + 1 })
    | none => c
  let (lo, gone) := match AMap.get (always none) c.wake.lastDone g with
    | some (a, b) => if meet a b lo hi then (max lo (b + 1), decide (hi ≤ b)) else (lo, false)
    | none => (lo, false)
  if gone then (count c, true)
  else
    let near := c.windows.filter (fun x => x.2.group == g && meet x.2.lo x.2.hi lo hi)
    let busy := sortLo (near.filter (fun x => x.2.st = .extracting))
    match busy with
    | [] => c.winWaiting g lo hi part ids
    | (_, w) :: _ =>
      let c1 := c.winExtend (near.filter (fun x => x.2.st = .waiting)) hi part ids busy
      if lo < w.lo then c1.winWaiting g lo (w.lo - 1) part ids else (c1, true)

/-- A slot's worker takes worker marks of a group: RUNNING and in marked mode (R326). -/
def Chip.takesMark (c : Chip) (slot : Nat) : Bool := c.sg F.PRT_SLOT_STATE slot == stRunning && (c.slot slot).marked

/-- Send the worker marks of a mark for a group (R326): a broadcast on a port whose RUNNING slots all qualify, else one
block for each slot. -/
def Chip.workerMarks (c : Chip) (g : Nat) (m : Mark) : Chip × List WkMark :=
  let r := m.count
  let start := max m.lo (r - 16384)
  let len := min m.hi (start + 32767) - start
  let mem := ((c.members g).map (· / 8)).eraseDups
  (List.range 128).foldl (fun (a : Chip × List WkMark) p =>
    let (c, ids) := a
    let here := (c.served p).filter (fun s => c.servePort s == some p)
    let run := here.filter (fun s => c.sg F.PRT_SLOT_STATE s = stRunning)
    let q := run.filter (fun s => mem.contains s && c.takesMark s)
    if q = [] then (c, ids)
    else if q = run then
      let id := c.wake.markId % 4096
      let c1 := (c.modWake (fun w => { w with markId := w.markId + 1 })).toAll p (mkMark 0x1F id (start % 2 ^ 40) len)
      (c1, ids ++ q.map (fun s => ⟨id, s, c.tick, false⟩))
    else q.foldl (fun (a : Chip × List WkMark) s =>
      let (c, ids) := a
      let id := c.wake.markId % 4096
      let c1 := (c.modWake (fun w => { w with markId := w.markId + 1 })).toSlot s (mkMark (c.posOf s) id (start % 2 ^ 40) len)
      (c1, ids ++ [⟨id, s, c.tick, false⟩])) (c, ids)) (c, [])

/-- A mark on a lead goes out on both peer ports as MARK form 1 (R53, R323). Its identifier is the low 12 bits of the
count of peer marks. -/
def Chip.peerMark (c : Chip) (m : Mark) : Chip :=
  if c.hier ≠ 1 then c
  else
    let b := mkPeerMark (c.wake.markId % 4096) (secOf m.ref % 65536) (nsOf m.ref) (subnsOf m.ref) (held100k m.pre) (held100k m.post)
    (((c.queueOn 128 b).queueOn 129 b).modWake (fun w => { w with markId := w.markId + 1 })).logAct (m.rule.getD 0) (secOf m.ref) (nsOf m.ref)

/-- A mark is handed on to the mark queue for one group, from a first cycle. -/
def Chip.markFor (c : Chip) (g : Nat) (m : Mark) (lo : Nat) (part : Bool) : Chip × Bool :=
  let (c1, ids) := c.workerMarks g m
  let (c2, ok) := c1.winAdd g lo m.hi part ids
  if ok then (c2, true) else (c.winAdd g lo m.hi part [])

/-- A mark is handed on (R322, R323). -/
def Chip.submitMark (c : Chip) (m : Mark) (peer : Bool) : Chip :=
  let c1 := (c.markGroups m.groups).foldl (fun c g => (c.markFor g m m.lo false).1) c
  if peer then c1.peerMark m else c1

/-- MARK_IN_EDGE (R322, R323): an edge of a pin, `age` fine LSBs ago. Only an active edge while RUN_EN and EN are 1 is
accepted. -/
def Chip.markInEdge (c : Chip) (i : Nat) (rising : Bool) (age : Nat) : Chip :=
  let f := fun (x : Fld) => x.ix 16 i
  let t := c.fine - age
  let tooSoon : Bool := match AMap.get (always none) c.wake.lastIn i with
    | some l => decide (t ≤ l + 800 * c.g (f F.WKE_MIN0_MIN_GAP)) && decide (l ≤ t)
    | none => false
  if rising = c.b (f F.WKE_MIN0_NEG) ∨ !c.run ∨ !c.b (f F.WKE_MIN0_EN) ∨ tooSoon then c
  else
    let r := ((t : Int) - signedOf 16 (c.g (f F.WKE_MIN0_IN_DLY))).toNat
    (c.modWake (fun w => { w with lastIn := AMap.set (always none) w.lastIn i (some t) })).submitMark
      ⟨none, 2 * r, c.g (f F.WKE_MIN1_PRE), c.g (f F.WKE_MIN2_POST), c.g (f F.WKE_MIN3_GROUPS)⟩ (c.b (f F.WKE_MIN0_PEER))

/-- PEER_MARK_RECEIVED (R52, R324). -/
def Chip.peerMarkIn (c : Chip) : Chip :=
  match c.takePeer (fun b => b.is .mark) with
  | none => c
  | some (b, c1) =>
    if c.hier < 2 ∨ !(c.up c.peerUse) then c1
    else
      let own : Int := secOf c.sub
      let sec := (own + signedOf 16 (((b.f 98 83 : Int) - own) % 65536).toNat).toNat
      c1.submitMark ⟨none, timeOf sec (b.f 82 53) (b.f 52 43), b.f 42 26, b.f 25 9, wakePeerGroups c.work⟩ false

/-- The outcome codes of a deferred mark (R325, R347). -/
def dmTooOld : Nat := 1
def dmFuture : Nat := 2
def dmFull : Nat := 3

/-- A deferred mark (R325): the worst outcome over its groups. A refusal's record holds TAG; its CODE and the rest of its
DATA are not stated. -/
def Chip.deferred (c : Chip) (m : Mark) (peer : Bool) (tag : Nat) : Chip × Nat :=
  let refuse := fun (c : Chip) => let (x, c1) := c.free 144; (c1.event 135 0).logCtx kRefusal (x % 65536) (at_ 159 128 tag + at_ 127 0 (x / 65536))
  if c.kcount + sTicks < m.count then (refuse c, dmFuture)
  else
    let (c1, res) := (c.markGroups m.groups).foldl (fun (a : Chip × Nat) g =>
      let (c, res) := a
      let old := c.oldestOf g
      if m.hi < old then (refuse c, max res dmTooOld)
      else
        let (c1, ok) := c.markFor g m (max m.lo old) (decide (m.lo < old))
        if ok then (c1, res) else (refuse c1, max res dmFull)) (c, 0)
    (if peer then c1.peerMark m else c1, res)

/-- DEFERRED_MARK (R325, R347): GO of WKE_DM_CTL has been written. -/
def Chip.deferredGo (c : Chip) : Chip :=
  let sec := c.g F.WKE_DM_SEC_HI_SEC * 2 ^ 32 + c.g F.WKE_DM_SEC_LO_SEC
  let m : Mark := ⟨none, timeOf sec (c.g F.WKE_DM_NS_NS) 0, c.g F.WKE_DM_PRE_PRE, c.g F.WKE_DM_POST_POST, c.g F.WKE_DM_GROUPS_GROUPS⟩
  let (c1, res) := c.deferred m (c.b F.WKE_DM_CTL_PEER) (c.g F.WKE_DM_CTL_TAG)
  ((c1.s F.WKE_DM_CTL_GO 0).s F.WKE_DM_CTL_DONE 1).s F.WKE_DM_CTL_RESULT res

/-! ## Worker marks of windows (R328, R330) -/

/-- MARK_RESULT trailers that have reached class 3: the last part of a worker mark answers it (R328, R330). -/
def Chip.takeTrailers (c : Chip) : Chip :=
  let ts := c.wake.trailers
  let c0 := c.modWake (fun w => { w with trailers := [] })
  ts.foldl (fun c t =>
    let (slot, b) := t
    let id := b.f 119 108
    let bad := [1, 2, 4].contains (b.f 102 100)
    if b.f 103 103 = 0 then c
    else c.windows.foldl (fun c x =>
      if x.2.outst.any (fun o => o.id == id && o.slot == slot && !o.done) then
        c.modWin x.1 (fun w => { w with partial_ := w.partial_ || bad,
                                        outst := w.outst.map (fun o => if o.id = id ∧ o.slot = slot then { o with done := true } else o) })
      else c) c) c0

/-- The worker mark waits among the blocks a move holds back: it has not been sent (R230). -/
def Chip.markHeld (c : Chip) (slot id : Nat) : Bool :=
  (c.pair (slot / 16)).held.any (fun h => h.blk.is .mark && h.blk.f 105 94 == id && (h.pos == c.posOf slot || h.pos == 0x1F))

/-- MARK_TIMEOUT (R328, R330): MARK_TO has passed since worker marks of a window were sent. -/
def Chip.markTimeout (c : Chip) (e : Nat) : Chip :=
  let dst := usTicks * max 1 (c.g F.WKE_CTL_MARK_TO)
  match c.win e with
  | some w =>
    let late := fun (o : WkMark) => !o.done && !c.markHeld o.slot o.id && decide (o.sent + dst ≤ c.tick)
    if w.outst.any late then
      c.setWin e (some { w with partial_ := true, outst := w.outst.map (fun o => if late o then { o with done := true } else o) })
    else c
  | none => c

/-- WINDOW_READY (R328). A worker mark that was not sent counts as answered, and the window is partial (R330). -/
def Chip.windowReady (c : Chip) (e : Nat) : Chip :=
  match c.win e with
  | some w =>
    let gr := c.grp w.group
    let missed := fun (o : WkMark) => (c.pair (o.slot / 16)).missed.contains (o.slot, o.id)
    let part := w.partial_ || w.outst.any missed
    if w.st ≠ .done ∧ w.ready = none ∧ w.hi / 2 ^ gr.orderLog < gr.close ∧ w.outst.all (fun o => o.done || missed o) then
      (c.setWin e (some { w with partial_ := part, ready := some (c.wake.readySeq, gr.close) })).modWake (fun x => { x with readySeq := x.readySeq + 1 })
    else c
  | none => c

/-! ## Watches (R331 to R336) -/

def Chip.watchSt (c : Chip) (g : Nat) : WatchSt := AMap.get (always WatchSt.init) c.wake.watch g
def Chip.setWatch (c : Chip) (g : Nat) (x : WatchSt) : Chip := c.modWake (fun w => { w with watch := AMap.set (always WatchSt.init) w.watch g x })

/-- A field of WKE_WGRP of a group. -/
def wgrpFld (f : Fld) (g : Nat) : Fld := f.ix 32 g

/-- A group emits watches: the Chart defines it, and it is streaming. -/
def Chip.streaming (c : Chip) (g : Nat) : Bool := (c.grp g).valid && !(c.grp g).marked

/-- A watch object of a group that is being emitted. -/
def Chip.emitting (c : Chip) (g : Nat) : Option EObj :=
  (c.egr.lanes.flatMap (fun l => l.2.objs)).find? (fun o => o.ftype == .watch && o.group == g)

/-- BACKLOG: closed watches not yet fully emitted (R348). -/
def Chip.backlog (c : Chip) (g : Nat) : Nat := (c.watchSt g).closed.length + (c.emitting g).isSome.toNat

/-- The deadline of a watch that ends at `hi` (R334): DEADLINE is in µs. -/
def Chip.deadline (c : Chip) (g hi : Nat) : Nat := hi + 1 + usTicks * c.g (wgrpFld F.WKE_WGRP1_DEADLINE g)

/-- CUR, SERIAL, SHORTENED and BACKLOG report the builder (R348). -/
def Chip.watchRegs (c : Chip) (g : Nat) : Chip :=
  let x := c.watchSt g
  let (cur, ser) := match x.cur with
    | some w => (w.hi + 1 - w.lo, w.serial)
    | none => (0, c.g (wgrpFld F.WKE_WGRP3_SERIAL g))
  (((c.s (wgrpFld F.WKE_WGRP2_CUR g) (if x.cur.isSome then x.span else cur)).s (wgrpFld F.WKE_WGRP3_SERIAL g) ser).s (wgrpFld F.WKE_WGRP4_SHORTENED g)
    x.shortened.toNat).s (wgrpFld F.WKE_WGRP4_BACKLOG g) (min 65535 (c.backlog g))

/-- Some watch of the group is unemitted past its deadline, or the last one emitted was late (R334). -/
def Chip.behind (c : Chip) (g : Nat) : Bool :=
  let x := c.watchSt g
  let past := fun (hi : Nat) => decide (c.deadline g hi < c.kcount)
  x.lastLate || (x.open_ ++ x.closed).any (fun w => past w.hi) || (match c.emitting g with
    | some o => past o.hi
    | none => false)

/-- The next boundary after a cycle that lies on both grids (R331). -/
def commonAfter (a b t : Nat) : Nat := let m := Nat.lcm a b; (t / m + 1) * m

/-- Fix the watch that starts at a cycle (R331, R333, R334). `x.span` is the builder's cur. -/
def Chip.watchStart (c : Chip) (g start : Nat) : Chip :=
  let x := c.watchSt g
  let reg := c.g (wgrpFld F.WKE_WGRP0_SPAN g)
  let old := x.newSpan.getD reg
  let grid := if x.newSpan.isSome ∧ start % old = 0 ∧ start % reg = 0 then reg else old
  let switched := x.newSpan.isSome ∧ grid = reg ∧ start % old = 0 ∧ start % reg = 0
  let x1 := if switched then { x with newSpan := none, span := reg, shortened := false } else x
  let behind := c.behind g
  let cur0 := if x1.span = 0 then grid else x1.span
  let (cur, short) := if behind then ((if grid / 8 < cur0 then cur0 / 2 else cur0), true)
    else if x1.shortened ∧ c.backlog g = 0 ∧ start % grid = 0 then (grid, false)
    else (cur0, x1.shortened)
  let end0 := (start / cur + 1) * cur
  let stop := match x1.newSpan with
    | some o => min end0 (commonAfter o reg start)
    | none => end0
  let ser := (c.g (wgrpFld F.WKE_WGRP3_SERIAL g) + 1) % 2 ^ 32
  let w : Watch := ⟨start, stop - 1, ser, decide (stop - start < grid), false, c.g F.MER_STAT_STATE⟩
  let c1 := if short ∧ !x1.shortened then c.event 146 g else if !short ∧ x1.shortened then c.event 147 g else c
  ((c1.setWatch g { x1 with cur := some w, span := cur, shortened := short }).s (wgrpFld F.WKE_WGRP3_SERIAL g) ser).watchRegs g

/-- The close point of a run that RUN_EN has ended: the first bucket start past the count at which it cleared (R290). -/
def Group.stopEnd (gr : Group) : Option Nat := gr.stopAt.map (fun n => max gr.close (n / 2 ^ gr.orderLog + 1) * 2 ^ gr.orderLog)

/-- The watch being built ends; the next one is fixed, unless the run ends before it (R333, R334). -/
def Chip.watchNext (c : Chip) (g : Nat) : Chip :=
  let x := c.watchSt g
  match x.cur with
  | none => if (c.grp g).running then c.watchStart g ((c.grp g).close * 2 ^ (c.grp g).orderLog) else c
  | some w => if w.hi < c.kcount ∧ (c.grp g).running ∧ !((c.grp g).stopEnd.any (· ≤ w.hi + 1)) then (c.setWatch g { x with open_ := x.open_ ++ [w] }).watchStart g (w.hi + 1) else c

/-- WATCH_CLOSE (R332): the group has closed the bucket that holds a watch's last cycle. -/
def Chip.watchClose (c : Chip) (g : Nat) : Chip :=
  let x := c.watchSt g
  match x.open_ with
  | w :: r => if w.hi / 2 ^ (c.grp g).orderLog < (c.grp g).close then (c.setWatch g { x with open_ := r, closed := x.closed ++ [w] }).watchRegs g else c
  | [] => c

/-- WATCH_DEADLINE (R334): watches unemitted past their deadline. -/
def Chip.watchDeadline (c : Chip) (g : Nat) : Chip :=
  let x := c.watchSt g
  let late := fun (w : Watch) => !w.lateSeen && decide (c.deadline g w.hi < c.kcount)
  if (x.open_ ++ x.closed).any late then
    let f := fun (w : Watch) => if late w then { w with lateSeen := true } else w
    (c.setWatch g { x with open_ := x.open_.map f, closed := x.closed.map f }).flag F.WKE_STAT_WATCH_LATE 144 g
  else c

/-- The last watch of a run ends at the close point (R333). -/
def Chip.watchStop (c : Chip) (g : Nat) : Chip :=
  let x := c.watchSt g
  let stop := (c.grp g).close * 2 ^ (c.grp g).orderLog
  match x.cur with
  | some w =>
    let w1 : Watch := { w with hi := min w.hi (stop - 1), short := w.short || decide (stop ≤ w.hi) }
    (c.setWatch g { x with cur := none, span := 0, shortened := false, open_ := if w.lo < stop then x.open_ ++ [w1] else x.open_ }).watchRegs g
  | none => c

/-- SPAN_WRITE (R331, R348): a value outside LIMITS, or not a multiple of 8, is not performed. -/
def Chip.spanWrite (c : Chip) (g v : Nat) : Chip :=
  let f := wgrpFld F.WKE_WGRP0_SPAN g
  let old := c.g f
  if !c.streaming g then c
  else if v % 8 ≠ 0 ∨ v < max 640 (limSpanMin c.work) ∨ min 640000000 (limSpanMax c.work) < v then
    (c.event 149 g).logCtx kRefusal 0x0100 (at_ 159 128 f.reg + at_ 127 64 v)
  else
    let x := c.watchSt g
    let c1 := c.s f v
    let c2 := if x.cur.isSome then c1.setWatch g { x with newSpan := some (x.newSpan.getD old) } else c1
    c2.event 148 g

/-- The start of the oldest closed watch of any streaming group not yet fully emitted (R336). -/
def Chip.oldestWatch (c : Chip) : Option Nat :=
  ((List.range 32).filterMap (fun g =>
    if c.streaming g then
      (match c.emitting g with
        | some o => some o.lo
        | none => (c.watchSt g).closed.head?.map (·.lo))
    else none)).min?

/-- WAKE_HWM (R336). -/
def Chip.wakeHwm (c : Chip) : Chip :=
  let age := match c.oldestWatch with
    | some lo => c.kcount - lo
    | none => 0
  let depth := c.wakeDepth * usTicks
  let hwm := min 100 (c.g F.WKE_CTL_HWM)
  let lwm := min hwm (c.g F.WKE_CTL_LWM)
  if !c.b F.WKE_STAT_BUSY_WAKE then
    if c.oldestWatch.isSome ∧ hwm * depth ≤ 100 * age then
      ((c.s F.WKE_STAT_BUSY_WAKE 1).flag F.WKE_STAT_HWM_HIT 128 0).logAct 0 0 age
    else c
  else if c.oldestWatch = none ∨ 100 * age ≤ lwm * depth then (c.s F.WKE_STAT_BUSY_WAKE 0).event 129 0
  else c

/-! ## Table window (R320, R348) -/

/-- Word w of a page's time index entry (R320). -/
def indexWord (p : WPage) (w : Nat) : Nat :=
  match w with
  | 0 => at_ 31 31 p.valid.toNat + at_ 30 30 p.open_.toNat + at_ 29 29 p.cont.toNat + at_ 28 28 p.bad.toNat + at_ 27 23 p.group + at_ 22 19 p.orderLog + at_ 15 0 p.next
  | 1 => p.first % 2 ^ 32
  | 2 => p.last % 2 ^ 32
  | _ => at_ 31 16 (p.first / 2 ^ 32) + at_ 15 0 (p.last / 2 ^ 32)

/-- Word w of a mark queue entry (R348). -/
def winWord (x : Window) (w : Nat) : Nat :=
  let st := match x.st with
    | .waiting => 0
    | .extracting => 1
    | .done => 2
  match w with
  | 0 => at_ 31 31 1 + at_ 30 29 st + at_ 28 28 x.partial_.toNat + at_ 27 23 x.group + at_ 22 16 (min 127 (x.outst.filter (fun o => !o.done)).length) + at_ 15 0 (min 65535 x.marks)
  | 1 => x.lo % 2 ^ 32
  | 2 => x.hi % 2 ^ 32
  | _ => at_ 31 16 (x.lo / 2 ^ 32) + at_ 15 0 (x.hi / 2 ^ 32)

/-- The word WKE_TBL_ADDR selects (R348). The NEXT field of a page that holds no data reads as the entry of a page never
written. -/
def Chip.wkeTblRead (c : Chip) : Word :=
  let ix := c.g F.WKE_TBL_ADDR_INDEX
  match c.g F.WKE_TBL_ADDR_TBL with
  | 0 => if ix / 4 < wakePages then BitVec.ofNat 32 (if (AMap.get (always WPage.init) c.wake.pages (ix / 4)) = WPage.init then 0 else indexWord (c.wpage (ix / 4)) (ix % 4)) else 0
  | 1 => match (if ix / 4 < mqMax then c.win (ix / 4) else none) with
    | some w => BitVec.ofNat 32 (winWord w (ix % 4))
    | none => 0
  | _ => 0

end Sys2Proof
end

