-- ==== Sys2Proof/Machine/Egress.lean ====
section
/-!
DEFINITION. Machine/Egress.lean: extraction of windows and emission of watches (R329, R330, R335), Aedurn frames (R338 to
R341), PFC (R342), confirmation (R343) and lane sparing (R344 to R346).
-/
namespace Sys2Proof

def Chip.modEgr (c : Chip) (f : Egr → Egr) : Chip := { c with egr := f c.egr }
def Chip.lane (c : Chip) (l : Nat) : Lane := AMap.get (always Lane.init) c.egr.lanes l
def Chip.setLane (c : Chip) (l : Nat) (x : Lane) : Chip := c.modEgr (fun e => { e with lanes := AMap.set (always Lane.init) e.lanes l x })

/-- PHYS[l] of EGR_MAP (R349). -/
def Chip.phys (c : Chip) (l : Nat) : Nat := c.g F.EGR_MAP_PHYS / 16 ^ l % 16

/-- Set PHYS[l]. -/
def Chip.setPhys (c : Chip) (l p : Nat) : Chip :=
  let m := c.g F.EGR_MAP_PHYS
  c.s F.EGR_MAP_PHYS (m - c.phys l * 16 ^ l + p % 16 * 16 ^ l)

/-- A field of EGR_LANE of a physical lane. -/
def laneFld (f : Fld) (p : Nat) : Fld := f.ix 16 p

/-- A physical lane's link is up. -/
def Chip.laneUp (c : Chip) (p : Nat) : Bool := p < 9 && c.b (laneFld F.EGR_LANE0_UP p)

/-- Lane roles (R349). -/
def roleOff : Nat := 0
def roleActive : Nat := 1
def roleSpare : Nat := 2
def roleFailed : Nat := 3

/-- The logical lane of a destination: as its record has it, or where R346 has moved it. -/
def Chip.laneOf (c : Chip) (d : Nat) : Nat := (AMap.get (always none) c.egr.moved d).getD (bitsOf (destWord c.work d 0) 25 23)

def Chip.pcp (c : Chip) (d : Nat) : Nat := bitsOf (destWord c.work d 0) 28 26

/-- A priority of a physical lane is paused (R342). -/
def Chip.paused (c : Chip) (p prio : Nat) : Bool := (AMap.get (always none) c.egr.pause (8 * p + prio)).any (fun x => decide (c.tick < x.1))

/-! ## Reading Wake (R321, R329, R330, R332) -/

/-- The place of an element in Wake: page, age and element number. -/
abbrev Place := Nat × Nat × Nat

/-- A cycle lies in an object's span. -/
def EObj.has (o : EObj) (c : Nat) : Bool := o.lo ≤ c && c ≤ o.hi

/-- An element belongs to a window (R329). -/
def EObj.winKeeps (o : EObj) (e : WEnt) : Bool :=
  match e.el with
  | .hit _ _ _ c _ | .far _ _ c _ | .sight _ _ c _ => o.has c
  | .status _ _ _ _ lo hi => lo ≤ o.hi && o.lo ≤ hi
  | .bend b _ _ _ => o.lo ≤ b * 2 ^ o.orderLog && (b + 1) * 2 ^ o.orderLog ≤ o.hi + 1
  | .gap _ _ => true

/-- An element belongs to a watch (R332). -/
def EObj.watchKeeps (o : EObj) (e : WEnt) : Bool :=
  let start := e.bucket * 2 ^ o.orderLog
  match e.el with
  | .hit _ _ late c _ | .sight _ late c _ => if late then o.has start else o.has c
  | .far _ _ _ _ => o.has start
  | .status _ _ _ _ lo _ => o.has lo
  | .bend b _ _ _ => o.has ((b + 1) * 2 ^ o.orderLog - 1)
  | .gap _ _ => true

/-- A kept element that was not read before the window's end moved (R327). -/
def EObj.fresh (o : EObj) (pl : Place) (e : WEnt) : Bool :=
  o.seen.all (fun (age, ix, hi) =>
    if pl.2.1 < age || (pl.2.1 == age && pl.2.2 < ix) then
      match e.el with
      | .hit _ _ _ c _ | .far _ _ c _ | .sight _ _ c _ => hi < c
      | .status _ _ _ _ lo _ => hi < lo
      | .bend b _ _ _ => hi < (b + 1) * 2 ^ o.orderLog - 1
      | .gap _ _ => true
    else true)

/-- An object's reader goes on to a moved end (R327): from the window's start again, leaving out what it has read. -/
def EObj.extend (o : EObj) (hi upTo marks : Nat) : EObj :=
  { o with hi := hi, upTo := upTo, marks := marks, page := none, ix := 0, seen := if o.page.isSome then (o.age, o.ix, o.hi) :: o.seen else o.seen }

/-- The elements of a page with the bits where each starts and ends, and whether it starts a bucket. -/
def layout (ord : Nat) : PackSt → Nat → Bool → Nat → List WEnt → List (Nat × Nat × Nat × Bool × WEnt)
  | _, _, _, _, [] => []
  | s, pos, first, ix, e :: r =>
    let stop := pos + s.cost ord e
    let isEnd : Bool := match e.el with
      | .bend _ _ _ _ => true
      | _ => false
    (ix, pos, stop, first, e) :: layout ord (s.after ord e) stop isEnd (ix + 1) r

/-- Bits of a chunk that a waypoint describes (R319). -/
def chunkBits : Nat := 524288

/-- Leave out what an uncorrectable word makes unreadable, up to the next valid waypoint (R330). -/
def skipPoison (l : List (Nat × Nat × Nat × Bool × WEnt)) (x : Nat) : List (Nat × Nat × Nat × Bool × WEnt) :=
  let (ok, rest) := l.span (fun t => t.2.2.1 ≤ x)
  let (bad, post) := rest.span (fun t => !(t.2.2.2.1 && decide (x / chunkBits < t.2.1 / chunkBits)))
  match bad with
  | [] => l
  | b :: _ =>
    let lo := b.2.2.2.2.bucket
    let hi := match post with
      | p :: _ => p.2.2.2.2.bucket
      | [] => ((bad.getLast?).map (fun t => t.2.2.2.2.bucket)).getD lo
    ok ++ [(b.1, b.2.1, b.2.1, false, ⟨lo, .gap lo hi⟩)] ++ post

/-- The readable elements of a page. -/
def WPage.readable (p : WPage) : List (Nat × WEnt) :=
  let l := layout p.orderLog ⟨p.first, none, 0, 0⟩ 4096 (!p.cont) 0 p.ents
  (p.poison.foldl skipPoison l).map (fun t => (t.1, t.2.2.2.2))

/-- The elements an object has still to send, with their places; a GAP stands for buckets whose page was recycled before
it was reached (R321, R329, R330, R332, R335). -/
def Chip.scan (c : Chip) (o : EObj) : List (Place × WEnt) :=
  let b0 := o.lo / 2 ^ o.orderLog
  let chain := c.chainOf o.group
  let (pages, skip, from_) := match o.page with
    | none => (chain.dropWhile (fun n => !(c.wpage n).valid || decide ((c.wpage n).last < b0)), 0, b0)
    | some n =>
      if chain.contains n ∧ (c.wpage n).age = o.age then (chain.dropWhile (· ≠ n), o.ix, o.upTo)
      else (chain.filter (fun m => o.age < (c.wpage m).age), 0, o.bk)
  let lost := min (c.lostTo o.group) o.upTo
  let gap : List (Place × WEnt) := if from_ < lost then [((pages.headD 0, 0, 0), ⟨from_, .gap from_ (lost - 1)⟩)] else []
  let ents := (pages.zipIdx).flatMap (fun (n, i) =>
    let p := c.wpage n
    ((p.readable.filter (fun t => i ≠ 0 || skip ≤ t.1)).map (fun t => (((n, p.age, t.1) : Place), t.2))))
  let keeps := fun (pl : Place) (e : WEnt) =>
    b0 ≤ e.bucket && e.bucket < o.upTo && (if o.ftype = .watch then o.watchKeeps e else o.winKeeps e) && o.fresh pl e
  gap ++ ents.filter (fun t => keeps t.1 t.2)

/-! ## Frames (R338 to R340) -/

/-- FTYPE codes (R339). -/
def FType.code : FType → Nat
  | .watch => 1 | .mark => 2 | .monitor => 3 | .log => 4

/-- The 32-byte Aedurn header (R339). -/
def aedurnHeader (o : EObj) (mgr lane seq len : Nat) (first last : Bool) : List Byte :=
  let data : Bool := o.ftype == .watch || o.ftype == .mark
  let b := fun (x : Bool) => x.toNat
  let n := at_ 255 248 0xAE + at_ 247 244 1 + at_ 243 240 o.ftype.code
    + at_ 239 239 (b first) + at_ 238 238 (b last) + at_ 236 236 (b o.short) + at_ 235 235 (b o.late) + at_ 234 234 (b o.partial_) + at_ 233 233 (b o.lost)
    + at_ 231 230 o.mstate + at_ 228 224 (if data then o.group else 0) + at_ 223 208 mgr
    + at_ 207 204 (if data then o.orderLog else 0) + at_ 202 200 lane + at_ 191 160 seq + at_ 159 128 o.serial
    + at_ 127 112 o.seg + at_ 111 96 len + at_ 95 48 (if data then o.lo else 0)
    + at_ 47 16 (if data then o.hi + 1 - o.lo else 0) + at_ 15 0 (if o.ftype = .mark then min 65535 o.marks else 0)
  beBytes 32 n

/-- The 16-bit ones' complement sum of a byte list, padded with a zero byte. -/
def onesSum : List Byte → Nat
  | [] => 0
  | [a] => 256 * a.toNat
  | a :: b :: r => 256 * a.toNat + b.toNat + onesSum r

/-- The Internet checksum. -/
def inetSum (l : List Byte) : Nat :=
  let s := onesSum l
  let f := fun n => n % 65536 + n / 65536
  65535 - f (f (f s))

/-- The Ethernet frame check sequence, as the four bytes sent. -/
def etherFcs (l : List Byte) : List Byte :=
  let bits := l.flatMap (fun b => (beBits 8 b.toNat).reverse)
  let r := Nat.xor (bits.foldl (crcStep 32 0x04C11DB7) 0xFFFFFFFF) 0xFFFFFFFF
  (List.range 4).map (fun i => BitVec.ofNat 8 (bitsNat ((beBits 8 (r / 2 ^ (24 - 8 * i))).reverse)))

/-- The frame on the wire of a UDP payload to a destination (R338, R350). The identification and the congestion bits
of an IPv4 header, and the flow label of an IPv6 header, are not stated: `free` gives them. -/
def wireFrame (g : Image) (d phys free : Nat) (udp : List Byte) : List Byte :=
  let w := destWord g d
  let w0 := w 0
  let v6 := bitOf w0 30
  let srcMac := beField g (secOff g secEgress + 36) 6 + phys
  let tag := if bitOf w0 29 then beBytes 2 0x8100 ++ beBytes 2 (at_ 15 13 (bitsOf w0 28 26) + bitsOf (w 12) 11 0) else []
  let eth := beBytes 2 (w 2) ++ beBytes 4 (w 3) ++ beBytes 6 srcMac ++ tag ++ beBytes 2 (if v6 then 0x86DD else 0x0800)
  let ulen := 8 + udp.length
  let dst := if v6 then (List.range 4).flatMap (fun i => beBytes 4 (w (4 + i))) else beBytes 4 (w 7)
  let src := if v6 then (List.range 4).flatMap (fun i => beBytes 4 (w (8 + i))) else beBytes 4 (w 11)
  let tos := bitsOf (w 12) 31 26 * 4 + bitsOf free 17 16
  let ttl := bitsOf (w 12) 23 16
  let pseudo := if v6 then src ++ dst ++ beBytes 4 ulen ++ beBytes 4 17 else src ++ dst ++ beBytes 2 17 ++ beBytes 2 ulen
  let uh := beBytes 2 (bitsOf (w 1) 31 16) ++ beBytes 2 (bitsOf w0 15 0) ++ beBytes 2 ulen
  let sum := inetSum (pseudo ++ uh ++ beBytes 2 0 ++ udp)
  let dgram := uh ++ beBytes 2 (if sum = 0 then 0xFFFF else sum) ++ udp
  let ip := if v6 then beBytes 4 (at_ 31 28 6 + at_ 27 20 tos + at_ 19 0 free) ++ beBytes 2 ulen ++ beBytes 1 17 ++ beBytes 1 ttl ++ src ++ dst
    else
      let h := fun (ck : Nat) => beBytes 1 0x45 ++ beBytes 1 tos ++ beBytes 2 (20 + ulen) ++ beBytes 2 (bitsOf free 15 0) ++ beBytes 2 0x4000
        ++ beBytes 1 ttl ++ beBytes 1 17 ++ beBytes 2 ck ++ src ++ dst
      h (inetSum (h 0))
  let frame := eth ++ ip ++ dgram
  frame ++ etherFcs frame

/-- MAX_PAYLOAD of a destination (R338, R350). -/
def Chip.maxPayload (c : Chip) (d : Nat) : Nat := bitsOf (destWord c.work d 1) 15 0

/-- Hand a frame to a physical lane. -/
def Chip.putFrame (c : Chip) (f : Frame) (phys : Nat) : Chip :=
  let (free, c1) := c.free 20
  let wire := wireFrame c.work f.dest phys free (f.hdr ++ f.pay)
  (c1.modEgr (fun e => { e with wire := AMap.set (always []) e.wire phys wire })).wrap (laneFld F.EGR_LANE1_FRAMES phys)

/-! ## Segments (R339 to R341) -/

/-- How many elements of a list fit into a payload of `max` bytes, and the bits they take. -/
def takeFit (ord max : Nat) : PackSt → Nat → Nat → List WEnt → Nat × Nat
  | _, used, n, [] => (n, used)
  | s, used, n, e :: r =>
    let more := s.cost ord e + (if s.needsAt e then 52 else 0)
    if fits (8 * max - used) more ∧ used + more ≤ 8 * max then takeFit ord max (s.after ord e) (used + more) (n + 1) r else (n, used)

/-- The object's counts after more of its elements have been sent (R314). -/
def EObj.count (o : EObj) (e : WEnt) : EObj :=
  match e.el with
  | .hit _ _ late _ _ => { o with nrec := o.nrec + 1, nlate := o.nlate + late.toNat }
  | .far _ _ _ _ => { o with nrec := o.nrec + 1, nlate := o.nlate + 1 }
  | .sight _ late _ _ => { o with nsight := o.nsight + 1, nlate := o.nlate + late.toNat }
  | .bend _ _ _ abs => { o with nabs := max o.nabs abs }
  | _ => o

def WElem.isGap : WElem → Bool
  | .gap _ _ => true
  | _ => false

/-- A segment of an object (R339 to R341): its payload, the object after it, whether it is the last, whether it carries a
GAP element, and the pages it came from. -/
structure Segment where
  pay : List Byte
  next : EObj
  last : Bool
  gap : Bool
  pages : List Nat
  deriving DecidableEq, Repr

/-- The next segment of an object. -/
def Chip.segment (c : Chip) (o : EObj) : Segment :=
  if o.ftype = .monitor ∨ o.ftype = .log then ⟨o.bytes, { o with seg := o.seg + 1 }, true, false, []⟩
  else if o.lost then ⟨[], { o with seg := o.seg + 1 }, true, false, []⟩
  else
    let all := c.scan o
    let ents := all.map (·.2)
    let max := c.maxPayload o.dest
    let ord := o.orderLog
    let b0 := match ents with
      | e :: _ => if o.seg = 0 then o.lo / 2 ^ ord else e.bucket
      | [] => if o.seg = 0 then o.lo / 2 ^ ord else o.hi / 2 ^ ord
    let st : PackSt := ⟨b0, none, 0, 0⟩
    let (n, used) := takeFit ord max st 52 0 ents
    let now := all.take n
    let o1 := (now.map (·.2)).foldl EObj.count o
    let lastSeg := n = ents.length ∧ fits (8 * max - used) 95
    let bits := atBits b0 ++ packEnts ord st [] (now.map (·.2)) ++ (if lastSeg then summaryBits o1.nrec o1.nlate o1.nsight o1.nabs else [])
    let gap := now.any (fun t => t.2.el.isGap)
    let o2 := { o1 with seg := o.seg + 1, partial_ := o.partial_ || gap }
    let o3 := match all.drop n, all.getLast? with
      | t :: _, _ => { o2 with page := some t.1.1, age := (c.wpage t.1.1).age, ix := t.1.2.2, bk := t.2.bucket }
      | [], some t => { o2 with page := some t.1.1, age := (c.wpage t.1.1).age, ix := t.1.2.2 + 1, bk := t.2.bucket }
      | [], none => o2
    ⟨payloadBytes max bits, o3, lastSeg, gap, ((now.filter (fun t => !t.2.el.isGap)).map (·.1.1)).eraseDups⟩

/-- Remove an object from its lane, or put its next state in its place. -/
def Lane.swap (l : Lane) (old : EObj) (new : Option EObj) : Lane :=
  { l with objs := l.objs.flatMap (fun o => if o = old then new.toList else [o]) }

/-- A window or watch has been emitted whole. -/
def Chip.emitted (c : Chip) (o : EObj) : Chip :=
  match o.ftype with
  | .watch =>
    let x := c.watchSt o.group
    let c1 := c.setWatch o.group { x with lastLate := o.late }
    let c2 := if o.late then c1.sat (wgrpFld F.WKE_WGRP5_LATE_CNT o.group) else c1
    let c3 := if o.lost then (c2.sat (wgrpFld F.WKE_WGRP5_LOST_CNT o.group)).flag F.WKE_STAT_WATCH_LOST 145 o.group else c2
    c3.watchRegs o.group
  | .mark =>
    let old := (c.windows.filter (fun x => x.2.group == o.group && x.2.st = .done)).map (·.1)
    let c1 := old.foldl (fun c e => c.setWin e none) c
    (c1.modWin o.entry (fun w => { w with st := .done })).modWake (fun w => { w with lastDone := AMap.set (always none) w.lastDone o.group (some (o.lo, o.hi)) })
  | _ => c

/-- The pages pinned once the next segment of an object has been sent (R311). -/
def Chip.pinsAfter (c : Chip) (o : EObj) : Nat :=
  let g := c.segment o
  (c.pinned ++ g.pages ++ (if g.last then [] else c.objPages g.next)).eraseDups.length

/-- Wake holds all the buckets an object reads: the group's root engine has emitted them (log entry 142). -/
def Chip.stored (c : Chip) (o : EObj) : Bool :=
  let r := c.engOf (c.grp o.group).root
  !r.used || decide (o.upTo ≤ r.bucket)

/-- The reader may go on with an object: a window only while it is ready, its buckets in Wake, no 33rd page pinned (R311),
no page of a stack that retrains (R412), and no index entry being rebuilt (R388). -/
def Chip.objReady (c : Chip) (p : Nat) (o : EObj) : Bool :=
  !c.paused p (c.pcp o.dest) &&
  (match o.ftype with
    | .mark => ((c.win o.entry).map (fun w => w.ready.isSome)).getD false
    | _ => true) &&
  (match o.page with
    | some n => !c.wake.noAlloc.contains (n % 8)
    | none => true) &&
  (o.ftype == .monitor || o.ftype == .log ||
    (c.stored o && !(c.chainOf o.group).any c.int.rebuild.contains && decide (c.pinsAfter o ≤ 32)))

/-- The next object of a type in the round robin of groups (R341). -/
def pickGroup (l : List EObj) (last : Nat) : Option EObj :=
  let key := fun (o : EObj) => (o.group + 31 - last % 32) % 32
  l.foldl (fun (b : Option EObj) o => match b with
    | some x => if key o < key x then some o else b
    | none => some o) none

/-- The object a logical lane serves next, by strict priority (R341). -/
def Chip.pickObj (c : Chip) (l p : Nat) : Option EObj :=
  let x := c.lane l
  let of := fun (t : FType) => x.objs.filter (fun o => o.ftype == t && c.objReady p o)
  (((of .monitor).head?).or (pickGroup (of .mark) x.rrMark)).or ((pickGroup (of .watch) x.rrWatch).or (of .log).head?)

/-- A GAP element is raised; what becomes known as PARTIAL is raised and recorded once (R330, R335). -/
def Chip.notePartial (c : Chip) (old new : EObj) (gap : Bool) : Chip :=
  let c1 := if gap then (c.flag F.WKE_STAT_GAP 134 old.group) else c
  let c2 := if new.partial_ ∧ old.ftype = .mark then c1.modWin old.entry (fun w => { w with partial_ := true }) else c1
  if new.partial_ ∧ (old.seg = 0 ∨ !old.partial_) ∧ (old.ftype = .watch ∨ old.ftype = .mark) then
    (c2.flag F.WKE_STAT_WIN_PARTIAL 131 old.group).logAct old.group old.lo old.hi
  else c2

/-- All that Wake held of a watch has been recycled (R335). -/
def Chip.watchGone (c : Chip) (o : EObj) : Bool :=
  let b1 := o.hi / 2 ^ o.orderLog
  o.ftype == .watch && o.seg == 0 && decide (b1 < c.lostTo o.group) &&
    (c.chainOf o.group).all (fun n => !(c.wpage n).valid || decide (b1 < (c.wpage n).first))

/-- Send the next segment of an object on a logical lane. -/
def Chip.sendSeg (c : Chip) (l p : Nat) (o0 : EObj) : Chip :=
  let past : Bool := o0.ftype == .watch && decide (c.deadline o0.group o0.hi < c.kcount)
  let part : Bool := match o0.ftype with
    | .mark => ((c.win o0.entry).map (fun w => w.partial_)).getD o0.partial_
    | _ => o0.partial_
  let o := { o0 with late := o0.late || past, partial_ := part, lost := o0.lost || c.watchGone o0 }
  let g := c.segment o
  let o1 := g.next
  let x := c.lane l
  let hdr := aedurnHeader { o1 with seg := o.seg } (mgrId c.work) l x.seq g.pay.length (o.seg = 0) g.last
  let f : Frame := ⟨l, x.seq, o.ftype, o.dest, hdr, g.pay, g.pages, p, c.tick⟩
  let x1 := x.swap o0 (if g.last then none else some o1)
  let x2 := { x1 with seq := (x.seq + 1) % 2 ^ 32, unconf := x1.unconf ++ [f],
                      rrWatch := if o.ftype = .watch then o.group else x.rrWatch, rrMark := if o.ftype = .mark then o.group else x.rrMark }
  let c1 := ((c.setLane l x2).putFrame f p).notePartial o0 o1 g.gap
  let c2 := if o.lost ∧ !o0.lost then c1.logAct o.group o.lo o.hi else c1
  if g.last then c2.emitted o1 else c2

/-- Send the first re-sent frame of a lane, with RESENT set (R345). -/
def Chip.sendResent (c : Chip) (l p : Nat) (f : Frame) : Chip :=
  let x := c.lane l
  let hdr := f.hdr.set 2 ((f.hdr.getD 2 0) ||| 0x20)
  let f1 := { f with hdr := hdr, phys := p, sentAt := c.tick }
  ((c.setLane l { x with resend := x.resend.erase f, unconf := x.unconf ++ [f1] }).putFrame f1 p).sat F.EGR_STAT_RESENT

/-- FRAME_SEND (R341): a logical lane sends its next frame. -/
def Chip.frameSend (c : Chip) (l : Nat) : Chip :=
  let p := c.phys l
  if !c.laneUp p then c
  else match (c.lane l).resend.find? (fun f => !c.paused p (c.pcp f.dest)) with
    | some f => c.sendResent l p f
    | none => match c.pickObj l p with
      | some o => c.sendSeg l p o
      | none => c

/-- FIRST_RESENT_FRAME (R345): the first frame of the re-send list is handed to the spare. -/
def Chip.firstResent (c : Chip) (l : Nat) : Chip :=
  let p := c.phys l
  match (c.lane l).resend with
  | f :: _ => if c.laneUp p then c.sendResent l p f else c
  | [] => c

/-- FRAME_CONFIRM (R343): CONFIRM_T has passed after frames whose lane has stayed up. -/
def Chip.frameConfirm (c : Chip) (l : Nat) : Chip :=
  let x := c.lane l
  let dst := usTicks * max 1 (c.g F.EGR_CTL_CONFIRM_T)
  c.setLane l { x with unconf := x.unconf.filter (fun f => !(decide (f.sentAt + dst ≤ c.tick) && c.laneUp f.phys)) }

/-- Put an object on the lane of its destination. With no destination nothing is sent. -/
def Chip.putObj (c : Chip) (o : EObj) : Chip :=
  if egNDest c.work ≤ o.dest ∨ c.work = [] then c.emitted o
  else
    let l := c.laneOf o.dest
    let x := c.lane l
    c.setLane l { x with objs := x.objs ++ [o] }

/-- WINDOW_EXTRACT (R327, R329): the first of the ready windows, while fewer than 4 are being extracted; a window whose
end has moved goes on. -/
def Chip.windowExtract (c : Chip) : Chip :=
  let busy := (c.windows.filter (fun x => x.2.st = .extracting)).length
  let order := fun (x : Nat × Window) => (x.2.ready.map (·.1)).getD 0
  let cand := c.windows.filter (fun x => x.2.ready.isSome && ((x.2.st = .waiting && decide (busy < 4)) ||
    (x.2.st = .extracting && (c.egr.lanes.flatMap (fun l => l.2.objs)).any (fun o => o.ftype == .mark && o.entry == x.1 && decide (o.hi < x.2.hi)))))
  match cand with
  | [] => c
  | y :: r =>
    let (e, w) := r.foldl (fun b x => if order x < order b then x else b) y
    let upTo := (w.ready.map (·.2)).getD 0
    if w.st = .extracting then
      c.modEgr (fun g => { g with lanes := g.lanes.map (fun l => (l.1, { l.2 with objs := l.2.objs.map (fun o =>
        if o.ftype = .mark ∧ o.entry = e then o.extend w.hi upTo w.marks else o) })) })
    else
      let ser := AMap.get (always 0) c.wake.winSerial w.group
      let o : EObj := ⟨.mark, w.group, (c.grp w.group).orderLog, ser, markDest c.work w.group, w.lo, w.hi, w.mstate, w.marks, false, false, w.partial_, false, 0,
        upTo, none, 0, 0, w.lo / 2 ^ (c.grp w.group).orderLog, [], 0, 0, 0, 0, [], e⟩
      ((c.setWin e (some { w with st := .extracting, serial := ser })).modWake (fun x => { x with winSerial := AMap.set (always 0) x.winSerial w.group ((ser + 1) % 2 ^ 32) })).putObj o

/-- The oldest closed watch of a group goes to its lane (R335). -/
def Chip.watchEmit (c : Chip) (g : Nat) : Chip :=
  let x := c.watchSt g
  match x.closed with
  | [] => c
  | w :: r =>
    if (c.emitting g).isSome then c
    else
      let ord := (c.grp g).orderLog
      let b1 := w.hi / 2 ^ ord
      let o : EObj := ⟨.watch, g, ord, w.serial, watchDest c.work g, w.lo, w.hi, w.mstate, 0, w.short, w.lateSeen, false, false, 0,
        b1 + 1, none, 0, 0, w.lo / 2 ^ ord, [], 0, 0, 0, 0, [], 0⟩
      ((c.setWatch g { x with closed := r }).putObj o).watchRegs g

/-- WATCH_BUILD (R334, R335): the builder fixes the next watch when the present one has ended, and emits the oldest closed
one. -/
def Chip.watchBuild (c : Chip) (g : Nat) : Chip := if c.streaming g then (c.watchNext g).watchEmit g else c

/-! ## PFC (R342) -/

/-- The MCK cycles of a pause of `q` quanta of 512 bit times at 100 Gbit/s. -/
def pauseTicks (q : Nat) : Nat := (q * 32768 + 9999) / 10000

/-- PFC_RECEIVED (R342): each enabled priority is paused for its quanta, or resumed with 0. -/
def Chip.pfcReceived (c : Chip) (p enable quanta : Nat) : Chip :=
  let c1 := c.sat (laneFld F.EGR_LANE3_PFC_RX p)
  ((List.range 8).filter (bitOf enable)).foldl (fun c i =>
    let q := bitsOf quanta (16 * i + 15) (16 * i)
    let old := AMap.get (always none) c.egr.pause (8 * p + i)
    let new : Option (Nat × Nat × Bool) := if q = 0 then none else match old.filter (fun x => decide (c.tick < x.1)) with
      | some (_, since, long) => some (c.tick + pauseTicks q, since, long)
      | none => some (c.tick + pauseTicks q, c.tick, false)
    c.modEgr (fun e => { e with pause := AMap.set (always none) e.pause (8 * p + i) new })) c1

/-- PFC_PAUSE_EXPIRY (R342). -/
def Chip.pauseExpiry (c : Chip) (p prio : Nat) : Chip :=
  match AMap.get (always none) c.egr.pause (8 * p + prio) with
  | some (stop, _, _) => if stop ≤ c.tick then c.modEgr (fun e => { e with pause := AMap.set (always none) e.pause (8 * p + prio) none }) else c
  | none => c

/-- PFC_WATCHDOG (R342): a priority paused without a break for PFC_WD. -/
def Chip.pfcWatchdog (c : Chip) (p prio : Nat) : Chip :=
  match AMap.get (always none) c.egr.pause (8 * p + prio) with
  | some (stop, since, false) =>
    if since + msTicks * c.g F.EGR_FAULT_PFC_WD ≤ min stop c.tick then
      ((c.modEgr (fun e => { e with pause := AMap.set (always none) e.pause (8 * p + prio) (some (stop, since, true)) })).flag F.EGR_STAT_PFC_LONG 163 p).logAct p prio 0
    else c
  | _ => c

/-- RX_FRAME_DISCARD (R342). -/
def Chip.rxDiscard (c : Chip) (p : Nat) : Chip := (c.sat (laneFld F.EGR_LANE3_RX_DISC p)).flag F.EGR_STAT_RX_DISCARD 164 p

/-! ## Lane sparing (R344 to R346) -/

/-- Frames in SEQ order from the oldest: a lane's frames are listed in the order they were first sent. -/
def insSeq (f : Frame) : List Frame → List Frame
  | [] => [f]
  | g :: r => if f.lane = g.lane ∧ (g.seq + 2 ^ 32 - f.seq) % 2 ^ 32 < 2 ^ 31 then f :: g :: r else g :: insSeq f r

/-- A fault is declared on a physical lane (R344 to R346). On a lane that has failed already it starts the 1 s of R346
anew. -/
def Chip.laneFault (c : Chip) (p cause corr unc : Nat) : Chip :=
  let c0 := (c.sat (laneFld F.EGR_LANE2_FEC_CORR p) corr).sat (laneFld F.EGR_LANE2_FEC_UNC p) unc
  let role := c.g (laneFld F.EGR_LANE0_ROLE p)
  if 9 ≤ p ∨ (cause = 3 ∧ unc ≤ c.g F.EGR_FAULT_FEC_UNC_LIM) ∨ role = roleOff ∨ cause = 0 ∨ 4 < cause then c0
  else
    let c1 := (c0.s (laneFld F.EGR_LANE0_CAUSE p) cause).s (laneFld F.EGR_LANE0_ROLE p) roleFailed
    let ca := if role = roleFailed then c1 else c1.flag F.EGR_STAT_LANE_FAULT 160 p
    let c2 := (if cause = 3 then ca else ca.s (laneFld F.EGR_LANE0_UP p) 0).modEgr (fun e => { e with upSince := AMap.set (always 0) e.upSince p c.tick })
    if role = roleFailed then c2
    else if role = roleSpare then ((c2.s F.EGR_STAT_SPARE_OK 0).s F.EGR_STAT_SPARE 0xF).event 166 p
    else
      match (List.range 8).find? (fun l => c.phys l = p) with
      | none => c2
      | some l =>
        let x := c.lane l
        let frames := (x.unconf.filter (fun f => f.phys = p)).foldl (fun a f => insSeq f a) x.resend
        let rest := x.unconf.filter (fun f => f.phys ≠ p)
        let s := c.g F.EGR_STAT_SPARE
        if c.b F.EGR_STAT_SPARE_OK ∧ c.laneUp s ∧ limFlag c.work limLaneSpare then
          let c3 := ((c2.setPhys l s).s (laneFld F.EGR_LANE0_ROLE s) roleActive).s (laneFld F.EGR_LANE0_LOGICAL s) l
          let c4 := (c3.s F.EGR_STAT_SPARE_OK 0).s F.EGR_STAT_SPARE 0xF
          ((c4.setLane l { x with unconf := rest, resend := frames }).flag F.EGR_STAT_TAKEOVER 161 p).logAuto limLaneSpare p l frames.length
        else
          let fb := c.g F.EGR_FALLBACK_FB / 16 ^ l % 16
          let c3 := ((c2.setPhys l 0xF).flag F.EGR_STAT_NO_SPARE 162 p).logAct p l fb
          if 8 ≤ fb then c3.setLane l { x with unconf := rest, resend := frames }
          else
            let dests := (List.range (egNDest c.work)).filter (fun d => c.laneOf d = l)
            let y := c.lane fb
            let c4 := (c3.setLane l { x with unconf := rest, resend := [], objs := [] }).setLane fb { y with resend := y.resend ++ frames, objs := y.objs ++ x.objs }
            c4.modEgr (fun e => { e with moved := dests.foldl (fun m d => AMap.set (always none) m d (some fb)) e.moved })

/-- LANE_LINK_UP (R337): a lane has finished training. -/
def Chip.laneLinkUp (c : Chip) (p : Nat) : Chip :=
  if 9 ≤ p ∨ !bitOf (c.g F.EGR_CTL_LANE_EN) p then c
  else
    let c1 := (c.s (laneFld F.EGR_LANE0_UP p) 1).modEgr (fun e => { e with upSince := AMap.set (always 0) e.upSince p c.tick })
    if c.g (laneFld F.EGR_LANE0_ROLE p) = roleSpare then c1.s F.EGR_STAT_SPARE_OK 1 else c1

/-- LANE_RECOVER (R346): a failed lane up and free of faults for 1 s becomes the spare. -/
def Chip.laneRecover (c : Chip) (p : Nat) : Chip :=
  if c.g (laneFld F.EGR_LANE0_ROLE p) = roleFailed ∧ c.laneUp p ∧ AMap.get (always 0) c.egr.upSince p + sTicks ≤ c.tick ∧ c.g F.EGR_STAT_SPARE = 0xF then
    (((c.s (laneFld F.EGR_LANE0_ROLE p) roleSpare).s F.EGR_STAT_SPARE p).s F.EGR_STAT_SPARE_OK 1).event 165 p
  else c

/-- FACTOR_MIN_WRITE (R347). -/
def Chip.factorMinWrite (c : Chip) : Chip := c.s F.WKE_FACTOR_FACTOR_MIN (c.g F.WKE_FACTOR_FACTOR)

/-- The word EGR_DEST_ADDR selects (R350). -/
def Chip.destRead (c : Chip) : Word :=
  let ix := c.g F.EGR_DEST_ADDR_INDEX
  BitVec.ofNat 32 (destWord c.work (ix / 16) (ix % 16))

end Sys2Proof
end

