-- ==== Sys2Proof/Machine/Hk.lean ====
section
/-!
DEFINITION. Machine/Hk.lean: housekeeping: conversions and sequences (R416 to R431), HK_BLANK (R432), the test DAC and
the self-test (R433), the bias-slope channel (R434), and results (R435, R437).
-/
namespace Sys2Proof

def Chip.modHk (c : Chip) (f : Hk → Hk) : Chip := { c with hk := f c.hk }

/-- Converter 0 is A, converter 1 is B. -/
def Chip.conv (c : Chip) (x : Nat) : HkConv := if x = 0 then c.hk.a else c.hk.b
def Chip.modConv (c : Chip) (x : Nat) (f : HkConv → HkConv) : Chip :=
  c.modHk (fun h => if x = 0 then { h with a := f h.a } else { h with b := f h.b })

/-- The HK section: slots, regular ones first (R365). -/
def hkNReg (g : Image) : Nat := if g = [] then 0 else chartF g secHk 2 1
def hkNInj (g : Image) : Nat := if g = [] then 0 else chartF g secHk 3 1
def hkSlotIn (g : Image) (s : Nat) : Nat := chartF g secHk (168 + 4 * s) 1
def hkSlotCyc (g : Image) (s : Nat) : Nat := chartF g secHk (169 + 4 * s) 1
def hkSlotConv (g : Image) (s : Nat) : Nat := chartF g secHk (170 + 4 * s) 1

/-- The slots of a converter: CONV 2 names both (R418). -/
def hkSlots (g : Image) (x : Nat) (inj : Bool) : List Nat :=
  let all := if inj then (List.range (hkNInj g)).map (hkNReg g + ·) else List.range (hkNReg g)
  all.filter (fun s => hkSlotConv g s = x ∨ hkSlotConv g s = 2)

/-- Ticks of an ACK cycle (R38). -/
def ackTicks : Nat := 64

/-- ACK cycles of an integration of `n` mains cycles (R416). -/
def Chip.integAck (c : Chip) (n : Nat) : Nat := if c.b F.HK_CTL_MAINS then (n * 1000000 + 3) / 6 else n * 200000

/-- A field of HK_INCFG of an input. -/
def inFld (f : Fld) (k : Nat) : Fld := f.ix 4 k

def isHkt (k : Nat) : Bool := k < 16
def isHki (k : Nat) : Bool := 16 ≤ k ∧ k < 24
def isHkv (k : Nat) : Bool := 24 ≤ k ∧ k < 36

/-- A resistive HKT input (R420). -/
def Chip.resistive (c : Chip) (k : Nat) : Bool := isHkt k && (let e := c.g (inFld F.HK_INCFG_EXCIT k); decide (1 ≤ e ∧ e ≤ 4))

/-- A 2-wire resistive input: its slot measures the lead loop on the next input first (R421). -/
def Chip.twoWire (c : Chip) (k : Nat) : Bool := c.resistive k && c.g (inFld F.HK_INCFG_WIRING k) == 2

/-- The input a converter is connected to in its present conversion. -/
def Chip.convInput (c : Chip) (x : Nat) : Nat :=
  let s := c.conv x
  hkSlotIn c.work s.slot + s.lead.toNat

/-- Excitation of a conversion: a lead loop is measured with that of its sensor; a cold-junction code is none. -/
def Chip.convExc (c : Chip) (x : Nat) : Nat :=
  let k := hkSlotIn c.work (c.conv x).slot
  if c.resistive k then c.g (inFld F.HK_INCFG_EXCIT k) else 0

def Chip.convBurn (c : Chip) (x : Nat) : Bool := c.b (inFld F.HK_INCFG_BURN (c.convInput x))

/-! ## Settling (R426) -/

/-- The allowance of a new HKI range, in ACK cycles. -/
def rangeAck (r : Nat) : Nat :=
  match r with
  | 0 => 200000
  | 1 => 20000
  | _ => 5000

def inputAck : Nat := 10000
def excitAck : Nat := 32768

/-- The settling allowance of a converter's next conversion, in ACK cycles: the longest of the terms that apply, with
those not yet settled in full. -/
def Chip.allowance (c : Chip) (x : Nat) : Nat :=
  let s := c.conv x
  let k := c.convInput x
  let tIn := if s.prevIn = some k then 0 else inputAck
  let tEx := if s.prevExc = c.convExc x ∧ (s.prevIn ≠ some k ∨ s.prevBurn = c.convBurn x) then 0 else excitAck
  let r := c.g (inFld F.HK_INCFG_RANGE_NOW k)
  let tR := if isHki k ∧ AMap.get (always 0) c.hk.ranges k ≠ r then rangeAck r else 0
  max (max s.owed tIn) (max tEx tR)

/-- A converter takes up its conversion at a tick: it is connected to the input and settles, or integrates at once. -/
def Chip.convBegin (c : Chip) (x t ack : Nat) : Chip :=
  let k := c.convInput x
  let len := ackTicks * c.integAck (hkSlotCyc c.work (c.conv x).slot)
  let ex := c.convExc x
  let bu := c.convBurn x
  let ph : HkPhase := if ack = 0 then .integ (t + len) else .settle (t + ackTicks * ack)
  let c1 := c.modHk (fun h => { h with ranges := if isHki k then AMap.set (always 0) h.ranges k (c.g (inFld F.HK_INCFG_RANGE_NOW k)) else h.ranges })
  c1.modConv x (fun s => { s with ph := ph, prevIn := some k, prevExc := ex, prevBurn := bu, owed := ack })

/-- No integration runs while HK_BLANK is asserted or VDD_HK is low (R432, R494). -/
def Chip.hkStopped (c : Chip) : Bool := c.hk.blankAt.isSome || c.pwr.brown.contains 9

/-- No conversion starts then, nor while the self-test owns the converters (R433). -/
def Chip.hkHeld (c : Chip) : Bool := c.hkStopped || c.b F.HK_TEST_BUSY

def HkConv.isReady (s : HkConv) : Bool := s.ph == .ready && !(s.inj && s.injDone)

/-- Converters that are ready take up their conversions at a tick (R418): in mode 1 both together, after the longer
allowance; in mode 2 B staggered by half an integration in a regular slot. -/
def Chip.hkTry (c : Chip) (t : Nat) : Chip :=
  if c.hkHeld ∨ !c.b F.HK_CTL_SEQ_EN then c
  else if c.g F.HK_CTL_MODE = 1 then
    if c.hk.a.isReady ∧ c.hk.b.isReady then
      let ack := max (c.allowance 0) (c.allowance 1)
      (c.convBegin 0 t ack).convBegin 1 t ack
    else c
  else
    let c1 := if c.hk.a.isReady then c.convBegin 0 t (c.allowance 0) else c
    if c1.hk.b.isReady then
      let own := c1.allowance 1
      let half := c1.integAck (hkSlotCyc c1.work c1.hk.b.slot) / 2
      let ack := if c1.g F.HK_CTL_MODE = 2 ∧ !c1.hk.b.inj then
          match c1.hk.a.ph with
          | .settle till => max own ((till - t) / ackTicks + half)
          | .integ till => max own ((till - t) / ackTicks - half)
          | _ => own
        else own
      c1.convBegin 1 t ack
    else c1

/-- The next ACK edge. -/
def Chip.ackEdge (c : Chip) : Nat := (c.tick + ackTicks - 1) / ackTicks * ackTicks

/-- A conversion in progress is abandoned (R427): an integration is discarded, and counted. -/
def Chip.convAbandon (c : Chip) (x : Nat) : Chip :=
  match (c.conv x).ph with
  | .integ till =>
    if c.tick < till then
      ((c.modConv x (fun s => { s with ph := .ready, lead := false, owed := 0 })).sat F.HK_CNT_DISC_CNT).flag F.HK_STAT_DISCARD 213 (c.convInput x)
    else c
  | .settle _ => c.modConv x (fun s => { s with ph := .ready, lead := false })
  | _ => c

/-- A 2-wire slot starts with its lead loop (R421). -/
def Chip.atSlot (c : Chip) (x : Nat) : Chip :=
  let two := c.twoWire (hkSlotIn c.work (c.conv x).slot)
  c.modConv x (fun s => { s with lead := two })

/-- SETTLE_END (R416): the allowance has run and the integration starts. -/
def Chip.settleDone (c : Chip) (x : Nat) : Chip :=
  match (c.conv x).ph with
  | .settle till =>
    if till ≤ c.tick ∧ !c.hkStopped then
      let len := ackTicks * c.integAck (hkSlotCyc c.work (c.conv x).slot)
      c.modConv x (fun s => { s with ph := .integ (till + len), owed := 0 })
    else c
  | _ => c

/-! ## Injected sequences (R430, R431) -/

/-- A converter that a trigger waits for goes to its injected slots; one whose integration has ended gives its result
first. -/
def Chip.takeInj (c : Chip) (x : Nat) : Chip :=
  let due : Bool := match (c.conv x).ph with
    | .integ till => decide (till ≤ c.tick)
    | _ => false
  if !(c.conv x).injGo ∨ due then c
  else match hkSlots c.work x true with
    | [] => c
    | s :: _ =>
      let c1 := c.convAbandon x
      (c1.modConv x (fun v => { v with ph := .ready, resume := if v.inj then v.resume else v.slot, inj := true, slot := s, injGo := false, injDone := false })).atSlot x

/-- The injected sequence starts on every converter that has injected slots. -/
def Chip.injStart (c : Chip) : Chip :=
  let has := fun (x : Nat) => hkSlots c.work x true ≠ []
  if !(decide (has 0) || decide (has 1)) then c
  else
    let go := fun (c : Chip) (x : Nat) => if has x then (c.modConv x (fun v => { v with injGo := true })).takeInj x else c
    ((go (go ((c.s F.HK_STAT_INJ_BUSY 1).event 216 0) 0) 1)).hkTry c.ackEdge

/-- An urgent trigger (R430, R431, R433): it starts the injected sequence, waits for the one that runs, or is lost. Triggers
of one ACK cycle count as one. -/
def Chip.trigger (c : Chip) : Chip :=
  let now := some (c.tick / ackTicks)
  if !c.b F.HK_CTL_SEQ_EN ∨ c.hk.trigAt = now then c
  else
    let c := c.modHk (fun h => { h with trigAt := now })
    if c.b F.HK_STAT_INJ_BUSY ∨ c.b F.HK_TEST_BUSY then
      if c.b F.HK_STAT_INJ_PEND then (c.sat F.HK_INJ_OVERRUN_CNT).flag F.HK_STAT_OVERRUN 208 0 else c.s F.HK_STAT_INJ_PEND 1
    else c.injStart

/-- URGENT_TRIGGER by TRIG_EVT (R430): within 1 µs of the event. -/
def Chip.eventTrigger (c : Chip) : Chip :=
  if c.evt.trig then ({ c with evt := { c.evt with trig := false } }).trigger else c

/-- Once every injected slot has ended, a queued trigger starts them again, or interrupted converters return to the slot
they abandoned. -/
def Chip.injCheck (c : Chip) (t : Nat) : Chip :=
  let busy := fun (s : HkConv) => s.injGo || (s.inj && !s.injDone)
  if !c.b F.HK_STAT_INJ_BUSY ∨ busy c.hk.a ∨ busy c.hk.b then c
  else
    let c1 := (c.s F.HK_STAT_INJ_BUSY 0).event 217 0
    if c1.b F.HK_STAT_INJ_PEND ∧ !c1.b F.HK_TEST_BUSY then
      let again := fun (c : Chip) (x : Nat) => match hkSlots c.work x true with
        | [] => c
        | s :: _ => (c.modConv x (fun v => { v with ph := .ready, slot := s, injDone := false })).atSlot x
      (again (again (((c1.s F.HK_STAT_INJ_PEND 0).s F.HK_STAT_INJ_BUSY 1).event 216 0) 0) 1).hkTry t
    else
      let back := fun (c : Chip) (x : Nat) => if (c.conv x).inj then
          let idle := hkSlots c.work x false = []
          (c.modConv x (fun v => { v with ph := if idle then .idle else .ready, slot := v.resume, inj := false, injDone := false })).atSlot x
        else c
      (back (back c1 0) 1).hkTry t

/-! ## Results (R417, R422, R424, R425, R435) -/

/-- The binary32 nearest to a fraction, ties to even. -/
def f32 (num : Int) (den : Nat) : Nat :=
  let a := num.natAbs
  if a = 0 then 0
  else
    let k0 : Int := (a.log2 : Int) - den.log2
    let le := fun (k : Int) => if 0 ≤ k then den * 2 ^ k.toNat ≤ a else den ≤ a * 2 ^ (-k).toNat
    let k : Int := if le k0 then k0 else k0 - 1
    let sh : Int := 23 - k
    let n := if 0 ≤ sh then a * 2 ^ sh.toNat else a
    let d := if 0 ≤ sh then den else den * 2 ^ (-sh).toNat
    let q := n / d
    let r := n % d
    let m := if 2 * r < d then q else if d < 2 * r then q + 1 else q + q % 2
    let e := k + 127 + (if m = 2 ^ 24 then 1 else 0)
    let m1 := if m = 2 ^ 24 then 2 ^ 23 else m
    (if num < 0 then 2 ^ 31 else 0) + e.toNat * 2 ^ 23 + (m1 - 2 ^ 23)

def f32NaN : Nat := 0x7FC00000

/-- Full scale of an input in a configuration, as a fraction (R417). -/
def fullScale (k exc range : Nat) : Nat × Nat :=
  if isHkt k then
    match exc with
    | 1 => (400000, 1)
    | 2 => (40000, 1)
    | 3 => (4000, 1)
    | 4 => (400, 1)
    | _ => (1, 10)
  else if isHki k then
    match range with
    | 0 => (1, 10000000)
    | 1 => (1, 100000)
    | 2 => (1, 1000)
    | _ => (1, 100)
  else if isHkv k then (10, 1)
  else if k = 36 then (200, 1)
  else (5, 1)

/-- The cold junction of a thermocouple input: internal input 36, or HKT input n (R422). -/
def coldJunction (exc : Nat) : Nat := if 128 ≤ exc then exc % 16 else 36

/-- Codes that mean ±1.25 × FS (R417), and 80 % of the next lower range's full scale (R428). -/
def ovrCodes : Nat := 5242880
def lowCodes (r : Nat) : Nat := if r = 3 then 335544 else 33554

/-- A binary32 number's place in the order of its values; NaN and infinities lie outside that of every finite one. -/
def f32Place (v : Nat) : Int := if v < 2 ^ 31 then v else (2 ^ 31 : Int) - v

/-- The range of a curve in °C (R425). -/
def curveRange (curve : Nat) : Int × Int :=
  match curve with
  | 1 | 2 => (-200, 850)
  | 3 => (-270, 1372)
  | 4 => (-270, 400)
  | 5 => (-270, 1300)
  | 6 => (-270, 1000)
  | _ => (-40, 150)

/-- A value of a curve whose function the manual does not give: any in the curve's range (R425). -/
def inCurve (curve v : Nat) : Nat :=
  let lo := f32 (curveRange curve).1 1
  if f32Place lo ≤ f32Place v ∧ f32Place v ≤ f32Place (f32 (curveRange curve).2 1) then v else lo

/-- ln((1 + y) / (1 - y)) for y = num / den, in units of 2⁻⁶⁰, by its series: |y| is at most 1/3. -/
def lnSeries (num den : Int) : Int :=
  let y := num * 2 ^ 60 / den
  2 * ((List.range 33).foldl (fun (a : Int × Int) (i : Nat) => (a.1 + a.2 / (2 * i + 1), a.2 * y / 2 ^ 60 * y / 2 ^ 60)) (0, y)).1

/-- ln(n / d) in units of 2⁻⁶⁰. -/
def lnFix (n d : Nat) : Int :=
  let k : Int := (n.log2 : Int) - d.log2
  let n1 : Int := n * 2 ^ (-k).toNat
  let d1 : Int := d * 2 ^ k.toNat
  k * lnSeries 1 3 + lnSeries (n1 - d1) (n1 + d1)

/-- Curve 7 (R425): 1/T = A + B ln R + C (ln R)³ for a resistance n / d in Ω, as T in °C and the denominator of that fraction;
none outside −40 to 150 °C. -/
def ntcTemp (n d : Nat) : Option (Int × Nat) :=
  if n = 0 then none
  else
    let l := lnFix n d
    let s := 1129200000 * 2 ^ 60 + 234110000 * l + 87753 * (l * l * l / 2 ^ 120)
    let num := 10 ^ 14 * 2 ^ 60 - 27315 * s
    let den : Nat := (100 * s).toNat
    if s ≤ 0 ∨ num < -40 * (den : Int) ∨ 150 * (den : Int) < num then none else some (num, den)

/-- The linearised value, whether the curve's range is left, and whether the cold junction is stale. -/
def Chip.hkValue (c : Chip) (k : Nat) (code : Int) (exc range : Nat) : Nat × Bool × Bool × Chip :=
  let curve := c.g (inFld F.HK_INCFG_CURVE k)
  if curve = 8 then
    let (n, d) := fullScale k exc range
    (f32 (code * n) (d * 2 ^ 22), false, false, c)
  else if curve = 0 ∨ 8 < curve then
    let (v, c1) := c.free 32
    (v, false, false, c1)
  else if 3 ≤ curve ∧ curve ≤ 6 then
    match AMap.get (always none) c.hk.last (coldJunction exc) with
    | none => (f32NaN, false, false, c)
    | some r =>
      let stale : Bool := decide (r.at_ + 10 * sTicks < c.tick) || r.w2 == f32NaN
      match Config.hkCurve curve code exc r.w2 with
      | some v => (inCurve curve v, false, stale, c)
      | none => (f32NaN, true, stale, c)
  else if curve = 7 then
    let (n, d) := fullScale k exc range
    match ntcTemp (code.toNat * n) (d * 2 ^ 22) with
    | some (t, q) =>
      let e := clampInt (-(10 ^ 7 : Int)) (10 ^ 7) (Config.ntcError code exc)
      (f32 (t * 10 ^ 9 + e * q) (q * 10 ^ 9), false, false, c)
    | none => (f32NaN, true, false, c)
  else match Config.hkCurve curve code exc 0 with
    | some v => (inCurve curve v, false, false, c)
    | none => (f32NaN, true, false, c)

/-- The head of the result queue shows in HK_FIFO (R437). -/
def Chip.fifoShow (c : Chip) : Chip :=
  let h : HkRes := match c.hk.fifo with
    | e :: _ => e
    | [] => ⟨0, 0, 0, 0, 0, 0⟩
  let w := fun (n : Nat) => BitVec.ofNat 32 n
  ((((c.s F.HK_FIFO_STAT_LEVEL (min 256 c.hk.fifo.length)).setWord 0x46000024 (w h.w0)).setWord 0x46000028 (w h.w1)).setWord 0x4600002C (w h.w2)).setWord
    0x46000030 (w h.w3)

/-- A result goes to HK_LAST and to the result queue; whether it finds room there is settled at the end of the cycle
(R250, R435). -/
def Chip.hkPut (c : Chip) (k : Nat) (r : HkRes) : Chip :=
  let c1 := (c.modHk (fun h => { h with last := AMap.set (always none) h.last k (some r) })).setWord (0x46000200 + 16 * k) (BitVec.ofNat 32 (r.w0 + 2 ^ 30))
  (c1.modHk (fun h => { h with fifo := h.fifo ++ [r] })).fifoShow

/-- The end of a cycle at the result queue (R250, R435): what lies above the 256th entry is dropped, since no pop of the
same cycle has made room. -/
def Chip.hkSettle (c : Chip) : Chip :=
  match c.hk.fifo.drop 256 with
  | [] => c
  | e :: r =>
    let c1 := (c.modHk (fun h => { h with fifo := h.fifo.take 256 })).sat F.HK_FIFO_STAT_OVF_CNT (r.length + 1)
    (c1.latch F.HK_FIFO_STAT_OVF).flag F.HK_STAT_FIFO_OVF 209 (bitsOf e.w0 5 0)

/-- An HKI input with AUTO steps its range after a result (R428). -/
def Chip.autoRange (c : Chip) (k : Nat) (code : Int) (ovr : Bool) : Chip :=
  if !isHki k ∨ !c.b (inFld F.HK_INCFG_AUTO k) then c
  else
    let f := inFld F.HK_INCFG_RANGE_NOW k
    let r := c.g f
    let setLow := fun (c : Chip) (n : Nat) => c.modHk (fun h => { h with lows := AMap.set (always 0) h.lows k n })
    if ovr then setLow (if r < 3 then c.s f (r + 1) else c) 0
    else if r ≠ 0 ∧ code.natAbs < lowCodes r then
      let n := AMap.get (always 0) c.hk.lows k + 1
      if 4 ≤ n then setLow (c.s f (r - 1)) 0 else setLow c n
    else setLow c 0

/-- The code and value of an ended integration are formed and written (R417 to R425, R435): `raw` is what was counted. -/
def Chip.hkResult (c : Chip) (x till : Nat) (raw : Int) : Chip :=
  let s := c.conv x
  let k := c.convInput x
  let exc := if s.lead then c.convExc x else c.g (inFld F.HK_INCFG_EXCIT k)
  let code := clampInt (-(2 ^ 23 : Int)) (2 ^ 23 - 1) raw
  let sat0 : Bool := decide (code ≠ raw)
  let ovr : Bool := decide (ovrCodes < raw.natAbs)
  let burn : Bool := if c.resistive k then ovr else c.b (inFld F.HK_INCFG_BURN k) && (isHkt k || isHkv k) && sat0 && decide (0 < raw)
  let sat : Bool := sat0 && !burn
  let range := if isHki k then AMap.get (always 0) c.hk.ranges k else 0
  let net := if !s.lead ∧ c.twoWire k then code - s.loop else code
  let (v0, oor, stale, c1) := c.hkValue k net exc range
  let v := if sat0 ∨ burn then f32NaN else v0
  let seq := (AMap.get (always 0) c1.hk.seqs k + 1) % 256
  let t := c1.sub - 1600 * (c1.tick - till)
  let b := fun (p : Bool) (i : Nat) => at_ i i p.toNat
  let w0 := at_ 31 31 1 + b s.inj 29 + at_ 28 28 x + at_ 27 26 (c1.g F.MER_STAT_STATE) + b ovr 25 + b sat 24 + b burn 23 + b stale 22 +
    at_ 21 20 range + b oor 19 + at_ 15 8 seq + at_ 5 0 k
  let r : HkRes := ⟨w0, patternOf 32 code, v, at_ 31 20 (secOf t) + at_ 19 0 (nsOf t / 1000), till, c.tick⟩
  let c2 := ((c1.modHk (fun h => { h with seqs := AMap.set (always 0) h.seqs k seq })).hkPut k r).wrap F.HK_CNT_CONV_CNT
  let c3 := if ovr ∨ sat then c2.flag F.HK_STAT_OVR 212 k else c2
  let c4 := if burn then c3.flag F.HK_STAT_BURNOUT 211 k else c3
  let c5 := if stale then c4.flag F.HK_STAT_CJ_STALE 215 k else c4
  (c5.autoRange k code (ovr || sat0)).modConv x (fun y => if y.lead then { y with loop := code } else y)

/-- A converter goes on from a slot that has ended: the next injected slot, or the next regular one, the first after the
last (R429, R430). -/
def Chip.convNext (c : Chip) (x till : Nat) : Chip :=
  let s := c.conv x
  let l := hkSlots c.work x s.inj
  match l.filter (fun i => decide (s.slot < i)) with
  | i :: _ => (c.modConv x (fun y => { y with ph := .ready, slot := i })).atSlot x
  | [] =>
    if s.inj then c.modConv x (fun y => { y with ph := .ready, injDone := true })
    else match l with
      | [] => c.modConv x (fun y => { y with ph := .idle })
      | i :: _ => ((c.modConv x (fun y => { y with ph := .ready, slot := i })).modHk (fun h => { h with wrapAt := till })).atSlot x

/-- CONVERSION_END (R416, R421, R435): the code is ready 2 ACK cycles after the integration ends; the converter goes on
from the end of the integration. -/
def Chip.conversionEnd (c : Chip) (x : Nat) (raw : Int) : Chip :=
  match (c.conv x).ph with
  | .integ till =>
    if c.tick < till + 2 * ackTicks then c
    else
      let lead := (c.conv x).lead
      let c1 := c.hkResult x till raw
      let c2 := if lead then c1.modConv x (fun y => { y with ph := .ready, lead := false }) else c1.convNext x till
      ((c2.takeInj x).injCheck till).hkTry till
  | _ => c

/-! ## Configuration writes (R420, R427) -/

/-- CURVE, WIRING and EXCIT form an allowed combination, or the input is unused (R420). -/
def inCfgOk (k curve wiring exc : Nat) : Bool :=
  if curve = 0 then true
  else if isHkt k then
    ((curve = 1 ∨ curve = 2 ∨ curve = 7 ∨ curve = 8) ∧ 2 ≤ wiring ∧ wiring ≤ 4 ∧ 1 ≤ exc ∧ exc ≤ 4) ∨
    (3 ≤ curve ∧ curve ≤ 6 ∧ wiring = 2 ∧ (exc = 0 ∨ (128 ≤ exc ∧ exc < 144))) ∨ (curve = 8 ∧ wiring = 2 ∧ exc = 0)
  else if isHki k then curve = 8 ∧ wiring ≤ 3 ∧ exc = 0
  else curve = 8 ∧ wiring = 0 ∧ exc = 0

/-- A write to HK_INCFG takes effect; a converter at that input starts its allowance again (R427), and with it the other
one of a simultaneous pair (log entry 148). `w` is the whole word after the write. -/
def Chip.inCfgSet (c : Chip) (k : Nat) (w : Word) : Chip :=
  let old := c.word (0x46000100 + 4 * k)
  let ch := fun (f : Fld) => decide (f.of old ≠ f.of w)
  let wir := ch F.HK_INCFG_WIRING
  let ack := max (if ch F.HK_INCFG_EXCIT || ch F.HK_INCFG_BURN then excitAck else 0)
    (if wir then (if isHki k then rangeAck (F.HK_INCFG_WIRING.of w) else inputAck) else 0)
  let c1 := c.setWord (0x46000100 + 4 * k) w
  let c2 := if wir ∧ isHki k then c1.s (inFld F.HK_INCFG_RANGE_NOW k) (F.HK_INCFG_WIRING.of w) else c1
  let hit := fun (c : Chip) (x : Nat) =>
    let s := c.conv x
    let slotIn := hkSlotIn c.work s.slot
    let busy : Bool := match s.ph with
      | .settle _ => true
      | .integ till => decide (c.tick < till)
      | _ => false
    if busy ∧ ack ≠ 0 ∧ (slotIn = k ∨ (s.lead ∧ slotIn + 1 = k)) then
      let c1 := ((c.convAbandon x).modConv x (fun y => { y with owed := max y.owed ack })).atSlot x
      if c.g F.HK_CTL_MODE = 1 then c1.convAbandon (1 - x) else c1
    else c
  (hit (hit c2 0) 1).hkTry c2.ackEdge

/-- HK_INCFG_WRITE (R420): a combination not in the table is not performed, and is recorded. -/
def Chip.inCfgWrite (c : Chip) (k : Nat) (w : Word) : Chip :=
  if inCfgOk k (F.HK_INCFG_CURVE.of w) (F.HK_INCFG_WIRING.of w) (F.HK_INCFG_EXCIT.of w) then c.inCfgSet k w
  else (c.event 218 k).logCtx kRefusal 0x0100 (at_ 159 128 (0x46000100 + 4 * k))

/-- Every sequence starts at slot 0 (R429). -/
def Chip.seqRestart (c : Chip) : Chip :=
  let go := fun (c : Chip) (x : Nat) =>
    let c1 := c.convAbandon x
    match hkSlots c.work x false with
    | [] => c1.modConv x (fun y => { y with ph := .idle, inj := false, injGo := false, injDone := false })
    | i :: _ => (c1.modConv x (fun y => { y with ph := .ready, slot := i, resume := i, inj := false, injGo := false, injDone := false })).atSlot x
  ((go (go c 0) 1).s F.HK_STAT_INJ_BUSY 0).s F.HK_STAT_INJ_PEND 0

/-- SEQ_EN_WRITE (R429). -/
def Chip.seqEnWrite (c : Chip) (en : Bool) : Chip :=
  if en then ((c.s F.HK_CTL_SEQ_EN 1).seqRestart).hkTry c.ackEdge
  else
    let stop := fun (c : Chip) (x : Nat) => (c.convAbandon x).modConv x (fun y => { y with ph := .idle, inj := false, injGo := false, injDone := false })
    (((stop (stop c 0) 1).s F.HK_CTL_SEQ_EN 0).s F.HK_STAT_INJ_BUSY 0).s F.HK_STAT_INJ_PEND 0

/-! ## HK_BLANK (R432) -/

/-- HK_BLANK_ASSERT: acts only when the Chart's BLANK flag is set. -/
def Chip.blankAssert (c : Chip) : Chip :=
  if !c.b F.HK_CTL_BLANK_EN ∨ c.hk.blankAt.isSome then c
  else (((c.convAbandon 0).convAbandon 1).modHk (fun h => { h with blankAt := some c.tick, blankLong := false })).s F.HK_STAT_BLANKED 1

/-- HK_BLANK_RELEASE: each converter restarts its conversion with its allowance. -/
def Chip.blankRelease (c : Chip) : Chip :=
  if c.hk.blankAt.isNone then c
  else
    let owe := fun (c : Chip) (x : Nat) => if (c.conv x).ph = .ready then (c.modConv x (fun y => { y with owed := max y.owed inputAck })).atSlot x else c
    (owe (owe ((c.modHk (fun h => { h with blankAt := none })).s F.HK_STAT_BLANKED 0) 0) 1).hkTry c.ackEdge

/-- BLANK_LONG: HK_BLANK has been asserted for more than BLANK_MAX ms. -/
def Chip.blankLong (c : Chip) : Chip :=
  match c.hk.blankAt with
  | some t =>
    if !c.hk.blankLong ∧ t + max 1 (c.g F.HK_CTL_BLANK_MAX) * msTicks < c.tick then
      ((c.modHk (fun h => { h with blankLong := true })).flag F.HK_STAT_BLANK_LONG 210 0).logAct 0 0 1
    else c
  | none => c

/-! ## Self-test (R433) -/

/-- The self-test is asked for: it owns the converters once the conversions in progress have ended. -/
def Chip.hkTest (c : Chip) : Chip := if c.b F.HK_TEST_BUSY then c else (c.s F.HK_TEST_BUSY 1).s F.HK_TDAC_BUSY 1

/-- HK_TEST_GO by the TEST_INT timer: after the regular sequence next completes. -/
def Chip.hkTestTimer (c : Chip) : Chip :=
  let n := c.g F.HK_TEST_TEST_INT
  if n ≠ 0 ∧ c.hk.testAt + n * (3600 * sTicks) ≤ c.hk.wrapAt then c.hkTest else c

/-- Gain errors within ±0.05 %, in steps of 0.002 %. -/
def gainOk (g : Int) : Bool := g.natAbs ≤ 25

/-- HK_TEST_END: gain errors in 0.002 %, and whether offset and mid-code residual of each converter lie within their
limits. A failure during a run is recorded. -/
def Chip.hkTestEnd (c : Chip) (gainA gainB : Int) (okA okB : Bool) : Chip :=
  let busy : Nat → Bool := fun x => match (c.conv x).ph with
    | .integ _ => true
    | .settle _ => true
    | _ => false
  if !c.b F.HK_TEST_BUSY ∨ busy 0 ∨ (busy 1 ∧ !c.b F.HK_STAT_SLOPE_B) then c
  else
    let a := gainOk gainA && okA
    let b := gainOk gainB && okB
    let c1 := ((((c.s F.HK_TEST_BUSY 0).s F.HK_TDAC_BUSY 0).s F.HK_STAT_TDAC_OK_A a.toNat).s F.HK_STAT_TDAC_OK_B b.toNat)
    let c2 := (c1.s F.HK_TEST_GAIN_ERR_A (patternOf 8 gainA)).s F.HK_TEST_GAIN_ERR_B (patternOf 8 gainB)
    let fail : Chip → Nat → Chip := fun c x => if c.run then (c.flag F.HK_STAT_TEST_FAIL 214 x).logAct x 1 0 else c.flag F.HK_STAT_TEST_FAIL 214 x
    let c3 := if a then c2 else fail c2 0
    let c4 := if b then c3 else fail c3 1
    let c5 := match c4.hk.tdacNext with
      | some n => c4.s F.HK_TDAC_CODE n
      | none => c4
    let seen : HkConv → HkConv := fun v => { v with prevIn := some 39, prevExc := 0, prevBurn := false }
    let c6 : Chip := c5.modHk (fun h => { h with testAt := c.tick, tdacNext := none, a := seen h.a, b := if c5.b F.HK_STAT_SLOPE_B then h.b else seen h.b })
    if c6.b F.HK_STAT_INJ_PEND ∧ !c6.b F.HK_STAT_INJ_BUSY then ((c6.s F.HK_STAT_INJ_PEND 0).injStart).hkTry c.ackEdge else c6.hkTry c.ackEdge

/-- A write to HK_TDAC: CODE waits while the self-test runs. -/
def Chip.tdacWrite (c : Chip) (w : Word) : Chip :=
  if c.b F.HK_TDAC_BUSY then
    (c.s F.HK_TDAC_OUT_EN (F.HK_TDAC_OUT_EN.of w)).modHk (fun h => { h with tdacNext := some (F.HK_TDAC_CODE.of w) })
  else (c.s F.HK_TDAC_OUT_EN (F.HK_TDAC_OUT_EN.of w)).s F.HK_TDAC_CODE (F.HK_TDAC_CODE.of w)

/-! ## The bias-slope channel (R434) -/

/-- Ticks of a sub-interval of 1/20 mains cycle; the Chart's MAINS does not apply to the channel (R440). -/
def Chip.subTicks (c : Chip) : Nat := if c.hk.slope60 then 533333 else 640000

/-- SLOPE_SUBINTERVAL: the charge of the sub-interval enters the window, and the sum goes to the interlock. -/
def Chip.slopeSub (c : Chip) (q : Int) : Chip :=
  if !c.b F.HK_STAT_SLOPE_B ∨ c.pwr.brown.contains 9 ∨ c.tick < c.hk.subAt + c.subTicks then c
  else
    let l := (q :: c.hk.subs).take 20
    let sum := clampInt (-(2 ^ 23 : Int)) (2 ^ 23 - 1) (l.foldl (· + ·) 0)
    let full := l.length = 20
    let c1 := c.modHk (fun h => { h with subs := l, subAt := c.tick, slope := if full then some sum else h.slope })
    if full then (c1.s F.HK_SLOPE_VALID 1).s F.HK_SLOPE_WIN (patternOf 24 sum) else c1

/-! ## Reads (R435, R437) -/

/-- HK_FIFO_POP (R250, R435): the head entry is removed; one pushed in the same cycle is not yet the head. -/
def Chip.hkPop (c : Chip) : Chip :=
  (c.modHk (fun h => { h with fifo := match h.fifo with
    | e :: r => if e.when = c.tick then e :: r else r
    | [] => [] })).fifoShow

/-- HK_LAST_READ: a read of word 0 captures words 1 to 3 and clears NEW. -/
def Chip.hkLastRead (c : Chip) (k : Nat) : Word × Chip :=
  let a := 0x46000200 + 16 * k
  let w := c.word a
  match AMap.get (always none) c.hk.last k with
  | none => (w, c)
  | some r =>
    let n := fun (v : Nat) => BitVec.ofNat 32 v
    (w, (((c.setWord a (w &&& 0xBFFFFFFF#32)).setWord (a + 4) (n r.w1)).setWord (a + 8) (n r.w2)).setWord (a + 12) (n r.w3))

end Sys2Proof
end

