-- ==== Sys2Proof/Machine/Logbook.lean ====
section
/-!
DEFINITION. Machine/Logbook.lean: the Logbook's writer, its failure and its readers (R483 to R488), event records and
notifications (R474, R481).
-/
namespace Sys2Proof

def Chip.modLog (c : Chip) (f : LogState → LogState) : Chip := { c with log := f c.log }
def Chip.modEvt (c : Chip) (f : EvtState → EvtState) : Chip := { c with evt := f c.evt }
def Chip.modMgt (c : Chip) (f : Mgt → Mgt) : Chip := { c with mgt := f c.mgt }

/-- The 64 bytes of a record (R483). -/
def LogRec.bytes (r : LogRec) : List Byte :=
  let b := beBytes 4 r.seq ++ beBytes 4 r.optime ++ beBytes 4 r.pcyc ++ beBytes 16 r.stamp ++ beBytes 1 r.kind ++ beBytes 1 r.role ++
    beBytes 2 r.code ++ beBytes 8 r.keyfp ++ beBytes 20 r.data
  b ++ beBytes 4 (crc32c b)

/-- Records of the permanent and of the circular area (R485). -/
def permMax : Nat := 4096
def circMax : Nat := 16384

/-- The place of records in an area of the Logbook no entry of which is listed. -/
def noRec : LogRec := ⟨0, 0, 0, 0, 0, 0, 0, 0, 0⟩

/-- Room in the write queue: waiting writers put their records, in order; GO of the cores' record clears once it is
queued (R485, R488). -/
def Chip.letIn : Nat → Chip → Chip
  | 0, c => c
  | n + 1, c =>
    match c.log.waiting with
    | [] => c
    | w :: r =>
      if c.log.queue.length < logQueueMax then
        let go := c.log.wrWait
        let c1 := c.modLog (fun l => { l with queue := l.queue ++ [c.sealRec w], nextSeq := l.nextSeq + 1, waiting := r, wrWait := go - 1 })
        Chip.letIn n (if go = 1 then c1.s F.LOG_WR_CTL_GO 0 else c1)
      else c

/-- A record has been placed: it is due for export, and records that wait are admitted. LOGBOOK_EXPORT frames carry whole
records to LOG_DEST, and wait while the cores fail over (R340, R408, R486). -/
def Chip.exportRec (c : Chip) (r : LogRec) : Chip :=
  let dest := chartF c.work secEgress 25 1
  if c.work = [] ∨ egNDest c.work ≤ dest then c
  else
    let l := c.log.exports ++ [r]
    if !c.int.coresUp then c.modLog (fun s => { s with exports := l })
    else
      let n := max 1 (c.maxPayload dest / 64)
      let o : EObj := ⟨.log, 0, 0, c.egr.logSerial, dest, 0, 0, c.g F.MER_STAT_STATE, 0, false, false, false, false, 0, 0, none, 0, 0, 0, [], 0, 0, 0, 0,
        (l.take n).flatMap LogRec.bytes, 0⟩
      ((c.modLog (fun s => { s with exports := l.drop n })).modEgr (fun g => { g with logSerial := (g.logSerial + 1) % 2 ^ 32 })).putObj o

/-- Put a record into the SRAM ring of 64: the oldest is overwritten (R486). -/
def Chip.ringPut (c : Chip) (r : LogRec) : Chip :=
  if 64 ≤ c.log.ring.length then
    ((c.modLog (fun l => { l with ring := l.ring.drop 1 ++ [r] })).flag F.LOG_STAT_SRAM_OVW 252 0)
  else c.modLog (fun l => { l with ring := l.ring ++ [r] })

/-- Move the write queue into the ring, in SEQ order. -/
def Chip.queueToRing (c : Chip) : Chip :=
  let q := c.log.queue
  q.foldl (fun c r => (c.ringPut r).exportRec r) (c.modLog (fun l => { l with queue := [] }))

/-- The Logbook's memory has failed (R486): 1 write verify, 2 no response, 3 read at power-up. The failure record goes to
the first free reserved slot, if the attempt succeeds, and to the ring. -/
def Chip.logFail (c : Chip) (cause : Nat) (written : Bool) : Chip :=
  if c.b F.LOG_STAT_NVM_FAIL then c
  else
    let copy : NvmCopy := ⟨c.nvm.keys, c.nvm.rootCount, c.int.mems, c.log.optime, c.log.pcyc⟩
    let c1 := ({ c with nvm := { c.nvm with atFail := some copy } }.s F.LOG_STAT_NVM_FAIL 1).queueToRing
    let first := match c1.log.ring with
      | r :: _ => r.seq
      | [] => c1.log.nextSeq
    let r := c1.sealRec ⟨kMemFail, 0, cause, 0, at_ 159 128 first⟩
    let c2 := c1.modLog (fun l => { l with nextSeq := l.nextSeq + 1 })
    let c3 := if written ∧ c2.log.nextReserved < 16 then
        c2.modLog (fun l => { l with reserved := AMap.set (always noRec) l.reserved l.nextReserved r, nextReserved := l.nextReserved + 1 })
      else c2
    ((c3.ringPut r).exportRec r).event 251 0

/-- NVM_FAILURE (R486, R494): the die does not answer for 10 ms. -/
def Chip.nvmFailure (c : Chip) (written : Bool) : Chip := c.logFail 2 written

/-- The next location of the Logbook. -/
def Chip.logAdvance (c : Chip) : Chip :=
  let n := c.log.nextLoc + 1
  let c1 := c.modLog (fun l => { l with nextLoc := n, tries := 0 })
  if n = permMax then (c1.s F.LOG_STAT_PERM_FULL 1).event 253 0 else c1

/-- LOGBOOK_COMMIT (R485, R486): the writer writes the record at the head of the queue and reads it back. A record that
fails is written again at its location; a location that fails twice is skipped; four in a row are a failure. While the
memory has failed, records go to the ring. -/
def Chip.logCommit (c : Chip) (ok : Bool) : Chip :=
  match c.log.queue with
  | [] => Chip.letIn logQueueMax c
  | r :: q =>
    if c.b F.LOG_STAT_NVM_FAIL then
      Chip.letIn 1 (((c.modLog (fun l => { l with queue := q })).ringPut r).exportRec r)
    else if ok then
      let loc := c.log.nextLoc
      let put := fun (l : LogState) =>
        if loc < permMax then { l with perm := AMap.set (always noRec) l.perm loc r, queue := q, failedLocs := 0 }
        else { l with circ := AMap.set (always noRec) l.circ ((loc - permMax) % circMax) r, queue := q, failedLocs := 0 }
      Chip.letIn 1 (((c.modLog put).logAdvance).exportRec r)
    else if c.log.tries = 0 then c.modLog (fun l => { l with tries := 1 })
    else if c.log.failedLocs < 3 then (c.modLog (fun l => { l with failedLocs := l.failedLocs + 1 })).logAdvance
    else Chip.letIn logQueueMax (c.logFail 1 true)

/-- The record of a SEQ, with WHERE it is held (R487, R488). -/
def Chip.logFind (c : Chip) (seq : Nat) : Option (LogRec × Nat) :=
  let hit := fun (l : AMap LogRec) => (l.find? (fun e => e.2.seq == seq)).map (·.2)
  match hit c.log.perm with
  | some r => some (r, 1)
  | none => match hit c.log.reserved with
    | some r => some (r, 1)
    | none => match hit c.log.circ with
      | some r => some (r, 2)
      | none => (c.log.ring.find? (fun r => r.seq == seq)).map (fun r => (r, 3))

/-- What LOG_READ and LOG_RD answer from: while the memory has failed, the reserved slots and the ring (R486). -/
def Chip.logGet (c : Chip) (seq : Nat) : Option (LogRec × Nat) :=
  if c.b F.LOG_STAT_NVM_FAIL then
    match (c.log.reserved.find? (fun e => e.2.seq == seq)).map (·.2) with
    | some r => some (r, 1)
    | none => (c.log.ring.find? (fun r => r.seq == seq)).map (fun r => (r, 3))
  else c.logFind seq

/-- LOG_RD_GO (R488). -/
def Chip.logRdGo (c : Chip) : Chip :=
  let (bytes, wh) := match c.logGet (c.g F.LOG_RD_SEQ_RD_SEQ) with
    | some (r, w) => (r.bytes, w)
    | none => (List.replicate 64 0, 0)
  let c1 := (List.range 16).foldl (fun c i => c.setWord (0x48000020 + 4 * i) (BitVec.ofNat 32 (beField bytes (4 * i) 4))) c
  ((c1.s F.LOG_RD_GO 0).s F.LOG_RD_DONE 1).s F.LOG_RD_WHERE wh

/-- LOG_WR_GO (R483, R485, R488): a core record, of the role in context; GO stays 1 while it waits for space. -/
def Chip.logWrGo (c : Chip) : Chip :=
  let k := c.g F.LOG_WR_HDR_KIND
  let kind := if k = kEvent ∨ k = kBoot ∨ k = kMemFail then kCore else k
  let data := (List.range 5).foldl (fun n j => n * 2 ^ 32 + (c.word (0x48000064 + 4 * j)).toNat) 0
  let c1 := c.logCtx kind (c.g F.LOG_WR_HDR_CODE) data
  (c1.modLog (fun l => { l with wrWait := l.waiting.length })).s F.LOG_WR_CTL_GO (if c1.log.waiting = [] then 0 else 1)

/-- OPTIME advances every 14.0625 s (R484). -/
def optimeTicks : Nat := 9000000000

/-- OPTIME_TICK (R484): also while the manager is held in reset. -/
def Chip.optimeTick (c : Chip) : Chip :=
  if c.pwr.brown.contains 0 ∨ c.tick < c.log.opFrom + optimeTicks then c else c.modLog (fun l => { l with optime := (l.optime + 1) % 2 ^ 32, opFrom := l.opFrom + optimeTicks })

/-! ## Event records and notifications (R474, R481) -/

/-- EVENT_RECORD_WRITE (R481): at most one record of an event in any second. The 12 bytes of event state are not stated. -/
def Chip.eventRecord (c : Chip) (e : Nat) : Chip :=
  let n := AMap.get (always 0) c.evt.since e
  let last := AMap.get (always 0) c.evt.recAt e
  if n = 0 ∨ (last ≠ 0 ∧ c.tick + 1 < last + sTicks) then c
  else
    let (x, c1) := c.free 96
    (c1.modEvt (fun v => { v with since := AMap.set (always 0) v.since e 0, recAt := AMap.set (always 0) v.recAt e (c.tick + 1) })).logDev kEvent e
      (at_ 159 128 (c.g (evtFld F.EVT_DETAIL_DETAIL e)) + at_ 127 96 n + at_ 95 0 x)

/-- The bytes of a Helm reply (R472). -/
def helmReply (op status code reqId : Nat) (body : List Byte) : List Byte :=
  beBytes 2 0x484C ++ beBytes 1 1 ++ beBytes 1 op ++ beBytes 1 status ++ beBytes 1 code ++ beBytes 2 body.length ++ beBytes 4 reqId ++
    beBytes 8 Config.serial ++ body

def Chip.sendDgram (c : Chip) (ip port : Nat) (b : List Byte) : Chip := c.modMgt (fun m => { m with out := m.out ++ [⟨ip, port, b⟩] })

/-- NOTIFICATION_SEND (R474): an event to a subscriber, at most 10 of one event in a second. -/
def Chip.notify (c : Chip) (num e : Nat) : Chip :=
  match c.evt.subs.find? (fun s => s.num == num && decide (c.tick < s.lapse)) with
  | none => c
  | some s =>
    let n := AMap.get (always 0) s.due e
    let recent := (AMap.get (always []) s.sent e).filter (fun t => decide (c.tick < t + sTicks))
    if n = 0 ∨ 10 ≤ recent.length ∨ !c.int.coresUp then c
    else
      let body := beBytes 1 e ++ beBytes 1 0 ++ beBytes 2 (min 65535 n) ++ beBytes 4 (c.g (evtFld F.EVT_DETAIL_DETAIL e)) ++ beBytes 16 c.stamp
      let s1 := { s with seq := (s.seq + 1) % 2 ^ 32, sent := AMap.set (always []) s.sent e (c.tick :: recent), due := AMap.set (always 0) s.due e 0 }
      (c.modEvt (fun v => { v with subs := v.subs.map (fun x => if x.num = num then s1 else x) })).sendDgram s.ip s.port (helmReply 0xF0 0 0 s.seq body)

/-- SUBSCRIPTION_LAPSE (R474): 600 s after it was last renewed. -/
def Chip.subLapse (c : Chip) (num : Nat) : Chip :=
  c.modEvt (fun v => { v with subs := v.subs.filter (fun s => !(s.num == num && decide (s.lapse ≤ c.tick))) })

end Sys2Proof
end

