-- ==== Sys2Proof/Machine/ChartVerify.lean ====
section
/-!
DEFINITION. Machine/ChartVerify.lean: the keys that may sign (R369, R459, R460), the trailer of signed images (R354,
R368), and the verification of a Chart (R351 to R373).
-/
namespace Sys2Proof

/-! ## Keys -/

/-- The public key of the maker root slot in force; none once all four slots are revoked (R462). -/
def Chip.makerPub (c : Chip) : Option (List Byte) := if c.nvm.rootIx < 4 then some (beBytes 57 (Config.makerKey c.nvm.rootIx)) else none

/-- NOT_AFTER is checked only while SEC_SET is 1; 0 is no limit (R460). -/
def Chip.keyLive (c : Chip) (k : KeyEnt) : Bool := !(c.b F.MER_STAT_SEC_SET && k.notAfter != 0 && decide (k.notAfter < secOf c.sub))

/-- The role and the public key a fingerprint names (R369, R468): an enrolled key, or the maker root key with role 3. -/
def Chip.keyOf (c : Chip) (fp : Nat) : Option (Nat × List Byte) :=
  match c.nvm.keys.find? (fun k => k.fp == fp && c.keyLive k) with
  | some k => some (k.role, k.pub)
  | none => match c.makerPub with
    | some p => if fingerprint p = fp then some (3, p) else none
    | none => none

/-- KEYFP, DIGEST and SIG of an image's trailer (R354). -/
def trailFp (g : Image) : Nat := beField g (g.length - 186) 8
def trailDigest (g : Image) : List Byte := sliceBytes g (g.length - 178) 64
def trailSig (g : Image) : List Byte := sliceBytes g (g.length - 114) 114

/-- The signature checks of a signed image (R368, R373, R465, R476): a key of an allowed role, DIGEST, SIG. -/
def Chip.sealFault (c : Chip) (g : Image) (ctx : String) (allowed : Nat → Bool) : Option Nat :=
  match c.keyOf (trailFp g) with
  | none => some 0x80
  | some (role, pub) =>
    if !allowed role then some 0x80
    else if digest64 (g.take (g.length - 178)) ≠ trailDigest g then some 0x81
    else if !edVerify pub (ascii ctx) (trailDigest g) (trailSig g) then some 0x82
    else none

/-- An installer key or the maker key (R369, R475). -/
def installerOrMaker (role : Nat) : Bool := role == 2 || role == 3

/-! ## Layout (R351, R353) -/

/-- A reason code and its DETAIL (R378). -/
abbrev Reason := Nat × Nat

/-- The directory (R353): eleven entries, TYPE ascending from 1, SVER 1, OFFSET ascending. Entries count from 0. -/
def dirFault (g : Image) : Option Reason :=
  if beField g 10 2 ≠ 11 then some (0x16, 0)
  else (List.range 11).findSome? (fun i =>
    let o := 64 + 16 * i
    if beField g o 2 ≠ i + 1 then some (0x16, i)
    else if beField g (o + 2) 2 ≠ 1 then some (0x12, i + 1)
    else if i ≠ 0 ∧ beField g (o + 4) 4 ≤ beField g (o - 12) 4 then some (0x16, i)
    else none)

/-- Each section lies behind the directory or the section before it, in front of the trailer, at a multiple of 8. -/
def layoutFault (g : Image) : Option Reason :=
  let tr := g.length - 186
  match (List.range 11).findSome? (fun i =>
    let t := i + 1
    let lo := if i = 0 then 240 else secOff g i + secLen g i
    if secOff g t % 8 ≠ 0 ∨ secOff g t < lo ∨ tr < secOff g t + secLen g t then some (0x17, t) else none) with
  | some x => some x
  | none => if tr % 8 ≠ 0 then some (0x17, 11) else none

def crcFault (g : Image) : Option Reason :=
  ((List.range 11).find? (fun i => crc32c (sliceBytes g (secOff g (i + 1)) (secLen g (i + 1))) != beField g (64 + 16 * i + 12) 4)).map (fun i => (0x18, i + 1))

/-- The length a section's counts give it (R353). -/
def lengthByCounts (g : Image) : Nat → Nat
  | 1 => 268
  | 2 => 72 + 16 * wkCount g
  | 3 => 8 + 16 * roseNGroups g + 36 * roseNEng g
  | 4 => 8 + 8 * mrNMem g + 4 * mrNSet g + 88 * mrNRule g
  | 5 => 112 + 12 * quNOvr g
  | 6 => 92
  | 7 => 4 + 12 * watchN g
  | 8 => 128 + 52 * egNDest g + 4 * egNMon g
  | 9 => 36 + 4 * timeNSkew g + 4 * timeNPSkew g
  | 10 => 168 + 4 * (chartF g secHk 2 1 + chartF g secHk 3 1)
  | _ => 176

def countFault (g : Image) : Option Reason :=
  ((List.range 11).find? (fun i => secLen g (i + 1) != lengthByCounts g (i + 1))).map (fun i => (0x19, i + 1))

/-! ## Reserved fields and padding (R351, R373 step 10) -/

/-- Bytes that must be 0 under a mask: offset, number of bytes, mask of each byte. -/
abbrev ZeroRun := Nat × Nat × Nat

/-- The same run repeated for `n` records. -/
def eachRec (n : Nat) (f : Nat → List ZeroRun) : List ZeroRun := (List.range n).flatMap f

/-- The reserved fields of a section, by offset in the section, ascending. -/
def reservedOf (g : Image) : Nat → List ZeroRun
  | 1 => [(3, 1, 255), (11, 1, 255)] ++ eachRec 64 (fun n => [(12 + 4 * n, 1, 0xF8), (15 + 4 * n, 1, 0x80)])
  | 2 => (66, 6, 255) :: eachRec (wkCount g) (fun i => [(77 + 16 * i, 1, 0x0F), (80 + 16 * i, 8, 255)])
  | 3 => [(0, 1, 0x7F), (3, 1, 255), (6, 2, 255)] ++
      eachRec (roseNGroups g) (fun i => [(roseGrp i + 1, 1, 0x70), (roseGrp i + 3, 1, 255), (roseGrp i + 12, 4, 255)])
  | 4 => eachRec (mrNMem g) (fun i => [(8 + 8 * i + 6, 2, 255)]) ++
      eachRec (mrNSet g) (fun i => [(mrSetOff g + 4 * i + 1, 1, 255), (mrSetOff g + 4 * i + 2, 1, 0xF0)]) ++
      eachRec (mrNRule g) (fun i => [(mrRuleOff g + 88 * i + 20, 4, 255)])
  | 5 => [(0, 1, 0x3F), (12, 4, 255)] ++ eachRec 8 (fun k => [(16 + 12 * k + 10, 2, 255)])
  | 6 => (10, 2, 255) :: eachRec 4 (fun i => [(12 + 20 * i, 1, 0x1F), (13 + 20 * i, 1, 255), (18 + 20 * i, 2, 255)])
  | 7 => (1, 3, 255) :: eachRec (watchN g) (fun i => [(5 + 12 * i, 3, 255)])
  | 8 => [(13, 3, 255), (42, 2, 255)]
  | 9 => [(2, 1, 0x07), (7, 1, 255), (34, 2, 255)] ++ eachRec (timeNPSkew g) (fun j => [(37 + 4 * timeNSkew g + 4 * j, 1, 255)])
  | 10 => [(4, 1, 0x3F), (5, 3, 255)] ++ eachRec 40 (fun k => [(11 + 4 * k, 1, 0x7F)]) ++
      eachRec (chartF g secHk 2 1 + chartF g secHk 3 1) (fun s => [(171 + 4 * s, 1, 255)])
  | _ => [(1, 3, 255), (18, 2, 255), (31, 1, 255), (35, 1, 255), (44, 4, 255)]

/-- Every run of the image that must be 0: the header's reserved byte, each section with the padding in front of it, and
the padding in front of the trailer. -/
def zeroRuns (g : Image) : List ZeroRun :=
  (9, 1, 255) :: ((List.range 11).flatMap (fun i =>
    let t := i + 1
    let lo := if i = 0 then 240 else secOff g i + secLen g i
    (lo, secOff g t - lo, 255) :: (reservedOf g t).map (fun z => (secOff g t + z.1, z.2))) ++
    [(secOff g 11 + secLen g 11, g.length - 186 - (secOff g 11 + secLen g 11), 255)])

/-- The first byte of a list of runs that is not 0 under its mask. -/
def dirtyByte (g : Image) (l : List ZeroRun) : Option Nat :=
  l.findSome? (fun z => ((List.range z.2.1).find? (fun j => Nat.land (beField g (z.1 + j) 1) z.2.2 != 0)).map (z.1 + ·))

def zeroFault (g : Image) : Option Reason := (dirtyByte g (zeroRuns g)).map (fun o => (0x1A, o % 65536))

/-! ## Encodings (R355 to R366, R373 step 11) -/

/-- A field that lies outside its encoding: its offset in the section and whether it is within. -/
abbrev FieldCheck := Nat × Bool

/-- A field of `n` bytes at `o` lies within `[lo, hi]`. -/
def within (g : Image) (t o n lo hi : Nat) : FieldCheck := (o, decide (lo ≤ chartF g t o n ∧ chartF g t o n ≤ hi))

/-- The eight nibbles of a field at `o` are at most `hi`, or 15. -/
def nibbles (g : Image) (t o hi : Nat) : FieldCheck :=
  (o, (List.range 8).all (fun l => let x := chartF g t o 4 / 16 ^ l % 16; x ≤ hi || x == 15))

/-- An input word of an engine of a level (R358). -/
def inputForm (level w : Nat) : Bool := w == 0xFFFF || (if level = 0 then decide (w < 2048) else decide (32768 ≤ w ∧ w < 33024))

/-- The fields of a section whose encodings do not take every value, ascending. Bits to which a field's layout gives no
meaning are outside its encoding; those of term and destination words are not looked at. -/
def encodingsOf (g : Image) : Nat → List FieldCheck
  | 1 => [within g 1 2 1 0 15, within g 1 6 2 0 4095, within g 1 8 2 0 4095] ++
      (List.range 64).flatMap (fun n => [within g 1 (12 + 4 * n) 1 0 4, within g 1 (13 + 4 * n) 1 0 31, within g 1 (14 + 4 * n) 1 0 31])
  | 2 => within g 2 64 2 0 1024 :: (List.range (wkCount g)).map (fun i => within g 2 (72 + 16 * i) 2 0 1023)
  | 3 => [within g 3 1 1 0 32, within g 3 2 1 0 224] ++
      (List.range (roseNGroups g)).flatMap (fun i =>
        let o := roseGrp i
        [within g 3 o 1 0 31, (o + 1, let k := chartF g 3 (o + 1) 1 % 16; 8 ≤ k && k ≤ 14), within g 3 (o + 2) 1 0 223, within g 3 (o + 10) 2 1 1024]) ++
      (List.range (roseNEng g)).flatMap (fun i =>
        let o := roseEng g i
        let lv := chartF g 3 (o + 2) 1
        [within g 3 o 1 0 223, within g 3 (o + 1) 1 0 31, within g 3 (o + 2) 1 0 2, (o + 3, let p := chartF g 3 (o + 3) 1; p ≤ 223 || p == 255)] ++
          (List.range 16).map (fun j => (o + 4 + 2 * j, inputForm lv (chartF g 3 (o + 4 + 2 * j) 2))))
  | 4 => [within g 4 0 4 0 65536, within g 4 4 2 0 255, within g 4 6 2 0 256] ++
      (List.range (mrNSet g)).map (fun i => within g 4 (mrSetOff g + 4 * i) 1 0 254) ++
      (List.range (mrNRule g)).flatMap (fun i =>
        let o := mrRuleOff g + 88 * i
        [within g 4 (o + 1) 1 0 15, within g 4 (o + 2) 1 0 15, (o + 3, chartF g 4 (o + 3) 1 % 64 == 0), within g 4 (o + 8) 4 0 100000, within g 4 (o + 12) 4 0 100000])
  | 5 => [within g 5 4 1 0 15, within g 5 6 2 0 8191, within g 5 8 2 0 8191, within g 5 10 2 0 8192] ++
      (List.range (quNOvr g)).map (fun i => within g 5 (112 + 12 * i) 2 0 8191)
  | 6 => within g 6 8 2 1 1440 :: (List.range 4).flatMap (fun i =>
      [within g 6 (14 + 20 * i) 2 0 4095, within g 6 (20 + 20 * i) 4 0 100000, within g 6 (24 + 20 * i) 4 0 100000])
  | 7 => within g 7 0 1 0 32 :: (List.range (watchN g)).map (fun i => within g 7 (4 + 12 * i) 1 0 31)
  | 8 => [within g 8 0 2 0 511, (2, let p := chartF g 8 2 1; p ≤ 8 || p == 255), within g 8 3 1 0 64] ++
      (List.range 9).map (fun p => within g 8 (4 + p) 1 0 2) ++ [within g 8 26 2 0 1024, nibbles g 8 28 8, nibbles g 8 32 7] ++
      (List.range (egNMon g)).map (fun j => (128 + 52 * egNDest g + 4 * j, monReg g j % 4 == 0))
  | 9 => [within g 9 0 1 0 3, within g 9 1 1 1 4, within g 9 5 1 0 15, within g 9 8 2 0 2047, within g 9 10 2 0 8191,
      (16, let r := chartS g 9 16 4; decide (-(2 ^ 19) ≤ r ∧ r < 2 ^ 19)), within g 9 20 4 0 (2 ^ 30 - 1), within g 9 28 2 0 4095, within g 9 32 2 0 32] ++
      (List.range (timeNPSkew g)).map (fun j => within g 9 (36 + 4 * timeNSkew g + 4 * j) 1 0 31)
  | 10 => [within g 10 0 1 0 2, within g 10 1 1 0 1] ++ (List.range 40).map (fun k => within g 10 (8 + 4 * k) 1 0 8) ++
      (List.range (chartF g secHk 2 1 + chartF g secHk 3 1)).flatMap (fun s => [within g 10 (169 + 4 * s) 1 1 255, within g 10 (170 + 4 * s) 1 0 2])
  | _ => [within g 11 12 1 1 8, within g 11 13 1 0 63, within g 11 14 2 1 65535, within g 11 24 1 0 3, within g 11 25 1 0 7, within g 11 26 1 0 31,
      within g 11 34 1 0 64]

def encodingFault (g : Image) : Option Reason :=
  (List.range 11).findSome? (fun i => ((encodingsOf g (i + 1)).find? (fun x => !x.2)).map (fun x => (0x1B, (secOff g (i + 1) + x.1) % 65536)))

/-! ## Verification (R373) -/

/-- Steps 1 and 2: the header. `len` is the length of the image. -/
def Chip.headerFault (c : Chip) (g : Image) (len : Nat) : Option Reason :=
  if len < 426 ∨ 4194304 < len ∨ beField g 12 4 ≠ len then some (0x15, 0)
  else if beField g 0 4 ≠ 0x41434854 then some (0x11, 0)
  else if beField g 4 2 ≠ 1 then some (0x12, 0)
  else if beField g 6 2 ≠ 0x0A31 ∨ c.g F.GBL_ID_REV < beField g 8 1 then some (0x13, 0)
  else if beField g 16 8 ≠ 2 ^ 64 - 1 ∧ beField g 16 8 ≠ Config.serial then some (0x14, 0)
  else none

/-- The verification of a Chart: the first check that fails. -/
def Chip.verifyChart (c : Chip) (g : Image) (len : Nat) : Option Reason :=
  (c.headerFault g len).or <| ((c.sealFault g "AEDURN CHART" installerOrMaker).map (fun r => (r, 0))).or <| (dirFault g).or <|
    (layoutFault g).or <| (crcFault g).or <| (countFault g).or <| (zeroFault g).or (encodingFault g)

end Sys2Proof
end

