-- ==== Sys2Proof/Machine/ChartRun.lean ====
section
/-!
DEFINITION. Machine/ChartRun.lean: the Chart slot operations and activation (R370 to R376).
-/
namespace Sys2Proof

def Chip.modNvm (c : Chip) (f : Nvm → Nvm) : Chip := { c with nvm := f c.nvm }
def Chip.modPwr (c : Chip) (f : Pwr → Pwr) : Chip := { c with pwr := f c.pwr }

/-! ## Slots (R370, R379) -/

def Chip.chart (c : Chip) (k : Nat) : ChartSlot := AMap.get (always ChartSlot.init) c.nvm.charts k
def Chip.setChart (c : Chip) (k : Nat) (x : ChartSlot) : Chip := c.modNvm (fun n => { n with charts := AMap.set (always ChartSlot.init) n.charts k x })
def Chip.modChart (c : Chip) (k : Nat) (f : ChartSlot → ChartSlot) : Chip := c.setChart k (f (c.chart k))

/-- The states of a slot (R379). -/
def slotEmpty : Nat := 0
def slotValid : Nat := 1
def slotBad : Nat := 2

/-- The working copy came from a slot. -/
def Chip.isActive (c : Chip) (k : Nat) : Bool := c.b F.GBL_STAT_CHART_OK && c.g F.GBL_STAT_ACT_SLOT == k

/-- GBL_SLOT of a slot, both words (R379): PRIMARY and FALLBACK are marks of VALID slots. -/
def Chip.slotWord (c : Chip) (k w : Nat) : Nat :=
  let x := c.chart k
  let mark := fun (o : Option Nat) => x.state == slotValid && o == some k
  if w = 0 then
    at_ 31 30 x.state + at_ 29 29 (mark c.nvm.primary).toNat + at_ 28 28 (mark c.nvm.fallback).toNat + at_ 27 27 (c.isActive k).toNat +
      at_ 23 16 x.lreason + at_ 15 0 (beField x.image 30 2)
  else beField x.image 24 4

/-- A slot is set BAD (R372, R375, R376). -/
def Chip.slotFail (c : Chip) (k code : Nat) : Chip := (c.modChart k (fun x => { x with state := slotBad, lreason := code })).event 21 0

/-! ## Activation (R374) -/

/-- Copy a section field into a register field. -/
def Chip.copyF (c : Chip) (f : Fld) (t o n : Nat) : Chip := c.s f (chartF c.work t o n)

/-- TOPOLOGY (R355): the timing of every worker port, and the pairs. -/
def Chip.applyTopology (c : Chip) : Chip :=
  let c1 := (List.range 128).foldl (fun c p => (c.copyF (portFld F.PRT_CMD_TIM_RETRY p) 1 2 1).copyF (portFld F.PRT_CMD_TIM_REPLY_TO p) 1 4 2) c
  (List.range 64).foldl (fun c n =>
    let c := ((c.copyF (pairFld F.PRT_LOOP_TIM_DRAIN_TO n) 1 6 2).copyF (pairFld F.PRT_LOOP_TIM_LIVE_TO n) 1 8 2).copyF (pairFld F.PRT_LOOP_TIM_REBAL_INT n) 1 10 1
    let g := c.work
    ((((c.s (pairFld F.PRT_LOOP_CFG_CFG n) (topCfg g n)).s (pairFld F.PRT_LOOP_CFG_N_EVEN n) (topNEven g n)).s
      (pairFld F.PRT_LOOP_CFG_N_ODD n) (topNOdd g n)).s (pairFld F.PRT_LOOP_CFG_POLICY n) (topPolicy g n)).s (pairFld F.PRT_LOOP_CFG_HOME n) (topHome g n)) c1

/-- WORKERS (R356): alignment offsets. -/
def Chip.applyWorkers (c : Chip) : Chip :=
  (List.range 1024).foldl (fun c s => c.modSlot s (fun x => { x with wofs := ((wkEntry c.work s).map (wkWofs c.work)).getD 0 })) c

/-- The engine an engine record describes (R358). -/
def engRecord (g : Image) (i : Nat) : Nat × Eng :=
  let o := roseEng g i
  let f := fun (k n : Nat) => chartF g secRose (o + k) n
  (f 0 1, { Eng.init with used := true, group := f 1 1, level := f 2 1, parent := f 3 1, inputs := (List.range 16).map (fun j => f (4 + 2 * j) 2) })

/-- The group a group record describes (R358). -/
def grpRecord (g : Image) (i : Nat) : Nat × Group :=
  let f := fun (k n : Nat) => chartF g secRose (roseGrp i + k) n
  (f 0 1, { Group.init with valid := true, marked := bitOf (f 1 1) 7, orderLog := f 1 1 % 16, root := f 2 1, settle := f 4 2, absentTo := f 6 2,
                            quietLag := f 8 2, streams := f 10 2 })

/-- ROSE and MARKRULES (R358, R359): trees, groups, and the rules' EN bits; every count starts again. -/
def Chip.applyRose (c : Chip) : Chip :=
  let g := c.work
  let c1 := (c.s F.RSE_CTL_REBAL_EN (bitOf (chartF g secRose 0 1) 7).toNat).copyF F.RSE_CTL_MIG_TO secRose 4 2
  let c2 := ((c1.s F.RSE_STAT_ENG_USED (roseNEng g)).s F.RSE_STAT_MIG_BUSY 0).modRose (fun r => { Rose.init with mout0 := r.mout0, mout1 := r.mout1, mout2 := r.mout2, mout3 := r.mout3 })
  let c3 := (List.range (roseNEng g)).foldl (fun c i => let x := engRecord g i; c.setEng x.1 x.2) c2
  let c4 := (List.range (roseNGroups g)).foldl (fun c i => let x := grpRecord g i; c.setGrp x.1 x.2) c3
  let en := fun (r : Nat) => ((mrRule g r).map (fun o => bitOf (chartF g secMarkRules (o + 3) 1) 7)).getD false
  (List.range 8).foldl (fun c w => c.s (F.RSE_RULE_EN_EN.ix 4 w) (((List.range 32).map (fun j => (en (32 * w + j)).toNat * 2 ^ j)).foldl (· + ·) 0)) c4

/-- The sum of GUAR over every queue (R278). -/
def guarSum (g : Image) : Nat :=
  ((List.range (wkCount g)).flatMap (fun i => (List.range 8).map (fun k => (qParam g (8 * wkSlot g i + k)).guar))).foldl (· + ·) 0

/-- QUEUES (R360). -/
def Chip.applyQueues (c : Chip) : Chip :=
  let t := secQueues
  let fl := chartF c.work t 0 1
  let sel := chartF c.work t 4 1
  let c1 := (c.s F.QUE_CTL_THR_EN (bitOf fl 7).toNat).s F.QUE_CTL_SHARE_EN (bitOf fl 6).toNat
  let c2 := ((c1.copyF F.QUE_CTL_THR_RATE t 1 1).copyF F.QUE_CTL_SHARE_HI t 2 1).copyF F.QUE_CTL_SHARE_LO t 3 1
  let c3 := ((c2.s F.QUE_BUSY_SEL1 (sel / 4)).s F.QUE_BUSY_SEL0 sel).copyF F.QUE_FLUSH_FLUSH_TO t 5 1
  let c4 := (c3.copyF F.QUE_BUSY_BUSY_ON t 6 2).copyF F.QUE_BUSY_BUSY_OFF t 8 2
  c4.modQue (fun q => { q with guar := guarSum c.work })

/-- WAKE and WATCH (R361, R362). Watches already cut keep their places. -/
def Chip.applyWake (c : Chip) : Chip :=
  let t := secWake
  let c1 := (((c.copyF F.WKE_CTL_HWM t 0 1).copyF F.WKE_CTL_LWM t 1 1).copyF F.WKE_CTL_MARK_TO t 2 2).copyF F.INT_CTL_SCRUB_MIN t 8 2
  let c2 := (List.range 4).foldl (fun c i =>
    let o := 12 + 20 * i
    let fl := chartF c.work t o 1
    let f := fun (x : Fld) => x.ix 16 i
    let c := ((c.s (f F.WKE_MIN0_EN) (bitOf fl 7).toNat).s (f F.WKE_MIN0_NEG) (bitOf fl 6).toNat).s (f F.WKE_MIN0_PEER) (bitOf fl 5).toNat
    let c := (c.copyF (f F.WKE_MIN0_MIN_GAP) t (o + 2) 2).copyF (f F.WKE_MIN0_IN_DLY) t (o + 4) 2
    ((c.copyF (f F.WKE_MIN1_PRE) t (o + 8) 4).copyF (f F.WKE_MIN2_POST) t (o + 12) 4).copyF (f F.WKE_MIN3_GROUPS) t (o + 16) 4) c1
  let c3 := (List.range (watchN c.work)).foldl (fun c i =>
    let o := 4 + 12 * i
    let g := chartF c.work secWatch o 1
    (c.copyF (wgrpFld F.WKE_WGRP0_SPAN g) secWatch (o + 4) 4).copyF (wgrpFld F.WKE_WGRP1_DEADLINE g) secWatch (o + 8) 4) c2
  let start : WatchSt → WatchSt := fun x => { x with cur := none, newSpan := none, span := 0, shortened := false }
  c3.modWake (fun w => { w with watch := AMap.mapV (always WatchSt.init) w.watch start })

/-- The role of a physical lane under the EGRESS section, and the logical lane it serves (R363). -/
def laneRoleOf (g : Image) (p : Nat) : Nat × Nat :=
  let map := chartF g secEgress 28 4
  if !bitOf (chartF g secEgress 0 2) p then (roleOff, 0)
  else if chartF g secEgress 2 1 = p then (roleSpare, 0)
  else match (List.range 8).find? (fun l => map / 16 ^ l % 16 == p) with
    | some l => (roleActive, l)
    | none => (roleOff, 0)

/-- EGRESS (R363). -/
def Chip.applyEgress (c : Chip) : Chip :=
  let t := secEgress
  let g := c.work
  let spare := chartF g t 2 1
  let c1 := (((c.copyF F.EGR_CTL_LANE_EN t 0 2).copyF F.EGR_CTL_CONFIRM_T t 16 2).copyF F.EGR_FAULT_FEC_UNC_LIM t 18 2).copyF F.EGR_FAULT_PFC_WD t 20 2
  let c2 := ((c1.copyF F.EGR_SYSDEST_MON_INT t 22 2).copyF F.EGR_SYSDEST_MON_DEST t 24 1).copyF F.EGR_SYSDEST_LOG_DEST t 25 1
  let c3 := ((c2.copyF F.EGR_MAP_PHYS t 28 4).copyF F.EGR_FALLBACK_FB t 32 4).s F.EGR_STAT_SPARE (if spare = 0xFF then 15 else spare)
  let c4 := (List.range 9).foldl (fun c p =>
    let (role, l) := laneRoleOf g p
    let c := if bitOf (chartF g t 0 2) p then c else c.s (laneFld F.EGR_LANE0_UP p) 0
    ((c.s (laneFld F.EGR_LANE0_ROLE p) role).s (laneFld F.EGR_LANE0_LOGICAL p) l).s (laneFld F.EGR_LANE0_CAUSE p) 0) c3
  let c5 := c4.s F.EGR_STAT_SPARE_OK (spare != 0xFF && c4.laneUp spare).toNat
  let c6 := (List.range 32).foldl (fun c k => (c.copyF (F.EGR_GDEST_WATCH_DEST.ix 4 k) t (64 + 2 * k) 1).copyF (F.EGR_GDEST_MARK_DEST.ix 4 k) t (65 + 2 * k) 1) c5
  c6.modEgr (fun e => { e with moved := [], upSince := [], monAt := c.tick })

/-- TIME (R364); another source is a change of source (R247). -/
def Chip.applyTime (c : Chip) : Chip :=
  let t := secTime
  let fl := chartF c.work t 2 1
  let old := c.g F.MER_CTL_SRC_SEL
  let c1 := ((c.copyF F.MER_CTL_ROLE t 0 1).copyF F.MER_CTL_SRC_SEL t 1 1).copyF F.MER_CTL_PTP_DOMAIN t 3 1
  let c2 := ((c1.s F.MER_CTL_REF_320 (bitOf fl 7).toNat).s F.MER_CTL_PPS_NEG (bitOf fl 6).toNat).s F.MER_CTL_PRIM_PEER (bitOf fl 5).toNat
  let c3 := ((c2.s F.MER_PPS_OUT_PPS_OUT_EN (bitOf fl 4).toNat).s F.MER_PPS_OUT_REF_OUT_10M (bitOf fl 3).toNat).copyF F.MER_PPS_OUT_PPS_OFS t 20 4
  let c4 := ((c3.copyF F.MER_WK_CTL_PROBE_LOG t 5 1).copyF F.MER_WK_CTL_OUTLIER t 6 1).copyF F.MER_WK_CTL_RR_TOL t 28 2
  let c5 := ((c4.copyF F.MER_SERVO_SLEW_MAX t 8 2).copyF F.MER_SERVO_FIX_THR t 10 2).copyF F.MER_HOLD_HOLD_FREQ t 12 2
  let c6 := ((c5.copyF F.MER_HOLD_LOST_BOUND t 14 2).copyF F.MER_REF_DLY_REF_DLY t 16 4).copyF F.MER_PTP_LAT_TX_LAT t 24 2
  let c7 := c6.copyF F.MER_PTP_LAT_RX_LAT t 26 2
  if c7.g F.MER_CTL_SRC_SEL = old then c7 else c7.sourceChange

/-- HK (R365): the mode, and each input. The sequences start at slot 0 with a self-test asked for (R429, R433). -/
def Chip.applyHk (c : Chip) : Chip :=
  let t := secHk
  let bl := chartF c.work t 4 1
  let c1 := ((c.copyF F.HK_CTL_MODE t 0 1).copyF F.HK_CTL_MAINS t 1 1).s F.HK_CTL_BLANK_EN (bitOf bl 7).toNat
  let c2 := c1.s F.HK_CTL_BLANK_POL (bitOf bl 6).toNat
  let c3 := (List.range 40).foldl (fun c k =>
    let o := 8 + 4 * k
    let c := ((c.copyF (inFld F.HK_INCFG_CURVE k) t o 1).copyF (inFld F.HK_INCFG_WIRING k) t (o + 1) 1).copyF (inFld F.HK_INCFG_EXCIT k) t (o + 2) 1
    let c := c.s (inFld F.HK_INCFG_BURN k) (bitOf (chartF c.work t (o + 3) 1) 7).toNat
    if isHki k then c.copyF (inFld F.HK_INCFG_RANGE_NOW k) t (o + 1) 1 else c) c2
  ((((c3.s F.HK_CTL_SEQ_EN 1).seqRestart).hkTest).hkTry c.ackEdge)

/-- Change a link register field of a manager port without its special bits. -/
def Chip.linkSet (c : Chip) (p : Nat) (f : Fld) (n : Nat) : Chip := c.setPort p ((c.port p).s false f n)

/-- With a Chart whose LIMITS have EQ_TRACK = 0, a port with VALID commissioning values has EQ_HOLD set (R366). -/
def Chip.eqTrack (c : Chip) (p : Nat) : Chip :=
  let x := c.port p
  if c.work ≠ [] ∧ !limFlag c.work limEqTrack ∧ x.g false F.LNK_EQ_COMM_VALID = 1 then c.setPort p (x.s false F.LNK_EQ_CTL_EQ_HOLD 1) else c

/-- LIMITS (R366): the equaliser windows of every port, EQ_HOLD where adaptation is not permitted, and the target value. -/
def Chip.applyLimits (c : Chip) : Chip :=
  let t := secLimits
  let c1 := (List.range 130).foldl (fun c p =>
    let f := fun (c : Chip) (x : Fld) (o : Nat) => c.linkSet p x (chartF c.work t o 1)
    let c := f (f (f (f c F.LNK_EQ_CTL_WIN_CTLE 24) F.LNK_EQ_CTL_WIN_DFE 25) F.LNK_EQ_CTL_FREEZE_LOG 26) F.LNK_EQ_CTL_RESUME 27
    c.eqTrack p) c
  c1.s F.GBL_TRIM_TGT_OCC_TGT (limOccLo c.work)

/-- Ports (R374): used pairs are enumerated, unused ports are given SVC_EN = 0. A peer port is used unless ROLE is alone. -/
def Chip.applyPorts (c : Chip) : Chip :=
  let c1 := (List.range 128).foldl (fun c p => if c.portUsed p then c else c.portStep p (fun x => x.setSvc false c.tick false)) c
  let peers : Bool := c1.g F.MER_CTL_ROLE ≠ 0
  let c2 := [128, 129].foldl (fun c p => c.portStep p (fun x => x.setSvc false c.tick peers)) c1
  (List.range 64).foldl Chip.enumStart c2

/-- Every queue, whether it holds words or only has an item open. -/
def Chip.heldQueues (c : Chip) : List Nat :=
  (c.que.lq.map (·.1) ++ c.que.items.flatMap (fun x => match x.2 with
    | some o => (List.range 8).map (8 * o.slot + ·)
    | none => [])).eraseDups

/-- The configuration a working copy drives. -/
def Chip.applyChart (c : Chip) (g : Image) : Chip :=
  let c0 := { c with work := g }
  let c1 := ((((c0.applyTopology).applyWorkers).applyRose).applyQueues).applyWake
  let c2 := (((c1.applyEgress).applyTime).applyHk).applyLimits
  (c2.flushQueues c2.heldQueues).applyPorts

/-- A verified Chart is activated from a slot (R374): a failure leaves no working copy, and its code is not stated. -/
def Chip.activate (c : Chip) (k : Nat) (ok : Bool) : Chip × Nat :=
  if ok then
    let c1 := c.applyChart (c.chart k).image
    let c2 := ((c1.s F.GBL_STAT_CHART_OK 1).s F.GBL_STAT_ACT_SLOT k).s F.GBL_STAT_FELL_BACK 0
    ((c2.modPwr (fun p => { p with cold := false, digestAt := c.tick })).event 18 0, 0)
  else
    let (x, c1) := c.free 8
    (({ c1 with work := [] }.s F.GBL_STAT_CHART_OK 0).event 18 0, x)

/-! ## Slot operations (R371, R372) -/

/-- An operation on a slot ends: GO clears, DONE sets, and the result is recorded. -/
def Chip.chartEnd (c : Chip) (op k code detail : Nat) : Chip :=
  let c1 := ((c.s F.GBL_CHART_CMD_GO 0).s F.GBL_CHART_STAT_DONE 1).s F.GBL_CHART_STAT_OP op
  let c2 := ((c1.s F.GBL_CHART_STAT_SLOT k).s F.GBL_CHART_STAT_LREASON code).s F.GBL_CHART_STAT_LDETAIL detail
  let c3 := c2.event 16 0
  (if code = 0 then c3 else c3.event 17 0).logCheck false code detail

/-- CHART_STORE (R371, R372): `ok` tells whether the write and the read-back succeed. -/
def Chip.chartStore (c : Chip) (k : Nat) (ok : Bool) : Chip :=
  let len := c.g F.GBL_STG_LEN_LEN
  let img := if len ≤ 4194304 then sliceBytes c.mgt.stgChart 0 len else []
  if c.isActive k then c.chartEnd 1 k 0x1D k
  else if c.b F.LOG_STAT_NVM_FAIL then c.chartEnd 1 k 0x1C k
  else match c.verifyChart img len with
    | some (r, d) => c.chartEnd 1 k r d
    | none => if ok then (c.setChart k ⟨slotValid, img, 0⟩).chartEnd 1 k 0 0 else (c.slotFail k 0x1C).chartEnd 1 k 0x1C k

/-- CHART_ERASE (R371, R372). -/
def Chip.chartErase (c : Chip) (k : Nat) (ok : Bool) : Chip :=
  if c.isActive k then c.chartEnd 3 k 0x1D k
  else if c.b F.LOG_STAT_NVM_FAIL then c.chartEnd 3 k 0x1C k
  else if ok then (c.setChart k ChartSlot.init).chartEnd 3 k 0 0
  else (c.slotFail k 0x1C).chartEnd 3 k 0x1C k

/-- The marks after an activation: the slot becomes PRIMARY, and the former PRIMARY becomes FALLBACK if it is VALID. -/
def Chip.promote (c : Chip) (k : Nat) : Chip :=
  match c.nvm.primary with
  | some o =>
    if o = k then c
    else
      let keep := if c.nvm.fallback = some k then none else c.nvm.fallback
      c.modNvm (fun n => { n with primary := some k, fallback := if (c.chart o).state = slotValid then some o else keep })
  | none => c.modNvm (fun n => { n with primary := some k, fallback := if n.fallback = some k then none else n.fallback })

/-- CHART_ACTIVATE (R371, R372, R374): `ok` tells whether applying the Chart succeeds. -/
def Chip.chartActivate (c : Chip) (k : Nat) (ok : Bool) : Chip :=
  let x := c.chart k
  if c.run ∨ c.b F.GBL_STAT_CHECK_BUSY then c.chartEnd 2 k 0x1D k
  else match c.verifyChart x.image x.image.length with
    | some (r, d) => (c.modChart k (fun s => { s with lreason := r })).chartEnd 2 k r d
    | none =>
      let (c1, code) := (c.modChart k (fun s => { s with lreason := 0 })).activate k ok
      if ok then (c1.promote k).chartEnd 2 k 0 0 else c1.chartEnd 2 k code 0

/-- GO of GBL_CHART_CMD: OP and SLOT stand in the register. -/
def Chip.chartCmd (c : Chip) (ok : Bool) : Chip :=
  let k := c.g F.GBL_CHART_CMD_SLOT
  match c.g F.GBL_CHART_CMD_OP with
  | 1 => c.chartStore k ok
  | 2 => c.chartActivate k ok
  | 3 => c.chartErase k ok
  | op =>
    let c1 := ((c.s F.GBL_CHART_CMD_GO 0).s F.GBL_CHART_STAT_DONE 1).s F.GBL_CHART_STAT_OP op
    ((c1.s F.GBL_CHART_STAT_SLOT k).s F.GBL_CHART_STAT_LREASON 0).s F.GBL_CHART_STAT_LDETAIL 0

/-! ## Power-up and the hourly check (R375, R376) -/

/-- Try slots in order until one verifies and applies; `bad` names those whose activation fails. -/
def Chip.bootTry (bad : List Nat) : List Nat → Chip → Chip
  | [], c => c
  | k :: r, c =>
    let x := c.chart k
    match c.verifyChart x.image x.image.length with
    | some (code, d) => Chip.bootTry bad r ((c.slotFail k code).logCheck true code d)
    | none =>
      let (c1, code) := (c.modChart k (fun s => { s with lreason := 0 })).activate k (!bad.contains k)
      if bad.contains k then Chip.bootTry bad r ((c1.slotFail k code).logCheck true code 0)
      else if c.nvm.primary = some k then c1.logCheck true 0 0
      else ((c1.s F.GBL_STAT_FELL_BACK 1).event 19 0).logCheck true 0 0

/-- CHART_BOOT_ACTIVATE (R375): PRIMARY, FALLBACK, then the other VALID slots. No Chart is activated without firmware
(R463). -/
def Chip.chartBoot (c : Chip) (bad : List Nat) : Chip :=
  if c.b F.GBL_STAT_CHART_OK ∨ c.b F.MGT_STAT_RECOVERY ∨ !c.int.coresUp then c
  else
    let first := (c.nvm.primary.toList ++ c.nvm.fallback.toList)
    let order := first ++ (List.range 4).filter (fun k => !first.contains k)
    Chip.bootTry bad (order.filter (fun k => (c.chart k).state == slotValid)) c

/-- CHART_DIGEST_CHECK (R376): `intact` tells whether the slot still holds what was written, `ok` whether a rewrite
succeeds. -/
def Chip.digestCheck (c : Chip) (intact ok : Bool) : Chip :=
  let k := c.g F.GBL_STAT_ACT_SLOT
  if !c.b F.GBL_STAT_CHART_OK ∨ c.tick < c.pwr.digestAt + 3600 * sTicks ∨ !c.int.coresUp then c
  else
    let c1 := c.modPwr (fun p => { p with digestAt := c.tick })
    if intact then c1
    else if ok ∧ !c.b F.LOG_STAT_NVM_FAIL then ((c1.setChart k ⟨slotValid, c.work, 0⟩).event 20 0).logCheck true 0x81 0
    else (c1.slotFail k 0x1C).logCheck true 0x1C k

end Sys2Proof
end

