-- ==== Sys2Proof/Machine/Ecc.lean ====
section
/-!
DEFINITION. Machine/Ecc.lean: the error codes of the protected memories: SECDED (72,64) (R382, R383) and RS(36,32)
(R385, R386), and their poison patterns (R387).
-/
namespace Sys2Proof

/-- Set bits of a byte. -/
def weight8 (n : Nat) : Nat := ((List.range 8).map (fun i => (n.testBit i).toNat)).foldl (· + ·) 0

/-- The column values h(0) to h(63) (R382). -/
def secH : List Nat := ((List.range 256).filter (fun n => weight8 n = 3)) ++ [0x1F, 0x2F, 0x37, 0x3B, 0x3D, 0x3E, 0x4F, 0x57]

/-- The check bits K of a 64-bit word (R382). -/
def secCheck (d : Nat) : Nat :=
  (secH.foldl (fun (a : Nat × Nat) h => (if d.testBit a.2 then Nat.xor a.1 h else a.1, a.2 + 1)) (0, 0)).1

/-- What a checker or a decoder finds (R383, R386). -/
inductive EccOut
  | clean
  | corrected
  | uncorrectable
  deriving DecidableEq, Repr

/-- Decode a SECDED word: the outcome, the data returned and the syndrome Σ (R383). -/
def secDecode (d k : Nat) : EccOut × Nat × Nat :=
  let s := Nat.xor k (secCheck d)
  if s = 0 then (.clean, d, s)
  else if weight8 s = 1 then (.corrected, d, s)
  else match secH.findIdx? (· = s) with
    | some i => (.corrected, Nat.xor d (2 ^ i), s)
    | none => (.uncorrectable, d, s)

/-- Multiplication by x in GF(2⁸) with the field polynomial 0x11D (R385). -/
def gfX (a : Nat) : Nat := if 128 ≤ a then Nat.xor (2 * a) 0x11D else 2 * a

/-- The product of two elements of GF(2⁸) (R385). -/
def gfMul (a b : Nat) : Nat :=
  ((List.range 8).foldl (fun (s : Nat × Nat) i => (if b.testBit i then Nat.xor s.1 s.2 else s.1, gfX s.2)) (0, a)).1

/-- α to a power (R385). -/
def gfPow : Nat → Nat
  | 0 => 1
  | n + 1 => gfX (gfPow n)

/-- The coefficients of g(x) below x⁴, that of x³ first (R385). -/
def rsGen : List Nat :=
  ((List.range 4).foldl (fun g i => List.zipWith Nat.xor (g ++ [0]) (0 :: g.map (gfMul (gfPow i)))) [1]).drop 1

/-- The four check bytes of a beat's 32 data bytes, both as numbers with byte 0 the most significant (R385). -/
def rsCheck (d : Nat) : Nat :=
  beNat (((beBytes 32 d).foldl (fun r b =>
    let fb := Nat.xor b.toNat (r.headD 0)
    List.zipWith Nat.xor (r.drop 1 ++ [0]) (rsGen.map (gfMul fb))) [0, 0, 0, 0]).map (BitVec.ofNat 8))

/-- The four syndrome bytes of a stored beat: its value at 1, α, α² and α³ (R385). -/
def rsSyndromes (d k : Nat) : List Nat :=
  let sym := (beBytes 32 d ++ beBytes 4 k).map BitVec.toNat
  (List.range 4).map (fun i => sym.foldl (fun s b => Nat.xor (gfMul s (gfPow i)) b) 0)

/-- The position and the value of the single symbol error that syndromes show, if they show one (R386). -/
def rsLocate (s : List Nat) : Option (Nat × Nat) :=
  match s with
  | [s0, s1, s2, s3] =>
    if s0 = 0 then none
    else ((List.range 36).find? (fun j =>
      let x := gfPow (35 - j)
      gfMul s0 x == s1 && gfMul s1 x == s2 && gfMul s2 x == s3)).map (fun j => (j, s0))
  | _ => none

/-- Decode a Wake beat: the outcome, the data returned and the syndrome bytes, that of 1 first (R386). -/
def rsDecode (d k : Nat) : EccOut × Nat × Nat :=
  let s := rsSyndromes d k
  let syn := beNat (s.map (BitVec.ofNat 8))
  if syn = 0 then (.clean, d, syn)
  else match rsLocate s with
    | some (j, v) => (.corrected, if j < 32 then Nat.xor d (v * 2 ^ (8 * (31 - j))) else d, syn)
    | none => (.uncorrectable, d, syn)

/-- Memories 0x10 to 0x17 are the Wake stacks (R380). -/
def isStack (m : Nat) : Bool := 16 ≤ m

/-- The check bits of a word of a memory. -/
def eccCheck (m d : Nat) : Nat := if isStack m then rsCheck d else secCheck d

/-- Decode a word of a memory. -/
def eccDecode (m d k : Nat) : EccOut × Nat × Nat := if isStack m then rsDecode d k else secDecode d k

/-- What poison inverts among the check bits (R387). -/
def poisonMask (m : Nat) : Nat := if isStack m then 0xFFFF0000 else 0x03

/-- The SYND of an error log entry (R415): Σ, or the symbol corrected. -/
def elogSynd (m syn : Nat) : Nat :=
  if isStack m then ((rsLocate ((beBytes 4 syn).map BitVec.toNat)).map (·.1)).getD 0xFF else syn

end Sys2Proof
end

