-- ==== Sys2Proof/Machine/Integrity.lean ====
section
/-!
DEFINITION. Machine/Integrity.lean: the protected memories: reads, writes and scrub (R388 to R392), targeted tests
(R393 to R396), remapping (R397 to R400), the error log and ECC bypass (R402, R403, R415), and what a requester does
with a word found uncorrectable (R388).
-/
namespace Sys2Proof

def Chip.modInt (c : Chip) (f : Integ → Integ) : Chip := { c with int := f c.int }
def Chip.mem (c : Chip) (m : Nat) : MemX := AMap.get (always MemX.init) c.int.mems m
def Chip.setMem (c : Chip) (m : Nat) (x : MemX) : Chip := c.modInt (fun s => { s with mems := AMap.set (always MemX.init) s.mems m x })
def Chip.modMem (c : Chip) (m : Nat) (f : MemX → MemX) : Chip := c.setMem m (f (c.mem m))
def Chip.stack (c : Chip) (s : Nat) : StackX := AMap.get (always StackX.init) c.int.badStacks s
def Chip.modStack (c : Chip) (s : Nat) (f : StackX → StackX) : Chip :=
  c.modInt (fun i => { i with badStacks := AMap.upd (always StackX.init) i.badStacks s f })

/-- Words of each memory (R380); 0 for a number that names none. MEM 0x01 counts the words of the 130 dual-clock
queues, of the pool write buffers and of the transmit queues, a number the manual does not give. -/
def memWords (m : Nat) : Nat :=
  match m with
  | 0x00 => 2097152 | 0x01 => 2 ^ 32 | 0x02 => 131072 | 0x03 => 32768 | 0x04 => 8192 | 0x05 => 8192 | 0x06 => 32768
  | 0x07 => 8192 | 0x08 => 524288 | 0x09 => 524288 | 0x0A => 1024
  | _ => if 16 ≤ m ∧ m < 24 then 2 ^ 30 else 0

/-- The word exists (R380). -/
def wordExists (m a : Nat) : Bool := decide (a < memWords m)

/-- Remap entries or spare rows (R380). -/
def memSpares (m : Nat) : Nat := if m = 1 then 0 else if isStack m then 32 else 8

/-- The unit of a word: itself, or the 2 KiB row of a beat (R393). -/
def eccUnit (m a : Nat) : Nat := if isStack m then a / 64 else a

/-- A field of INT_MEM of a memory (R415). -/
def memFld (f : Fld) (m : Nat) : Fld := f.ix 16 m

/-! ## Error log (R415) -/

/-- The head of the error log shows in its registers. -/
def Chip.elogShow (c : Chip) : Chip :=
  let h : ELogEnt := match c.int.elog with
    | e :: _ => e
    | [] => ⟨0, 0, 0, 0, 0⟩
  let w := fun (n : Nat) => BitVec.ofNat 32 n
  ((((c.s F.INT_ELOG_STAT_LEVEL (min 64 c.int.elog.length)).setWord 0x45000014 (w h.w0)).setWord 0x45000018 (w h.w1)).setWord 0x4500001C (w h.w2)).setWord
    0x45000020 (w h.w3)

/-- Enter an error (R415). Whether it finds room is settled at the end of the cycle, since a pop in the same cycle makes
room for it (R250). -/
def Chip.elogPush (c : Chip) (kind src m syn addr : Nat) : Chip :=
  let t := c.sub
  let e : ELogEnt := ⟨at_ 31 31 1 + at_ 30 28 kind + at_ 27 25 src + at_ 15 8 m + at_ 7 0 syn, addr % 2 ^ 32, secOf t % 2 ^ 32, nsOf t, c.tick⟩
  (c.modInt (fun i => { i with elog := i.elog ++ [e] })).elogShow

/-- ELOG_POP (R250, R415): the head entry is removed; one pushed in the same cycle is not yet the head. -/
def Chip.elogPop (c : Chip) : Chip :=
  (c.modInt (fun i => { i with elog := match i.elog with
    | e :: r => if e.when = c.tick then e :: r else r
    | [] => [] })).elogShow

/-- The end of a cycle at the error log (R250, R415): what lies above the 64th entry is dropped. -/
def Chip.elogSettle (c : Chip) : Chip :=
  match c.int.elog.drop 64 with
  | [] => c
  | e :: r =>
    ((c.modInt (fun i => { i with elog := i.elog.take 64 })).sat F.INT_ELOG_STAT_OVF_CNT (r.length + 1)).flag F.INT_ELOG_STAT_OVF 188 (bitsOf e.w0 15 8)

/-! ## Degradation -/

/-- A checker, a Meridian unit, a core pair or a stack is out of use, or a memory has no free remap entry (R415). -/
def Chip.isDegraded (c : Chip) : Bool :=
  c.b F.INT_STUP_CHK_DEGR || c.g F.INT_MU_A_STATE == 3 || c.g F.INT_MU_B_STATE == 3 || c.int.muWorn ||
    c.g F.INT_CORE_A_STATE == 3 || c.g F.INT_CORE_B_STATE == 3 ||
    (List.range 8).any (fun s => c.b (F.INT_TEMP_OUT.ix 4 s)) ||
    c.int.mems.any (fun x => x.1 != 1 && decide (memSpares x.1 ≤ x.2.remaps.length))

/-- DEGRADED follows; its rise is event 203. -/
def Chip.degradedEval (c : Chip) : Chip :=
  let d := c.isDegraded
  if d ∧ !c.b F.INT_STAT_DEGRADED then (c.s F.INT_STAT_DEGRADED 1).event 203 0 else c.s F.INT_STAT_DEGRADED d.toNat

/-- A checker of a memory fails a test: it is taken out of use unless it is the last (R384). -/
def Chip.checkerOut (c : Chip) (m k : Nat) : Chip :=
  if (c.mem m).chkOut ≠ [] then c
  else ((c.modMem m (fun x => { x with chkOut := [k], chkUse := 1 - k })).s F.INT_STUP_CHK_DEGR
    (Nat.lor (c.g F.INT_STUP_CHK_DEGR) (2 ^ m))).degradedEval

/-- The two checkers of a memory disagree: both are retested, and the disagreement is recorded (R384). -/
def Chip.checkersDisagree (c : Chip) (m a src : Nat) (okA okB : Bool) : Chip :=
  if (c.mem m).chkOut ≠ [] ∨ isStack m then c
  else
    let c1 := ((c.elogPush 7 src m 0 a).event 184 m).logAct m okA.toNat okB.toNat
    let c2 := if okB then c1.modMem m (fun x => { x with chkUse := 1 }) else if okA then c1.modMem m (fun x => { x with chkUse := 0 }) else c1
    let c3 := if okA then c2 else c2.checkerOut m 0
    if okB then c3 else c3.checkerOut m 1

/-! ## Remapping (R397 to R400) -/

/-- A lasting fault (R395): counted, and while REMAP_EN is 1 its entry is due. -/
def Chip.lasting (c : Chip) (m a src : Nat) (ue : Bool) : Chip :=
  let c1 := ((c.sat (memFld F.INT_MEM1_LASTING m)).flag F.INT_STAT_LASTING 178 m).elogPush 3 src m 0 a
  if c1.b F.INT_CTL_REMAP_EN ∧ !(c1.mem m).installs.any (fun x => eccUnit m x.1 == eccUnit m a) then
    c1.modMem m (fun x => { x with installs := x.installs ++ [(a, ue)] })
  else c1

/-- Retire a pool cell or a Wake page (R398, R399); the retirement is recorded (R311, R482). -/
def Chip.retire (c : Chip) (m unit : Nat) : Chip :=
  if (c.mem m).retired.contains unit then c
  else
    let c1 := (((c.modMem m (fun x => { x with retired := x.retired ++ [unit] })).sat (memFld F.INT_MEM3_RETIRED m)).flag F.INT_STAT_RETIRE 181 m).logAct m unit 0
    if m = 0 then (c1.modQue (fun q => { q with retired := q.retired + 1 })).poolEval
    else if unit < wakePages then (c1.setPage unit { c1.wpage unit with bad := true }).flag F.WKE_STAT_PAGE_RETIRED 132 unit
    else c1

/-- The page of a stack's beat (R381). -/
def beatPage (m a : Nat) : Nat := a / 131072 * 8 + (m - 16)

/-- Install the entry of a lasting fault, or with none free retire the cell or page or leave the word in use. -/
def Chip.install (c : Chip) (m a src : Nat) : Chip :=
  let x := c.mem m
  if x.remaps.length < memSpares m then
    (((((c.modMem m (fun y => { y with remaps := y.remaps ++ [eccUnit m a] })).sat (memFld F.INT_MEM1_REMAP_USED m)).flag F.INT_STAT_REMAP 179 m).elogPush
      4 src m 0 a).logAct m a x.remaps.length).degradedEval
  else
    let c1 := (c.flag F.INT_STAT_REMAP_FULL 180 m).degradedEval
    if m = 0 then (c1.elogPush 5 src m 0 a).retire m (a / 32)
    else if isStack m then (c1.elogPush 5 src m 0 a).retire m (beatPage m a)
    else c1.modMem m (fun y => { y with worn := y.worn ++ [a] })

/-- While BYP_EN is 1 the memory MEM names is neither scrubbed, tested nor remapped (R403). -/
def Chip.bypassed (c : Chip) (m : Nat) : Bool := c.b F.INT_BYP_CTL_BYP_EN && c.g F.INT_BYP_CTL_MEM == m

/-- Pool remaps are installed at least 10 ms apart (R397). -/
def poolInstallGap : Nat := 10 * msTicks

/-- REMAP_INSTALL (R397 to R399): the lasting fault at the head of a memory's queue. -/
def Chip.remapInstall (c : Chip) (m : Nat) : Chip :=
  match (c.mem m).installs with
  | [] => c
  | (a, _) :: r =>
    let early : Bool := m == 0 && (match (c.mem m).lastInstall with
      | some t => decide (c.tick < t + poolInstallGap)
      | none => false)
    if early ∨ c.bypassed m then c
    else (c.modMem m (fun x => { x with installs := r, lastInstall := some c.tick })).install m a 3

/-! ## Transient or lasting (R393 to R396) -/

/-- An address enters the suspect list (R394). -/
def Chip.suspectAdd (c : Chip) (m a : Nat) : Chip :=
  let x := c.mem m
  if x.suspects.any (·.1 = a) then
    c.setMem m { x with suspects := x.suspects.map (fun s => if s.1 = a then (a, 0) else s) }
  else if (if isStack m then 256 else 64) ≤ x.suspects.length then
    ((c.setMem m { x with suspects := x.suspects.drop 1 ++ [(a, 0)] }).sat (memFld F.INT_MEM3_SUSPECT_OVF m)).event 187 m
  else c.setMem m { x with suspects := x.suspects ++ [(a, 0)] }

/-- A scrub pass has read a word without a correction: after two such passes it leaves the suspect list (R394). -/
def Chip.suspectClean (c : Chip) (m a : Nat) : Chip :=
  c.modMem m (fun x => { x with suspects := x.suspects.flatMap (fun s => if s.1 = a then (if s.2 = 0 then [(a, 1)] else []) else [s]) })

/-- A fault is classified, by a targeted test or by the suspect-list rule alone (R393, R395, R396). -/
def Chip.classify (c : Chip) (m a src syn : Nat) (ue suspect : Bool) : Chip :=
  let x := c.mem m
  let u := eccUnit m a
  let byList : Chip → Chip := fun c => if suspect then c.lasting m a src ue else c
  if x.worn.contains a ∧ !ue then c
  else if !c.b F.INT_CTL_TST_EN then byList c
  else if x.tests.any (fun t => t.unit = u) then
    c.setMem m { x with tests := x.tests.map (fun t => if t.unit = u then { t with ue := t.ue || ue, suspect := t.suspect || suspect } else t) }
  else if x.tests.length < 9 then c.setMem m { x with tests := x.tests ++ [⟨u, a, ue, suspect⟩] }
  else byList (((c.sat (memFld F.INT_MEM3_TST_SKIP m)).elogPush 6 src m syn a).event 183 m)

/-- TARGETED_TEST (R393, R395): the test a memory runs ends; `fails` tells whether some pattern was not read back. -/
def Chip.targetedTest (c : Chip) (m : Nat) (fails : Bool) : Chip :=
  match (c.mem m).tests with
  | [] => c
  | t :: r =>
    let c1 := c.modMem m (fun x => { x with tests := r })
    if c1.bypassed m then c1
    else if fails ∨ (t.suspect ∧ !t.ue) then c1.lasting m t.addr 3 t.ue
    else c1

/-! ## Reads, writes and scrub (R388 to R392) -/

/-- The stored word of an address. -/
def Chip.eccAt (c : Chip) (m a : Nat) : EccErr := AMap.get (always EccErr.none) (c.mem m).errs a

def Chip.setEcc (c : Chip) (m a : Nat) (e : EccErr) : Chip :=
  c.modMem m (fun x => { x with errs := AMap.set (always EccErr.none) x.errs a e })

/-- A word found uncorrectable is poisoned (R387, R388); a page of Wake holds it as a place no reader passes. -/
def Chip.poisonWord (c : Chip) (m a : Nat) : Chip :=
  let e := c.eccAt m a
  let c1 := c.setEcc m a { e with k := Nat.xor (eccCheck m e.d) (poisonMask m) }
  if isStack m then
    let n := beatPage m a
    let p := c1.wpage n
    let at_ := a % 131072 * 256
    if p.valid ∧ !p.poison.contains at_ then c1.setPage n { p with poison := p.poison ++ [at_] } else c1
  else c1

/-- The table and index of a word of the Rose memories (R306, R388): membership words hold two tiles each; the tile-set,
term and rule tables lie in that order. -/
def roseEntries (m a : Nat) : List (Nat × Nat) :=
  if m = 3 then [(0, 2 * a), (0, 2 * a + 1)]
  else if a < 128 then [(1, 2 * a), (1, 2 * a + 1)]
  else if a < 2176 then [(2, 2 * (a - 128)), (2, 2 * (a - 128) + 1)]
  else [(3, 2 * (a - 2176)), (3, 2 * (a - 2176) + 1)]

/-- What follows at once for those who always read a memory (R388): the Rose fast path goes without the word, and
readers of the time index wait. -/
def Chip.ueFollows (c : Chip) (m a : Nat) : Chip :=
  if m = 3 ∨ m = 4 then c.modRose (fun r => { r with off := r.off ++ (roseEntries m a).filter (fun x => !r.off.contains x) })
  else if m = 2 then c.modInt (fun i => { i with rebuild := if i.rebuild.contains (a / 2) then i.rebuild else i.rebuild ++ [a / 2] })
  else c

/-- An hour in ticks. -/
def hourTicks : Nat := 3600 * sTicks

/-- A corrected beat counts toward its stack's hour (R413). -/
def Chip.stackCe (c : Chip) (m : Nat) : Chip :=
  if !isStack m then c
  else
    let s := m - 16
    let l := (c.tick :: (c.stack s).ces.filter (fun t => decide (c.tick < t + hourTicks))).take 65535
    let hi := match l[1999]? with
      | some t => t + hourTicks
      | none => (c.stack s).highUntil
    (c.modStack s (fun x => { x with ces := l, highUntil := hi })).s (F.INT_TEMP_CE_HOUR.ix 4 s) l.length

/-- The source code of an access (R415). -/
def Chip.eccSource (c : Chip) (m : Nat) (a : EccAccess) : Nat :=
  if c.bypassed m then 5 else match a with
    | .scrub => 0
    | .read => 1
    | _ => 2

/-- A full write stores the word, clears poison and takes the address off the suspect list (R389, R394). -/
def Chip.eccFullWrite (c : Chip) (m a : Nat) : Chip :=
  (c.setEcc m a EccErr.none).modMem m (fun x => { x with suspects := x.suspects.filter (·.1 ≠ a) })

/-- The scrubber reads a word of a retired cell or page, and never writes it (R390). -/
def Chip.scrubKeeps (c : Chip) (m a : Nat) (x : EccAccess) : Bool :=
  x == .scrub && (c.mem m).retired.contains (if m = 0 then a / 32 else beatPage m a)

/-- A word is corrected (R390 to R395). A write that overtakes the write-back is performed in its place (R391, R392). -/
def Chip.eccCorrected (c : Chip) (m a syn : Nat) (x : EccFind) (d' : Nat) : Chip :=
  let src := c.eccSource m x.access
  let e := c.eccAt m a
  let c1 := (((c.sat (memFld F.INT_MEM0_CE_CNT m)).flag F.INT_STAT_CE 176 m).elogPush 0 src m (elogSynd m syn) a).stackCe m
  let suspect := (c1.mem m).suspects.any (·.1 = a)
  let right : EccErr := if x.access = .partialWrite then EccErr.none else ⟨e.known, d', eccCheck m d'⟩
  let c2 := if x.overtaken then c1.eccFullWrite m a
    else if c1.scrubKeeps m a x.access then c1
    else (c1.setEcc m a right).suspectAdd m a
  if c2.bypassed m then c2 else c2.classify m a src syn false suspect

/-- A word is found uncorrectable (R388, R395). -/
def Chip.eccLost (c : Chip) (m a syn : Nat) (x : EccFind) : Chip :=
  let src := c.eccSource m x.access
  let c1 := ((c.sat (memFld F.INT_MEM1_UE_CNT m)).flag F.INT_STAT_UE 177 m).elogPush 1 src m (elogSynd m syn) a
  let suspect := (c1.mem m).suspects.any (·.1 = a)
  let c2 := if x.overtaken then c1.eccFullWrite m a
    else (if c1.scrubKeeps m a x.access then c1 else c1.poisonWord m a).ueFollows m a
  if c2.bypassed m then c2 else c2.classify m a src syn true suspect

/-- The time of a full scrub pass: SCRUB_MIN minutes for Wake, 1 s for every other memory (R380, R390, R415). -/
def Chip.scrubPass (c : Chip) (m : Nat) : Nat :=
  if isStack m then 60 * sTicks * min 1440 (max 1 (c.g F.INT_CTL_SCRUB_MIN)) else sTicks

/-- When the scrubber reaches a word in the present pass, at the earliest (R390, log entry 146). -/
def Chip.scrubAt (c : Chip) (m a : Nat) : Nat := (c.mem m).passAt + a * c.scrubPass m / memWords m

/-- Words the scrubber must visit before an address: those that hold an error or stand on the suspect list. -/
def Chip.scrubDue (c : Chip) (m lo hi : Nat) : Bool :=
  let x := c.mem m
  (x.errs.map (·.1) ++ x.suspects.map (·.1)).any (fun a => decide (lo ≤ a ∧ a < hi))

/-- The scrubber has done a word: a pass ends with the last one (R390). -/
def Chip.scrubNext (c : Chip) (m a : Nat) : Chip :=
  if a + 1 = memWords m then (c.modMem m (fun x => { x with cursor := 0, passAt := max c.tick (x.passAt + c.scrubPass m) })).wrap (memFld F.INT_MEM2_PASSES m)
  else c.modMem m (fun x => { x with cursor := a + 1 })

/-- An access meets a word as upsets have left it (R388 to R392). -/
def Chip.eccVisit (c : Chip) (m a : Nat) (x : EccFind) : Chip :=
  let e0 := c.eccAt m a
  let e : EccErr := { e0 with d := Nat.xor e0.d x.flipD, k := Nat.xor e0.k x.flipK }
  let c0 := c.setEcc m a e
  let c1 := match x.disagree with
    | some (okA, okB) => c0.checkersDisagree m a (c0.eccSource m x.access) okA okB
    | none => c0
  match x.access with
  | .fullWrite => c1.eccFullWrite m a
  | _ =>
    let (out, d', syn) := eccDecode m e.d e.k
    match out with
    | .clean =>
      if x.overtaken then c1.eccFullWrite m a
      else match x.access with
        | .scrub => c1.suspectClean m a
        | .partialWrite => c1.setEcc m a EccErr.none
        | _ => c1
    | .corrected => c1.eccCorrected m a syn x d'
    | .uncorrectable =>
      let c2 := c1.eccLost m a syn x
      match x.access with
      | .partialWrite => (c2.flag F.INT_STAT_PART_REFUSED 182 m).elogPush 2 2 m (elogSynd m syn) a
      | _ => c2

/-- SCRUB_WORD (R388 to R392). The scrubber goes from the lowest word to the highest; between the words named to it lie
only words it reads without an error; it reaches none before its time. A memory under bypass, and MEM 0x01, are not scrubbed (R380, R403). -/
def Chip.scrubWord (c : Chip) (m a : Nat) (x : EccFind) : Chip :=
  match x.access with
  | .scrub =>
    if !c.b F.INT_CTL_SCRUB_EN ∨ m = 1 ∨ c.bypassed m ∨ a < (c.mem m).cursor ∨ c.scrubDue m (c.mem m).cursor a ∨ c.tick < c.scrubAt m a then c
    else (c.eccVisit m a x).scrubNext m a
  | _ => c.eccVisit m a x

/-! ## Uncorrectable reads by requesters (R388) -/

/-- A requester's read of a word finds it uncorrectable. -/
def Chip.ueRead (c : Chip) (m a : Nat) : Chip :=
  let e := c.eccAt m a
  c.eccLost m a (eccDecode m (Nat.xor e.d 3) e.k).2.2 ⟨.read, 0, 0, false, none⟩

/-- INDEX_ENTRY_REBUILT (R388): the time index entry of a page has been rebuilt. -/
def Chip.indexRebuilt (c : Chip) (n : Nat) : Chip :=
  if c.int.rebuild.contains n then
    ((c.modInt (fun i => { i with rebuild := i.rebuild.filter (· ≠ n) })).eccFullWrite 2 (2 * n)).eccFullWrite 2 (2 * n + 1)
  else c

/-- The memory and word of a Rose table entry. -/
def roseWord (tbl ix : Nat) : Nat × Nat :=
  match tbl with
  | 0 => (3, ix / 2)
  | 1 => (4, ix / 2)
  | 2 => (4, 128 + ix / 2)
  | _ => (4, 2176 + ix / 2)

/-- WORD_RELOADED (R388): a Rose table word has been reloaded from the Chart's working copy and is in force again. -/
def Chip.wordReloaded (c : Chip) (m a : Nat) : Chip :=
  let l := roseEntries m a
  if (m = 3 ∨ m = 4) ∧ l.any c.rose.off.contains then
    (c.modRose (fun r => { r with off := r.off.filter (fun x => !l.contains x) })).eccFullWrite m a
  else c

/-! ## ECC bypass (R402, R403, R415) -/

/-- The data words of INT_BYP_DATA as one number: 8 words for a beat, the first two for a SECDED word. -/
def Chip.bypData (c : Chip) (m : Nat) : Nat :=
  (List.range (if isStack m then 8 else 2)).foldl (fun n i => n * 2 ^ 32 + (c.word (0x45000048 + 4 * i)).toNat) 0

def Chip.setBypData (c : Chip) (m d : Nat) : Chip :=
  let n := if isStack m then 8 else 2
  (List.range n).foldl (fun c i => c.setWord (0x45000048 + 4 * i) (BitVec.ofNat 32 (d / 2 ^ (32 * (n - 1 - i))))) c

/-- The raw access GO starts. Contents the manual does not lay out in words read as free data with their check bits. -/
def Chip.bypassGo (c : Chip) : Chip :=
  let m := c.g F.INT_BYP_CTL_MEM
  let a := c.g F.INT_BYP_ADDR_ADDR
  let done := fun (c : Chip) (r : Nat) => (c.s F.INT_BYP_RES_DONE 1).s F.INT_BYP_RES_RESULT r
  let c0 := (c.logCtx kEvent 185 (at_ 159 128 m + a)).event 185 m
  if !wordExists m a then
    let (r, c1) := c0.free 2
    done c1 r
  else if c.b F.INT_BYP_CTL_WR then
    let k := c.g F.INT_BYP_CHK_CHK
    let c1 := c0.setEcc m a ⟨true, c.bypData m, if isStack m then k else k % 256⟩
    done c1 0
  else
    let e := c.eccAt m a
    let (f, c1) := if e.known then (0, c0) else c0.free (if isStack m then 256 else 64)
    let d := Nat.xor f e.d
    let k := Nat.xor (eccCheck m f) e.k
    let (out, _, syn) := eccDecode m d k
    let r := match out with
      | .clean => 0
      | .corrected => 1
      | .uncorrectable => 2
    done (((c1.setBypData m d).s F.INT_BYP_CHK_CHK k).s F.INT_BYP_SYND_SYND syn) r

/-- BYPASS_ACCESS (R402): a write of INT_BYP_CTL whose fields its role may write, and whether it was performed. During a
run bypass does not work: GO is refused with a bus error and recorded. -/
def Chip.bypassAccess (c : Chip) (v : Word) : Chip × Bool :=
  let go := F.INT_BYP_CTL_GO.of v ≠ 0
  let en := F.INT_BYP_CTL_BYP_EN.of v ≠ 0
  if c.run ∧ (go ∨ en) then
    let c1 := c.logCtx kRefusal 0x0100 (at_ 159 128 0x45000040)
    (if go then (c1.s F.INT_BYP_RES_DONE 1).s F.INT_BYP_RES_RESULT 3 else c1, false)
  else
    let c1 := c.setWord 0x45000040 (v &&& 0xA0FF0000#32)
    if !go then (c1, true)
    else if !en then ((c1.s F.INT_BYP_RES_DONE 1).s F.INT_BYP_RES_RESULT 3, true)
    else (c1.bypassGo, true)

end Sys2Proof
end

