-- ==== Sys2Proof/Machine/Redundancy.lean ====
section
/-!
DEFINITION. Machine/Redundancy.lean: the start-up self-test (R401), the Meridian units (R404 to R407), the core pairs
(R408 to R411), the memory stacks (R412 to R414), and requesters that meet an uncorrectable word (R388).
-/
namespace Sys2Proof

/-! ## Meridian units (R404 to R407) -/

/-- The state field of a Meridian unit: 0 standby, 1 active, 2 self-test, 3 FAILED. -/
def muFld (u : Nat) : Fld := if u = 0 then F.INT_MU_A_STATE else F.INT_MU_B_STATE

/-- Ticks of 24 h (R407). -/
def dayTicks : Nat := 24 * hourTicks

/-- A fail-over starts: the standby freezes, and the downlinks carry IDLE in the slots of cycles 2 to 12 (R405). -/
def Chip.muYield (c : Chip) (cause : Nat) : Chip :=
  (c.modInt (fun i => { i with muAt := some (c.tick + 12, cause) })).modMer (fun m => { m with gapEnd := c.tick + 13 })

/-- MU_FAULT (R404, R405, R407): a check fails in the active unit. With no standby it goes on and Meridian is lost. -/
def Chip.muFault (c : Chip) (cause : Nat) : Chip :=
  if c.int.muAt.isSome then c
  else
    let act := c.g F.INT_MU_ACTIVE
    if c.g (muFld (1 - act)) = 0 then c.muYield cause
    else (((c.merState 0).modInt (fun i => { i with muWorn := true })).degradedEval).logAct act cause 0

/-- MU_SWITCH_REQUEST (R405): only while the standby is in standby. -/
def Chip.muSwitch (c : Chip) : Chip :=
  if c.int.muAt.isNone ∧ c.g (muFld (1 - c.g F.INT_MU_ACTIVE)) = 0 then c.muYield 7 else c

/-- A unit starts the 1 s self-test (R407). -/
def Chip.muTest (c : Chip) (u : Nat) : Chip :=
  (c.s (muFld u) 2).modInt (fun i => if u = 0 then { i with muTestA := c.tick + sTicks } else { i with muTestB := c.tick + sTicks })

/-- A unit is set FAILED and stays out of use until power-on reset (R407). -/
def Chip.muFailed (c : Chip) (u : Nat) : Chip := (((c.s (muFld u) 3).event 193 0).logAct u 0 3).degradedEval

/-- Cycle 12 of a fail-over: the standby holds authority (R405); the third yield of a unit in 24 h sets it FAILED. -/
def Chip.muTick (c : Chip) : Chip :=
  match c.int.muAt with
  | none => c
  | some (t, cause) =>
    if c.tick < t then c
    else
      let old := c.g F.INT_MU_ACTIVE
      let ys := c.tick :: (if old = 0 then c.int.yieldsA else c.int.yieldsB).filter (fun x => decide (c.tick < x + dayTicks))
      let c1 := c.modInt (fun i => if old = 0 then { i with muAt := none, yieldsA := ys } else { i with muAt := none, yieldsB := ys })
      let c2 := ((((c1.s F.INT_MU_ACTIVE (1 - old)).s (muFld (1 - old)) 1).s F.MER_STAT_MU (1 - old)).s F.INT_MU_LAST_CAUSE cause).sat F.INT_MU_SWITCHES
      let c3 := (c2.flag F.INT_STAT_MU_SWITCH 192 0).logAct old cause (1 - old)
      if 3 ≤ ys.length then c3.muFailed old else c3.muTest old

/-- MU_STANDBY_FAULT (R404): a check fails in the standby unit. -/
def Chip.muStandbyFault (c : Chip) : Chip :=
  let u := 1 - c.g F.INT_MU_ACTIVE
  if c.int.muAt.isNone ∧ c.g (muFld u) = 0 then c.muTest u else c

/-- MU_SELF_TEST_END (R407). -/
def Chip.muTestEnd (c : Chip) (u : Nat) (passed : Bool) : Chip :=
  if c.g (muFld u) = 2 ∧ (if u = 0 then c.int.muTestA else c.int.muTestB) ≤ c.tick then
    if passed then c.s (muFld u) 0 else c.muFailed u
  else c

/-! ## Core pairs (R408 to R411) -/

/-- The state field of a core pair: 0 shadow, 1 active, 2 self-test, 3 FAILED. -/
def coreFld (p : Nat) : Fld := if p = 0 then F.INT_CORE_A_STATE else F.INT_CORE_B_STATE

/-- CKPT_INT: values below 50 are taken as 50 (R415). -/
def Chip.ckptTicks (c : Chip) : Nat := max 50 (c.g F.INT_CKPT_CKPT_INT) * msTicks

/-- CHECKPOINT (R408): every CKPT_INT ms, while the operating system runs. -/
def Chip.checkpoint (c : Chip) : Chip :=
  if c.int.coresUp ∧ c.int.ckptAt + c.ckptTicks ≤ c.tick then c.modInt (fun i => { i with ckptAt := c.tick, ckptPrev := i.ckptAt }) else c

/-- CKPT_AGE (R415). -/
def Chip.ckptAge (c : Chip) : Nat := min 65535 ((c.tick - c.int.ckptAt) / msTicks)

/-- A pair's lockstep self-test begins (R410). -/
def Chip.coreTest (c : Chip) (p : Nat) : Chip :=
  (c.s (coreFld p) 2).modInt (fun i => if p = 0 then { i with coreTestA := c.tick + 1 } else { i with coreTestB := c.tick + 1 })

/-- CORE_MISMATCH (R409 to R411). A mismatch in the pair that loads the checkpoint leaves no shadow. -/
def Chip.coreMismatch (c : Chip) (p : Nat) : Chip :=
  let act := c.g F.INT_CORE_ACTIVE_PAIR
  if p ≠ act then
    if c.g (coreFld p) ≠ 0 then c
    else
      let c1 := c.coreTest p
      if c.int.failAt.isSome then c1.modInt (fun i => { i with failAt := none, rebootAt := some c.tick }) else c1
  else if !c.int.coresUp then c
  else
    let c1 := (c.coreTest p).modInt (fun i => { i with coresUp := false })
    if c.g (coreFld (1 - p)) = 0 then c1.modInt (fun i => { i with failAt := some c.tick })
    else c1.modInt (fun i => { i with rebootAt := some c.tick })

/-- CORE_FAILOVER_END (R409): 2 s after the mismatch the former shadow runs the operating system. -/
def Chip.coreFailoverEnd (c : Chip) : Chip :=
  match c.int.failAt with
  | none => c
  | some t =>
    if c.tick < t + 2 * sTicks then c
    else
      let old := c.g F.INT_CORE_ACTIVE_PAIR
      let c1 := ((c.s F.INT_CORE_ACTIVE_PAIR (1 - old)).s (coreFld (1 - old)) 1).sat F.INT_CORE_SWITCHES
      ((c1.modInt (fun i => { i with failAt := none, coresUp := true })).flag F.INT_STAT_CORE_SWITCH 194 0).logAct (1 - old) old (1 - old)

/-- CORE_SELF_TEST_END (R410). The pair a reboot waits for stays out until it has rebooted. -/
def Chip.coreTestEnd (c : Chip) (p : Nat) (passed : Bool) : Chip :=
  if c.g (coreFld p) ≠ 2 ∨ (if p = 0 then c.int.coreTestA else c.int.coreTestB) = 0 then c
  else
    let c1 := c.modInt (fun i => if p = 0 then { i with coreTestA := 0 } else { i with coreTestB := 0 })
    if !passed then (((c1.s (coreFld p) 3).event 195 0).logAct p 2 3).degradedEval
    else if c.int.rebootAt.isSome ∧ p = c.g F.INT_CORE_ACTIVE_PAIR then c1
    else c1.s (coreFld p) 0

/-- CORE_REBOOT (R411): the halted pair, its self-test passed, reboots. -/
def Chip.coreReboot (c : Chip) : Chip :=
  let p := c.g F.INT_CORE_ACTIVE_PAIR
  if c.int.rebootAt.isSome ∧ c.g (coreFld p) = 2 ∧ (if p = 0 then c.int.coreTestA else c.int.coreTestB) = 0 then
    ((((c.s (coreFld p) 1).modInt (fun i => { i with rebootAt := none, coresUp := true })).sat F.INT_CORE_REBOOTS).flag F.INT_STAT_CORE_SWITCH 194 0 |>.event
      196 0).logAct p 0 0
  else c

/-! ## Memory stacks (R412 to R414) -/

/-- Some stack runs four-fold refresh: HOT_REF (R414, R415). -/
def Chip.hotRefEval (c : Chip) (s : Nat) : Chip :=
  let on := (c.stack s).hot ∨ c.b (F.INT_TEMP_DOSE_REF.ix 4 s)
  let c1 := c.s (F.INT_TEMP_REF4.ix 4 s) (if on then 1 else 0)
  let any := (List.range 8).any (fun i => c1.b (F.INT_TEMP_REF4.ix 4 i))
  if any ∧ !c1.b F.INT_STAT_HOT_REF then (c1.s F.INT_STAT_HOT_REF 1).event 199 (16 + s) else c1.s F.INT_STAT_HOT_REF any.toNat

/-- STACK_TEMP_READ (R414): every 1 ms a stack's junction temperature is read. -/
def Chip.stackTemp (c : Chip) (s : Nat) (t : Int) : Chip :=
  let x := c.stack s
  if c.tick < x.readAt then c
  else
    let cool := if t < 100 then some (x.coolSince.getD c.tick) else none
    let hot : Bool := if 105 < t then true else x.hot && !(match cool with
      | some k => decide (k + sTicks ≤ c.tick)
      | none => false)
    let c1 := (c.modStack s (fun y => { y with readAt := c.tick + msTicks, coolSince := cool, hot := hot })).s (F.INT_TEMP_TEMP.ix 4 s) (patternOf 8 t)
    let c2 := c1.hotRefEval s
    if 125 < t ∧ signedOf 8 (c.g (F.INT_TEMP_TEMP.ix 4 s)) ≤ 125 then c2.logAct s (patternOf 64 t) 0 else c2

/-- Corrected beats of the last hour (R413). -/
def Chip.ceHour (c : Chip) (s : Nat) : Nat := ((c.stack s).ces.filter (fun t => decide (c.tick < t + hourTicks))).length

/-- DOSE_REFRESH_CHANGE (R413). -/
def Chip.doseRefresh (c : Chip) (s : Nat) : Chip :=
  let f := F.INT_TEMP_DOSE_REF.ix 4 s
  let t := signedOf 8 (c.g (F.INT_TEMP_TEMP.ix 4 s))
  let c0 := c.s (F.INT_TEMP_CE_HOUR.ix 4 s) (c.ceHour s)
  let put := fun (v : Nat) => ((((c0.s f v).event 200 (16 + s)).logAct s (1 - v) v).hotRefEval s)
  if c.b f then
    if !c.b F.INT_CTL_ADAPT_REF ∨ (c.ceHour s < 2000 ∧ (c.stack s).highUntil + dayTicks ≤ c.tick) then put 0 else c0
  else if c.b F.INT_CTL_ADAPT_REF ∧ 10000 < c.ceHour s ∧ t ≤ 105 then put 1
  else c0

/-- A page of Wake leaves use with what it holds: to its readers it is as a recycled page (R330, R412). -/
def Chip.dropPage (c : Chip) (n : Nat) : Chip :=
  let old := c.wpage n
  let c1 := if old.valid ∨ old.open_ then
      c.modWake (fun w => { w with chain := AMap.upd (always []) w.chain old.group (fun l => l.erase n),
                                   lostTo := AMap.upd (always 0) w.lostTo old.group (max (if old.valid then old.last + 1 else 0)) })
    else c
  c1.setPage n { WPage.init with bad := true }

/-- Pages withdrawn from the other stacks when one is taken out (R412): the highest ones still in use. -/
def Chip.withdrawn (c : Chip) (s : Nat) : List Nat :=
  (((List.range 20480).map (fun i => wakePages - 1 - i)).filter (fun p =>
    p % 8 ≠ s && !c.b (F.INT_TEMP_OUT.ix 4 (p % 8)) && !(c.wpage p).bad)).take 256

/-- Pages of a stack are retired, which the non-volatile memory keeps (R400, R412). -/
def Chip.retireAll (c : Chip) (s : Nat) (pages : List Nat) : Chip :=
  let new := pages.filter (fun p => !(c.mem (16 + s)).retired.contains p)
  (c.modMem (16 + s) (fun x => { x with retired := x.retired ++ new })).sat (memFld F.INT_MEM3_RETIRED (16 + s)) new.length

/-- A stack is taken out (R412). -/
def Chip.stackOut (c : Chip) (s : Nat) : Chip :=
  let c1 := ((c.s (F.INT_TEMP_OUT.ix 4 s) 1).s F.INT_STUP_WAKE_FAIL (Nat.lor (c.g F.INT_STUP_WAKE_FAIL) (2 ^ s))).event 198 (16 + s)
  let mine := (c1.wake.pages.map (·.1)).filter (fun p => p % 8 = s ∧ p < wakePages)
  let gone := c.withdrawn s
  let c2 := (mine ++ gone).foldl Chip.dropPage c1
  let c3 := gone.foldl (fun c p => c.retireAll (p % 8) [p]) (c2.retireAll s ((List.range 7936).map (fun i => 8 * i + s)))
  let c4 := (((c3.flag F.WKE_STAT_PAGE_RETIRED 132 (16 + s)).flag F.INT_STAT_RETIRE 181 (16 + s)).logAct s 0 1).degradedEval
  c4.coreMismatch (c4.g F.INT_CORE_ACTIVE_PAIR)

/-- STACK_SEFI (R412): a stack loses function and its interface retrains; pages come from the other stacks meanwhile. -/
def Chip.stackSefi (c : Chip) (s : Nat) : Chip :=
  if c.b (F.INT_TEMP_OUT.ix 4 s) ∨ (c.stack s).sefiAt.isSome then c
  else
    let c1 := c.modStack s (fun x => { x with sefiAt := some c.tick })
    (c1.modWake (fun w => { w with noAlloc := w.noAlloc ++ [s] })).flag F.INT_STAT_STACK_SEFI 197 (16 + s)

/-- STACK_RETRAIN_END (R412): accesses resume; after a failure it retrains again, and the third failure in 1 s takes the
stack out. -/
def Chip.stackRetrainEnd (c : Chip) (s : Nat) (ok : Bool) : Chip :=
  match (c.stack s).sefiAt with
  | none => c
  | some _ =>
    if ok then
      (c.modStack s (fun x => { x with sefiAt := none })).modWake (fun w => { w with noAlloc := w.noAlloc.filter (· ≠ s) })
    else
      let fs := c.tick :: (c.stack s).fails.filter (fun t => decide (c.tick < t + sTicks))
      if 3 ≤ fs.length then (c.modStack s (fun x => { x with sefiAt := none, fails := fs })).stackOut s
      else c.modStack s (fun x => { x with sefiAt := some c.tick, fails := fs })

/-! ## Start-up self-test (R401) -/

/-- PASS and BUSY show in INT_STAT too (R415). -/
def Chip.stupSet (c : Chip) (busy pass : Nat) : Chip :=
  (((c.s F.INT_STUP_BUSY busy).s F.INT_STUP_PASS pass).s F.INT_STAT_STUP_BUSY busy).s F.INT_STAT_STUP_PASS pass

/-- The test clears the queues and Wake, and with them the time index and the mark queue (R401); retired pages stay so. -/
def Chip.eraseData (c : Chip) : Chip :=
  let pages := c.wake.pages.filter (fun p => p.2.bad)
  let lost := c.wake.pages.foldl (fun m p => if p.2.valid then AMap.upd (always 0) m p.2.group (max (p.2.last + 1)) else m) c.wake.lostTo
  let c1 := c.modWake (fun w => { w with pages := pages.map (fun p => (p.1, { WPage.init with bad := true })), chain := [], lostTo := lost, windows := [], trailers := [] })
  let c2 := c1.modQue (fun q => { q with dcq := [], lq := AMap.mapV (always LQueue.init) q.lq (fun x => { x with buckets := [], late := [] }), items := [] })
  ([0, 1, 2, 5] ++ (List.range 8).map (16 + ·)).foldl (fun c m => c.modMem m (fun x => { x with errs := [], suspects := [], tests := [] }))
    ((c2.modInt (fun i => { i with rebuild := [] })).poolEval)

/-- The start-up self-test starts; after a reset it erases every memory. -/
def Chip.stupStart (c : Chip) (afterReset : Bool) : Chip :=
  let c1 := ((c.stupSet 1 0).modInt (fun i => { i with stup := some afterReset })).eraseData
  if afterReset then c1.modInt (fun i => { i with mems := AMap.mapV (always MemX.init) i.mems (fun m => { m with errs := [], suspects := [], tests := [] }) }) else c1

/-- STUP_GO (R401): ignored during a run; a test that runs goes on. -/
def Chip.stupGo (c : Chip) : Chip := if c.run ∨ c.int.stup.isSome then c else c.stupStart false

/-- STARTUP_SELF_TEST_END (R401). -/
def Chip.stupEnd (c : Chip) (x : StupFind) : Chip :=
  match c.int.stup with
  | none => c
  | some _ =>
    let c0 := x.corrupt.foldl (fun c e => c.modMem e.1 (fun m => { m with remaps := m.remaps.erase e.2 })) c
    let c1 := x.bad.foldl (fun c e =>
      if wordExists e.1 e.2 then
        let c' := ((c.sat (memFld F.INT_MEM1_LASTING e.1)).flag F.INT_STAT_LASTING 178 e.1).elogPush 3 4 e.1 0 e.2
        c'.install e.1 e.2 4
      else c) c0
    let c2 := x.checkers.foldl (fun c e => if isStack e.1 then c else c.checkerOut e.1 e.2) c1
    let outs := (List.range 8).foldl (fun n s => if c2.b (F.INT_TEMP_OUT.ix 4 s) then Nat.lor n (2 ^ s) else n) (x.badStacks % 256)
    let c3 := (c2.s F.INT_STUP_WAKE_FAIL outs).modInt (fun i => { i with stup := none })
    let pass := if outs = 0 then 1 else 0
    ((c3.stupSet 0 pass).event (if outs = 0 then 201 else 202) 0).degradedEval

/-! ## Requesters (R388) -/

/-- A leaf engine's next read of the pool finds an uncorrectable record word, or link word of a bucket list: a STATUS
element takes the place of what is discarded. -/
def Chip.poolUe (c : Chip) (e a : Nat) (link : Bool) : Chip :=
  let x := c.engOf e
  let ord := (c.grp x.group).orderLog
  let lo := x.bucket * 2 ^ ord
  let hi := lo + 2 ^ ord - 1
  let q := ((x.inputs.drop x.input).filter (fun w => decide (w < 0x8000))).map streamQueue |>.find? (fun q => AMap.get (always []) (c.lq q).buckets x.bucket ≠ [])
  match q with
  | none => c
  | some q =>
    let l := AMap.get (always []) (c.lq q).buckets x.bucket
    let (ep, c1) := (c.ueRead 0 a).free 8
    let gone := if link then l else l.take 1
    let n := (gone.filter (fun el => match el with
      | .hit _ _ _ => true
      | _ => false)).length
    let l' := QElem.status .crcErr ep n lo hi :: (if link then [] else l.drop 1)
    (c1.modLq q (fun y => { y with buckets := AMap.set (always []) y.buckets x.bucket l' })).depthEval q

/-- The pool's read of a dual-clock queue finds an uncorrectable block: it is discarded as a lost block, and the item it
belongs to closes as TRUNC (R277, R388). -/
def Chip.dcqUe (c : Chip) (p a : Nat) : Chip :=
  let c0 := c.poolStatus p
  match c0.dcq p with
  | RxItem.block b :: r =>
    let c1 := ((((c0.ueRead 1 a).setDcq p r).sat (F.QUE_DCQ_LOST.ix 4 p)).flag F.QUE_STAT_DCQ_DROP 97 p).event 53 p
    let c2 := match c1.item p with
      | some o => if b.isData ∨ b.is .pktEnd then c1.setItem p (some { o with drop := true, trunc := true }) else c1
      | none => c1
    c2.poolStatus p
  | _ => c0

/-- The mark extractor finds an entry of the mark queue uncorrectable: the window is discarded and recorded as lost. -/
def Chip.windowUe (c : Chip) (e a : Nat) : Chip :=
  match c.win e with
  | some w =>
    let lanes := AMap.mapV (always Lane.init) c.egr.lanes (fun l => { l with objs := l.objs.filter (fun o => !(o.ftype == .mark && o.entry == e)) })
    ((((c.ueRead 5 a).setWin e none).modEgr (fun g => { g with lanes := lanes })).event 136 w.group).logAct w.group w.lo w.hi
  | none => c

/-- Lane sparing finds a frame of the copy buffer uncorrectable: it is not re-sent. -/
def Chip.copyUe (c : Chip) (l a : Nat) : Chip :=
  match (c.lane l).resend with
  | _ :: r => (c.ueRead 6 a).setLane l { c.lane l with resend := r }
  | [] => c

/-- Meridian steering finds a hop entry uncorrectable: the segment is STALE until its next sample (R264). -/
def Chip.hopUe (c : Chip) (ix a : Nat) : Chip :=
  let h := c.hop ix
  (c.ueRead 7 a).modMer (fun m => { m with hops := AMap.set (always Hop.init) m.hops ix { h with stale := true } })

/-- Meridian steering finds a slot word uncorrectable: WOFS comes from the working copy, D from the hop table, and
steering pauses until the next probe. -/
def Chip.slotUe (c : Chip) (slot a : Nat) : Chip :=
  let w := ((wkEntry c.work slot).map (wkWofs c.work)).getD 0
  (c.ueRead 7 a).modSlot slot (fun x => { x with wofs := w, adj := 0 })

end Sys2Proof
end

