-- ==== Sys2Proof/Machine/Rose.lean ====
section
/-!
DEFINITION. Machine/Rose.lean: the close of buckets (R287, R290), the merge engines (R296 to R298), stream moves (R299),
mark rules (R300 to R303) and the Rose table window (R307, R308).
-/
namespace Sys2Proof

/-! ## Closing buckets -/

/-- A stream whose slot can hold its group back (R287). -/
def Chip.waited (c : Chip) (q : Nat) : Bool :=
  let st := c.sg F.PRT_SLOT_STATE (q / 8)
  st == stRunning || st == stCutOff

/-- A stream becomes absent (R287). -/
def Chip.becomeAbsent (c : Chip) (q : Nat) : Chip :=
  if (c.lq q).absent then c
  else ((c.modLq q (fun x => { x with absent := true })).flag F.RSE_STAT_ABSENT 113 (q / 8)).logAct (q / 8) 0 1

/-- The limit a stream must have reached for a group's next bucket (R287). -/
def Group.lim (gr : Group) : Nat := (gr.close + 1) * 2 ^ gr.orderLog + 256 * gr.settle

/-- Judge one member stream: the second result tells whether the bucket need not wait for it (R287). -/
def Chip.judgeStream (c : Chip) (g q : Nat) : Chip × Bool :=
  let gr := c.grp g
  if gr.lim ≤ c.streamS q then (c.modLq q (fun x => { x with absent := false }), true)
  else if (c.lq q).absent ∨ !c.waited q then (c.becomeAbsent q, true)
  else if gr.lim + 256 * gr.absentTo ≤ c.kcount then (c.becomeAbsent q, true)
  else (c, false)

/-- A group that has passed its stop point stops, and with it the last watch ends (R290, R333). -/
def Chip.groupStop (c : Chip) (g : Nat) : Chip :=
  let gr := c.grp g
  match gr.stopAt with
  | some n => if n < gr.close * 2 ^ gr.orderLog then (c.setGrp g { gr with running := false, stopAt := none }).watchStop g else c
  | none => c

/-- BUCKET_CLOSE (R287): a group closes its next bucket when no member stream holds it back. -/
def Chip.bucketClose (c : Chip) (g : Nat) : Chip :=
  let gr := c.grp g
  if !gr.valid ∨ !gr.running then c
  else
    let (c1, ready) := (c.members g).foldl (fun (a : Chip × Bool) q => let (x, ok) := a.1.judgeStream g q; (x, a.2 && ok)) (c, true)
    if ready then (c1.modGrp g (fun x => { x with close := x.close + 1 })).groupStop g else c1

/-- ABSENT_TIMEOUT (R287): a lagging stream is marked absent when ABSENT_TO has passed. -/
def Chip.absentTimeout (c : Chip) (q : Nat) : Chip :=
  match c.groupOf q with
  | some g =>
    let gr := c.grp g
    if gr.valid ∧ gr.running ∧ c.streamS q < gr.lim ∧ gr.lim + 256 * gr.absentTo ≤ c.kcount then c.becomeAbsent q else c
  | none => c

/-! ## Stream moves (R299) -/

/-- The engines from a leaf up to its root. -/
def Chip.pathUp (c : Chip) : Nat → Nat → List Nat
  | 0, _ => []
  | n + 1, e => if (c.engOf e).parent = 0xFF then [e] else e :: c.pathUp n (c.engOf e).parent

/-- The old path has emitted everything before the move's bucket: the internal EPOCH_END has passed the common parent. -/
def Chip.migPassed (c : Chip) (m : Mig) : Bool :=
  ((c.pathUp 4 m.src).takeWhile (· ≠ m.parent)).all (fun e =>
    let x := c.engOf e
    decide (m.bucket ≤ x.bucket) && (match x.out with
      | some (.bend b _ _ _) => b + 1 != m.bucket
      | _ => true))

/-- A move ends when the internal EPOCH_END passes the common parent. -/
def Chip.migCheck (c : Chip) : Chip :=
  match c.rose.mig with
  | none => c
  | some m =>
    if c.migPassed m then
      let c1 := c.modEng m.src (fun x => { x with inputs := x.inputs.map (fun i => if i = streamWord m.q then noInput else i) })
      let c2 := ((c1.modRose (fun r => { r with mig := none })).modGrp m.group (fun g => { g with migCnt := min 65535 (g.migCnt + 1) })).s F.RSE_STAT_MIG_BUSY 0
      (c2.event 118 m.group).logAct (m.q / 8) m.src m.dst
    else c

/-- Put a stream or a child on an engine's lowest free input. -/
def Eng.addInput (x : Eng) (w : Nat) : Option Eng :=
  match x.inputs.idxOf? noInput with
  | some i => some { x with inputs := x.inputs.set i w }
  | none => none

/-- Inputs of an engine with none used. -/
def freeInputs : List Nat := List.replicate 16 noInput

/-- Begin a move of stream q to a target engine, if the target may take it (R299, R307). -/
def Chip.migStart (c : Chip) (q target : Nat) : Option Chip :=
  match c.leafOf q with
  | none => none
  | some src =>
    let x := c.engOf src
    let t := c.engOf target
    if c.rose.mig.isSome ∨ target = src ∨ 224 ≤ target ∨ target < limEngFirst c.work then none
    else
      let go := fun (c : Chip) (t1 : Eng) (parent : Nat) =>
        let b := max (x.bucket + 1) (t1.bucket + 1)
        let ep := AMap.get (always 0) c.rose.epochs q + 1
        let m : Mig := ⟨q, src, target, x.group, parent, b, c.tick, false, ep⟩
        ((c.setEng target t1).modRose (fun r => { r with epochs := AMap.set (always 0) r.epochs q ep, mig := some m })).s F.RSE_STAT_MIG_BUSY 1
      if t.used then
        if t.group ≠ x.group ∨ t.level ≠ 0 then none
        else match t.addInput (streamWord q), (c.pathUp 4 src).find? (fun e => (c.pathUp 4 target).contains e) with
          | some t1, some p => some (go c t1 p)
          | _, _ => none
      else
        let p := c.engOf x.parent
        match p.addInput (0x8000 + target), (⟨true, x.group, 0, x.parent, freeInputs, x.bucket, 0, false, none, 0, 0, 0, 0⟩ : Eng).addInput (streamWord q) with
        | some p1, some t1 => some ((go (c.setEng x.parent p1) t1 x.parent).s F.RSE_STAT_ENG_USED (c.g F.RSE_STAT_ENG_USED + 1))
        | _, _ => none

/-- RSE_MIG_GO (R299, R307): GO has been written. -/
def Chip.migGo (c : Chip) : Chip :=
  let q := 8 * c.g F.RSE_MIG_SLOT + c.g F.RSE_MIG_CLS
  let c0 := c.s F.RSE_MIG_GO 0
  match c0.migStart q (c.g F.RSE_MIG_TARGET) with
  | some c1 => c1.s F.RSE_MIG_REFUSED 0
  | none => (c0.s F.RSE_MIG_REFUSED 1).event 119 (c.g F.RSE_MIG_SLOT)

/-- MIGRATION_TIMEOUT (R299): MIG_TO has expired since the move began. -/
def Chip.migTimeout (c : Chip) : Chip :=
  match c.rose.mig with
  | some m =>
    if !m.expired ∧ m.since + usTicks * max 1 (c.g F.RSE_CTL_MIG_TO) ≤ c.tick then c.modRose (fun r => { r with mig := some { m with expired := true } }) else c
  | none => c

/-- Elements per FCK millisecond that an engine can emit (R296). -/
def engPerMs : Nat := 1000000

/-- STREAM_REBALANCE (R299): the measurement of each 1 ms interval, and an autonomous move of a stream the manager has
chosen, within LIMITS. -/
def Chip.streamRebalance (c : Chip) (q target : Nat) : Chip :=
  if c.tick < c.rose.rateFrom + msTicks then c
  else
    let hot : Bool := match c.leafOf q with
      | some e => decide (90 * engPerMs < 100 * (c.engOf e).emits)
      | none => false
    let c1 := (List.range 224).foldl (fun c e =>
      let x := c.engOf e
      if x.used then (c.s (F.RSE_ENG_LOAD.ix 4 e) (min 100 (x.emits * 100 / engPerMs))).setEng e { x with emits := 0 } else c) c
    let c2 := (List.range 32).foldl (fun c g => if (c.grp g).valid then c.modGrp g (fun x => { x with rate := x.recs / 1000, recs := 0 }) else c) c1
    let c3 := c2.modRose (fun r => { r with rateFrom := c.tick })
    match c.groupOf q with
    | none => c3
    | some g =>
      let mv := (c.grp g).moves.filter (fun t => decide (c.tick < t + 3600 * sTicks))
      let gap := 10 * msTicks * max (limRebalMin c.work) (max 1 (chartF c.work secTopology 10 1))
      let soon := mv.any (fun t => decide (c.tick < t + gap))
      if !c.b F.RSE_CTL_REBAL_EN ∨ !limFlag c.work limStreamMove ∨ !hot ∨ soon ∨ limMoves c.work ≤ mv.length then c3
      else match c3.migStart q target with
        | some c4 => (c4.modGrp g (fun x => { x with moves := c.tick :: mv })).logAuto limStreamMove (q / 8) ((c.leafOf q).getD 0) target
        | none => c3

/-! ## Engines (R298) -/

/-- The stream an element belongs to. -/
def OutElem.stream : OutElem → Option Nat
  | .hit s _ _ _ _ => some (8 * s)
  | .sight s _ _ _ => some (8 * s + 1)
  | .status s _ _ _ _ _ => some (8 * s)
  | .bend _ _ _ _ => none

/-- An element as a leaf reads it. -/
def QElem.out (el : QElem) (slot : Nat) (late : Bool) : OutElem :=
  match el with
  | .hit mr count r => .hit slot mr late count r
  | .sight count t => .sight slot late count t
  | .status st e n lo hi => .status slot st e n lo hi

/-- The next element of a stream in the emission of bucket k: late elements first, then bucket list k (R289). A late
element written once bucket list k has been begun waits for the next bucket. -/
def Chip.readStream (c : Chip) (q k : Nat) (inList : Bool) : Option (OutElem × Chip) :=
  let x := c.lq q
  if x.flushing then none
  else match if inList then [] else x.late with
    | el :: r => some (el.out (q / 8) true, (c.setLq q { x with late := r }).depthEval q)
    | [] => match AMap.get (always []) x.buckets k with
      | el :: r => some (el.out (q / 8) false, (c.setLq q { x with buckets := AMap.set (always []) x.buckets k r }).depthEval q)
      | [] => none

/-- What a stream move does to a leaf's input in bucket k: the input is read, left out, or holds the engine (R299). -/
inductive MigRead
  | read | leave | hold
  deriving DecidableEq, Repr

def Chip.migRead (c : Chip) (e q k : Nat) : MigRead :=
  match c.rose.mig with
  | some m =>
    if m.q ≠ q then .read
    else if e = m.src then (if m.bucket ≤ k then .leave else .read)
    else if e = m.dst then (if k < m.bucket then .leave else if m.expired then .read else .hold)
    else .read
  | none => .read

/-- An old-path element that reaches the common parent after it has stopped waiting (R299). -/
def Chip.oldPath (c : Chip) (e child : Nat) (el : OutElem) : Bool :=
  match c.rose.mig with
  | some m => m.parent == e && m.expired && el.stream == some m.q && (c.pathUp 4 m.src).contains child
  | none => false

/-- Put an element into an engine's output. -/
def Chip.engOut (c : Chip) (e : Nat) (el : OutElem) : Chip :=
  c.modEng e (fun x =>
    let late : Nat := match el with
      | .hit _ _ l _ _ => l.toNat
      | .sight _ l _ _ => l.toNat
      | _ => 0
    let n : Nat := match el with
      | .hit _ _ _ _ _ => 1
      | _ => 0
    { x with out := some el, n := x.n + n, late := x.late + late, emits := x.emits + 1 })

/-- The bucket end of an engine (R297, R298). -/
def Chip.engEnd (c : Chip) (e : Nat) : Chip :=
  let x := c.engOf e
  c.setEng e { x with out := some (.bend x.bucket x.n x.late x.absent), bucket := x.bucket + 1, input := 0, inList := false, n := 0, late := 0, absent := 0, emits := x.emits + 1 }

/-- One emission of an engine: it goes through its inputs from where it is until it has an element to emit (R298). -/
def Chip.engRun : Nat → Chip → Nat → Chip
  | 0, c, _ => c
  | fuel + 1, c, e =>
    let x := c.engOf e
    let next := fun (c : Chip) => c.modEng e (fun y => { y with input := y.input + 1, inList := false })
    if 16 ≤ x.input then c.engEnd e
    else
      let w := x.inputs.getD x.input noInput
      if w = noInput then Chip.engRun fuel (next c) e
      else if w < 0x8000 then
        let q := streamQueue w
        match c.migRead e q x.bucket with
        | .hold => c
        | .leave => Chip.engRun fuel (next c) e
        | .read =>
          match c.readStream q x.bucket x.inList with
          | some (el, c1) => (c1.engOut e el).modEng e (fun y => { y with inList := x.inList || (c.lq q).late = [] })
          | none => Chip.engRun fuel (next (if (c.lq q).absent then c.modEng e (fun y => { y with absent := y.absent + 1 }) else c)) e
      else
        let child := w % 256
        match (c.engOf child).out with
        | none => c
        | some (.bend _ _ _ abs) =>
          let c1 := c.modEng child (fun y => { y with out := none })
          Chip.engRun fuel (next (c1.modEng e (fun y => { y with absent := y.absent + abs }))) e
        | some el =>
          let c1 := c.modEng child (fun y => { y with out := none })
          if c.oldPath e child el then
            ((c1.modGrp x.group (fun g => { g with migLate := min 65535 (g.migLate + 1) })).flag F.RSE_STAT_MIG_LATE 115 x.group)
          else c1.engOut e el

/-- The root's output goes to Wake; late elements are counted (R296, R297, R307). -/
def Chip.rootOut (c : Chip) (e : Nat) : Chip :=
  let x := c.engOf e
  match x.out with
  | none => c
  | some el =>
    let k := match el with
      | .bend b _ _ _ => b
      | _ => x.bucket
    let late : Bool := match el with
      | .hit _ _ l _ _ => l
      | .sight _ l _ _ => l
      | _ => false
    let rec_ : Nat := match el with
      | .hit _ _ _ _ _ => 1
      | _ => 0
    let c1 := (c.setEng e { x with out := none }).modGrp x.group (fun g => { g with recs := g.recs + rec_ })
    let c2 := if late then (c1.modGrp x.group (fun g => { g with glate := min (2 ^ 32 - 1) (g.glate + 1) })).flag F.RSE_STAT_LATE 112 x.group else c1
    c2.wakeStore x.group k el

/-- ENGINE_EMIT (R298): an engine emits one element of a closed bucket, or the bucket end, once its parent has accepted
the one before; writes to a page of a stack that retrains stall (R412). -/
def Chip.engineEmit (c : Chip) (e : Nat) : Chip :=
  let x := c.engOf e
  let stalled : Bool := x.level == 2 && (match (c.chainOf x.group).getLast? with
    | some n => (c.wpage n).open_ && c.wake.noAlloc.contains (n % 8)
    | none => false)
  if !x.used ∨ x.out.isSome ∨ (c.grp x.group).close ≤ x.bucket ∨ stalled then c
  else
    let c1 := Chip.engRun 17 c e
    (if x.level = 2 then c1.rootOut e else c1).migCheck

/-! ## Mark rules (R300 to R303) -/

/-- A table word is in force (R388). -/
def Chip.inForce (c : Chip) (tbl ix : Nat) : Bool := !c.rose.off.contains (tbl, ix)

/-- The tile sets of a global tile (R300). -/
def Chip.tileSets (c : Chip) (tile : Nat) : List Nat :=
  if c.inForce 0 tile then ((mrSets c.work tile).filter (· ≠ 0xFF)).eraseDups else []

/-- The window W of a tile set (R300). -/
def Chip.setW (c : Chip) (set : Nat) : Nat := (mrWindow c.work set).getD 0

/-- The count of a tile set in fast-path cycle `a` (R301). -/
def setCount (l : List (Nat × Nat)) (w a : Nat) : Nat :=
  min 1023 ((l.filter (fun x => x.1 ≤ a && a < x.1 + w)).foldl (fun n x => n + x.2) 0)

/-- The present count of a tile set (R301, R308). -/
def Chip.tileCount (c : Chip) (set a : Nat) : Nat :=
  if c.inForce 1 set then setCount (AMap.get (always []) c.rose.counts set) (c.setW set) a else 0

/-- A term of a rule: its kind, tile set and multiplicity; 0 is taken as 1 (R308). -/
def termOf (w : Nat) : Nat × Nat × Nat := (bitsOf w 31 30, bitsOf w 29 22, max 1 (bitsOf w 9 0))

/-- The terms of a rule that are in use. -/
def Chip.terms (c : Chip) (r o : Nat) : List (Nat × Nat × Nat × Nat) :=
  (List.range 16).filterMap (fun j =>
    let (k, s, m) := termOf (mrTerm c.work o j)
    if k = 0 then none else some (j, k, s, m)) |>.filter (fun _ => r < 256)

/-- A term is true in a cycle: the set's count is at least M (R300). -/
def Chip.termTrue (c : Chip) (r : Nat) (t : Nat × Nat × Nat × Nat) (a : Nat) : Bool :=
  c.inForce 2 (16 * r + t.1) && decide (t.2.2.2 ≤ c.tileCount t.2.2.1 a)

/-- A rule's condition in a cycle (R300). -/
def Chip.ruleCond (c : Chip) (r o a : Nat) : Bool :=
  let ts := c.terms r o
  let k := chartF c.work secMarkRules (o + 1) 1 % 16
  (ts.filter (fun t => t.2.1 = 1)).all (fun t => c.termTrue r t a) &&
  (ts.filter (fun t => t.2.1 = 3)).all (fun t => !c.termTrue r t a) &&
  decide (k ≤ ((ts.filter (fun t => t.2.1 = 2)).filter (fun t => c.termTrue r t a)).length)

/-- A rule is enabled and in force (R300, R388). -/
def Chip.ruleOn (c : Chip) (r : Nat) : Bool :=
  bitOf (c.g (F.RSE_RULE_EN_EN.ix 4 (r / 32))) (r % 32) && (List.range 7).all (fun w => c.inForce 3 (8 * r + w))

/-- Pulse a MARK_OUT line; cycle 9 of the fast path is its edge (R303, R304). -/
def Chip.markOut (c : Chip) (i : Nat) : Chip :=
  let stop := c.tick + 9 + max 1 (c.g F.RSE_CTL_MOUT_W)
  let old := match i with
    | 0 => c.rose.mout0
    | 1 => c.rose.mout1
    | 2 => c.rose.mout2
    | _ => c.rose.mout3
  let c1 := c.modRose (fun r => match i with
    | 0 => { r with mout0 := some stop }
    | 1 => { r with mout1 := some stop }
    | 2 => { r with mout2 := some stop }
    | _ => { r with mout3 := some stop })
  if old.isSome then c1.flag F.RSE_STAT_MOUT_MERGED 117 0 else c1

/-- MARK_OUT_PULSE_END (R303): a line's pulse has lasted MOUT_W cycles. -/
def Chip.markOutEnd (c : Chip) (i : Nat) : Chip :=
  let f := fun (x : Option Nat) => match x with
    | some t => if t ≤ c.tick then none else x
    | none => none
  c.modRose (fun r => match i with
    | 0 => { r with mout0 := f r.mout0 }
    | 1 => { r with mout1 := f r.mout1 }
    | 2 => { r with mout2 := f r.mout2 }
    | _ => { r with mout3 := f r.mout3 })

/-- The level of a MARK_OUT ball, inverted by MOUT_INV (R303, R307). -/
def Chip.markOutPin (c : Chip) (i : Nat) : Bool :=
  let x := match i with
    | 0 => c.rose.mout0
    | 1 => c.rose.mout1
    | 2 => c.rose.mout2
    | _ => c.rose.mout3
  x.isSome != bitOf (c.g F.RSE_CTL_MOUT_INV) i

/-- MOUT_TEST (R307): one pulse on each line written with 1. -/
def Chip.moutTest (c : Chip) (mask : Nat) : Chip := (((List.range 4).filter (bitOf mask)).foldl Chip.markOut c).s F.RSE_CTL_MOUT_TEST 0

def Chip.ruleSt (c : Chip) (r : Nat) : RuleSt := AMap.get (always ⟨none, 0, 0⟩) c.rose.rules r
def Chip.setRule (c : Chip) (r : Nat) (x : RuleSt) : Chip := c.modRose (fun s => { s with rules := AMap.set (always ⟨none, 0, 0⟩) s.rules r x })

/-- A rule fires (R302, R303): it is held, or counted, and forms a mark on every PRESCALE-th counted fire. -/
def Chip.ruleFire (c : Chip) (r o stamp : Nat) : Chip :=
  let x := c.ruleSt r
  let f := fun (b n : Nat) => chartF c.work secMarkRules (o + b) n
  let heldOff : Bool := match x.lastMark with
    | some t => decide (c.tick ≤ t + f 4 2)
    | none => false
  if heldOff then (c.setRule r { x with held := (x.held + 1) % 2 ^ 32 }).flag F.RSE_STAT_RULE_HELD 116 0
  else
    let n := (x.fires + 1) % 2 ^ 32
    let pre := f 6 2
    if 1 < pre ∧ n % pre ≠ 0 then c.setRule r { x with fires := n }
    else
      let c1 := (c.setRule r { x with fires := n, lastMark := some c.tick }).event 120 0
      let c2 := ((List.range 4).filter (bitOf (f 2 1))).foldl Chip.markOut c1
      c2.submitMark ⟨some r, 1600 * stamp, bitsOf (f 8 4) 16 0, bitsOf (f 12 4) 16 0, f 16 4⟩ (bitOf (f 3 1) 6)

/-- A sighting in the fast path: the sets its tiles add to, with the number of tiles, and its extended STAMP. -/
def Chip.sightSets (c : Chip) (p : Nat) (b : Block) : List Nat × Nat :=
  match c.slotAt p b.pos with
  | none => ([], 0)
  | some slot =>
    let tiles := (List.range 64).filter (bitOf (b.f 106 43))
    (tiles.flatMap (fun t => c.tileSets (64 * slot + t)), c.extendTo 40 (b.f 42 3))

/-- SIGHTING_ARRIVAL (R301 to R304): the sightings of this fast-path cycle are counted, and the rules evaluated. -/
def Chip.sightingArrival (c : Chip) : Chip :=
  let a := c.tick
  let ss := c.rose.sights.map (fun s => c.sightSets s.1 s.2)
  let c0 := c.modRose (fun r => { r with sights := [] })
  let added := ss.flatMap (·.1)
  let sets := added.eraseDups
  let c1 := sets.foldl (fun c s =>
    let add := fun (l : List (Nat × Nat)) => l.filter (fun x => a ≤ x.1 + c.setW s) ++ [(a, (added.filter (· = s)).length)]
    c.modRose (fun r => { r with counts := AMap.upd (always []) r.counts s add })) c0
  if !c.run then c1
  else
    (List.range 256).foldl (fun c2 r =>
      match mrRule c.work r with
      | none => c2
      | some o =>
        let own := (c.terms r o).filter (fun t => t.2.1 ≠ 3) |>.map (fun t => t.2.2.1)
        let by_ := ss.filter (fun s => s.1.any own.contains)
        match (by_.map (·.2)).min? with
        | none => c2
        | some stamp => if c.ruleOn r ∧ c1.ruleCond r o a ∧ !c.ruleCond r o (a - 1) then c2.ruleFire r o stamp else c2) c1

/-- TILE_SET_EXPIRY (R301): contributions W cycles old leave a set's count. -/
def Chip.tileExpiry (c : Chip) (set : Nat) : Chip :=
  c.modRose (fun r => { r with counts := AMap.upd (always []) r.counts set (fun l => l.filter (fun x => c.tick < x.1 + c.setW set + 1)) })

/-! ## Table window and group registers (R307, R308) -/

/-- The word RSE_TBL_ADDR selects (R308). -/
def Chip.rseTblRead (c : Chip) : Word :=
  let ix := c.g F.RSE_TBL_ADDR_INDEX
  let w := fun (n : Nat) => BitVec.ofNat 32 n
  match c.g F.RSE_TBL_ADDR_TBL with
  | 0 => match mrSets c.work ix with
    | [] => w 0xFFFFFFFF
    | l => w (l.foldl (fun a b => a * 256 + b) 0)
  | 1 => if ix < 255 then w (at_ 25 16 (c.tileCount ix c.tick) + (c.setW ix - 1)) else 0
  | 2 => if ix < 4096 then (match mrRule c.work (ix / 16) with
      | some o => w (mrTerm c.work o (ix % 16))
      | none => 0) else 0
  | _ =>
    let r := ix / 8
    if 2048 ≤ ix then 0
    else match ix % 8, mrRule c.work r with
      | 5, _ => w (c.ruleSt r).fires
      | 6, _ => w (c.ruleSt r).held
      | _, none => 0
      | j, some o =>
        let f := fun (b n : Nat) => chartF c.work secMarkRules (o + b) n
        match j with
        | 0 => w (at_ 31 28 (f 1 1) + at_ 27 24 (f 2 1) + at_ 23 23 (bitOf (f 3 1) 6).toNat + at_ 15 0 (f 4 2))
        | 1 => w (f 6 2)
        | 2 => w (f 8 4)
        | 3 => w (f 12 4)
        | 4 => w (f 16 4)
        | _ => 0

/-- Streams of a group absent now (R307). -/
def Chip.nAbsent (c : Chip) (g : Nat) : Nat := ((c.members g).filter (fun q => (c.lq q).absent)).length

/-- Word w of RSE_GRP[g], and what its read captures (R307). -/
def Chip.grpRead (c : Chip) (g w : Nat) : Word × Chip :=
  let x := c.grp g
  let v := fun (n : Nat) => BitVec.ofNat 32 n
  if !x.valid then (0, c)
  else
    let start := x.close * 2 ^ x.orderLog
    match w with
    | 0 => (v (at_ 31 31 1 + at_ 30 30 x.marked.toNat + at_ 29 26 x.orderLog + at_ 23 16 x.root + at_ 10 0 x.streams), c)
    | 1 => (v (at_ 31 16 x.settle + at_ 15 0 x.absentTo), c)
    | 2 => (v (at_ 15 0 x.quietLag), c)
    | 3 => (v (start / 2 ^ 32), c.modRose (fun r => { r with closeLow := start % 2 ^ 32 }))
    | 4 => (v c.rose.closeLow, c)
    | 5 => (v (at_ 31 16 (min 65535 x.rate) + at_ 15 0 (min 65535 (c.nAbsent g))), c)
    | 6 => (v x.glate, c)
    | _ => (v (at_ 31 16 x.migLate + at_ 15 0 x.migCnt), c)

end Sys2Proof
end

