-- ==== Sys2Proof/Machine/ChartCheck.lean ====
section
/-!
DEFINITION. Machine/ChartCheck.lean: the consistency check (R377, R378), the start and the stop of a run (R290, R357),
and the target value (R379).
-/
namespace Sys2Proof

/-- What the check sees of the interlock (R378, codes 0x70 to 0x72): a latched fault; its self-test not passed or SAFE_SEL
invalid; the input reserved for the bias-slope measurement. -/
structure IlkView where
  fault : Bool
  bad : Bool
  input : Option Nat
  deriving DecidableEq, Repr

namespace Check

/-- The first of a range for which a condition holds. -/
def firstOf (n : Nat) (p : Nat → Bool) : Option Nat := (List.range n).find? p

/-! ## Topology (0x20 to 0x26) -/

def counts (g : Image) (n : Nat) : Bool :=
  let e := topNEven g n
  let o := topNOdd g n
  match topCfg g n with
  | 0 => e == 0 && o == 0
  | 1 => 1 ≤ e && e ≤ 16 && o == 0
  | 2 => 1 ≤ e && e ≤ 8 && o == 0
  | 3 => e == 0 && 1 ≤ o && o ≤ 8
  | 4 => 1 ≤ e && e ≤ 8 && 1 ≤ o && o ≤ 8
  | _ => false

def policy (g : Image) (n : Nat) : Bool :=
  let e := topNEven g n
  topPolicy g n < 2 && topHome g n ≤ e && limSplitLo g n ≤ limSplitHi g n && limSplitLo g n ≤ e && limRebalMin g ≤ chartF g secTopology 10 1

/-- The slots R36 gives a pair of a configuration. -/
def slotAllowed (g : Image) (s : Nat) : Bool :=
  let k := s % 16
  match topCfg g (s / 16) with
  | 1 | 4 => true
  | 2 => decide (k < 8)
  | 3 => decide (8 ≤ k)
  | _ => false

def workers (g : Image) : Option Nat :=
  (firstOf (wkCount g) (fun i => !slotAllowed g (wkSlot g i) || (i ≠ 0 && wkSlot g i ≤ wkSlot g (i - 1)))).map (wkSlot g)

/-- The workers listed for a pair are as many as N_EVEN and N_ODD say. -/
def listed (g : Image) (n : Nat) : Bool :=
  let l := ((List.range (wkCount g)).map (wkSlot g)).filter (fun s => s / 16 == n)
  let lo := (l.filter (fun s => s % 16 < 8)).length
  let hi := l.length - lo
  match topCfg g n with
  | 1 => l.length == topNEven g n
  | _ => lo == topNEven g n && hi == topNOdd g n

/-- A used pair that has not finished its enumeration. -/
def enumOpen (c : Chip) (n : Nat) : Bool := topCfg c.work n ≠ 0 && !c.b (pairFld F.PRT_LOOP_STAT_ENUM_DONE n)

/-- ROLE needs a peer port that is not in service. -/
def peerDown (c : Chip) : Option Nat :=
  let prim := bitOf (chartF c.work secTime 2 1) 5 |>.toNat
  match chartF c.work secTime 0 1 with
  | 0 => none
  | 1 => if c.up 128 ∨ c.up 129 then none else some 0
  | _ => if c.up (128 + prim) then none else some prim

def hidxBad (g : Image) : Bool :=
  let h := timeHidx g
  if chartF g secTime 0 1 < 2 then h ≠ 0 else h = 0 || 31 < h

/-! ## Time (0x30 to 0x33) -/

def sourceBad (g : Image) : Bool :=
  let src := chartF g secTime 1 1
  if chartF g secTime 0 1 = 2 then src < 3 else 2 < src

def skewBad (c : Chip) : Option Nat := firstOf (timeNSkew c.work) (fun i => !c.segNamed (chartF c.work secTime (36 + 4 * i) 2))

/-! ## Queues and trees (0x40 to 0x47) -/

/-- The queues of listed slots. -/
def queues (g : Image) : List Nat := (List.range (wkCount g)).flatMap (fun i => (List.range 8).map (8 * wkSlot g i + ·))

def queueBad (g : Image) (q : Nat) : Bool :=
  let p := qParam g q
  q % 8 < 5 && p.max ≠ 0 && !(p.guar ≤ p.max && p.lwm < p.hwm && p.hwm ≤ p.full && p.full ≤ p.max)

/-- The engine records, with their numbers, and the group records. -/
def engs (g : Image) : List (Nat × Eng) := (List.range (roseNEng g)).map (engRecord g)
def grps (g : Image) : List (Nat × Group) := (List.range (roseNGroups g)).map (grpRecord g)

/-- The streams an engine reads. -/
def streamsOf (x : Eng) : List Nat := if x.level = 0 then (x.inputs.filter (· ≠ noInput)).map streamQueue else []

/-- The children an engine reads. -/
def childrenOf (x : Eng) : List Nat := if x.level = 0 then [] else (x.inputs.filter (· ≠ noInput)).map (· % 256)

def streamBad (g : Image) : Option Nat :=
  (((engs g).flatMap (fun e => streamsOf e.2)).find? (fun q => (wkEntry g (q / 8)).isNone || (qParam g q).max == 0)).map (· / 8)

def groupStreams (g : Image) (k : Nat) : Nat := (((engs g).filter (fun e => e.2.group == k)).flatMap (fun e => streamsOf e.2)).length

/-- Groups in order, with the streams of those before: above 1,024, not STREAMS, or above 2,048 in all. -/
def streamCount (g : Image) : Nat → List (Nat × Group) → Option Nat
  | _, [] => none
  | sum, (k, x) :: r =>
    let n := groupStreams g k
    if 1024 < n ∨ n ≠ x.streams ∨ 2048 < sum + n then some k else streamCount g (sum + n) r

/-- The engines from one up to the one without a parent; a cycle runs out of fuel. -/
def chainUp (l : List (Nat × Eng)) : Nat → Nat → List Nat
  | 0, _ => []
  | n + 1, e => match l.find? (fun x => x.1 == e) with
    | some x => if x.2.parent = 0xFF then [e] else
        match chainUp l n x.2.parent with
        | [] => []
        | r => e :: r
    | none => []

/-- An engine record, the i-th, that makes a tree malformed. -/
def engineBad (g : Image) (l : List (Nat × Eng)) (i : Nat) (e : Nat × Eng) : Bool :=
  let x := e.2
  let before := l.take i
  let kids := childrenOf x
  before.any (fun y => y.1 == e.1) ||
  (streamsOf x).any (fun q => (streamsOf x).count q ≠ 1 || before.any (fun y => (streamsOf y.2).contains q)) ||
  (decide (x.level = 2) != decide (x.parent = 0xFF)) ||
  (x.parent ≠ 0xFF && !l.any (fun y => y.1 == x.parent && y.2.group == x.group && (childrenOf y.2).count e.1 == 1)) ||
  kids.any (fun k => kids.count k ≠ 1 || !l.any (fun y => y.1 == k && y.2.parent == e.1)) ||
  (chainUp l 225 e.1).isEmpty ||
  (grps g).any (fun r => r.2.root == e.1 && x.level ≠ 2)

def treeBad (g : Image) : Option Nat :=
  let l := engs g
  (firstOf l.length (fun i => (l[i]?.map (engineBad g l i)).getD false)).bind (fun i => l[i]?.map (·.1))

/-- An engine whose tree does not hold the ROOT of its group. -/
def rootBad (g : Image) : Option Nat :=
  let l := engs g
  (l.find? (fun e => !(grps g).any (fun r => r.1 == e.2.group && (chainUp l 225 e.1).contains r.2.root))).map (fun e => e.2.group)

def setListed (g : Image) (s : Nat) : Bool := (mrWindow g s).isSome

def memberBad (g : Image) : Option Nat :=
  ((List.range (mrNMem g)).map (fun i => chartF g secMarkRules (8 + 8 * i) 2)).find? (fun t =>
    (wkEntry g (t / 64)).isNone || (mrSets g t).any (fun s => s ≠ 0xFF && !setListed g s))

/-- The rule records: number and offset. -/
def rules (g : Image) : List (Nat × Nat) := (List.range (mrNRule g)).map (fun i => let o := mrRuleOff g + 88 * i; (chartF g secMarkRules o 1, o))

def termBad (g : Image) : Option Nat :=
  ((rules g).find? (fun r => (List.range 16).any (fun j => let w := mrTerm g r.2 j; bitsOf w 31 30 ≠ 0 && !setListed g (bitsOf w 29 22)))).map (·.1)

/-- The mask of the groups defined. -/
def groupMask (g : Image) : Nat := (grps g).foldl (fun m r => Nat.lor m (2 ^ r.1)) 0
def namesUndefined (g : Image) (mask : Nat) : Bool := (List.range 32).any (fun k => bitOf mask k && !bitOf (groupMask g) k)

def ruleGroups (g : Image) : Option Nat := ((rules g).find? (fun r => namesUndefined g (chartF g secMarkRules (r.2 + 16) 4))).map (·.1)

/-! ## Wake and watches (0x50 to 0x53) -/

def stupBad (c : Chip) : Option Nat :=
  if c.b F.INT_STUP_PASS then none
  else some ((firstOf 8 (fun s => bitOf (c.g F.INT_STUP_WAKE_FAIL) s)).getD 8)

def markGroupsBad (g : Image) : Option Nat :=
  (firstOf 4 (fun i => namesUndefined g (chartF g secWake (28 + 20 * i) 4))).or (if namesUndefined g (wakePeerGroups g) then some 4 else none)

def watchBad (g : Image) : Option Nat :=
  ((List.range (watchN g)).map (fun i => 4 + 12 * i)).findSome? (fun o =>
    let k := chartF g secWatch o 1
    let span := chartF g secWatch (o + 4) 4
    let streaming := (grps g).any (fun r => r.1 == k && !r.2.marked)
    if !streaming ∨ span % 8 ≠ 0 ∨ span < 640 ∨ 640000000 < span ∨ span < limSpanMin g ∨ limSpanMax g < span then some k else none)

def watchMissing (g : Image) : Option Nat := ((grps g).find? (fun r => !r.2.marked && (watchRec g r.1).isNone)).map (·.1)

/-! ## Egress (0x60 to 0x65) -/

def laneOn (g : Image) (p : Nat) : Bool := bitOf (chartF g secEgress 0 2) p
def mapOf (g : Image) (l : Nat) : Nat := chartF g secEgress 28 4 / 16 ^ l % 16
def fbOf (g : Image) (l : Nat) : Nat := chartF g secEgress 32 4 / 16 ^ l % 16

def spareBad (g : Image) : Option Nat :=
  let p := chartF g secEgress 2 1
  if p = 0xFF then none
  else if !laneOn g p ∨ (firstOf 8 (fun l => mapOf g l == p)).isSome then some p else none

def mapBad (g : Image) : Option Nat :=
  firstOf 8 (fun l => let p := mapOf g l; p ≠ 15 && (!laneOn g p || (List.range l).any (fun m => mapOf g m == p)))

def destBad (g : Image) : Option Nat :=
  firstOf (egNDest g) (fun d =>
    let w := destWord g d 0
    let n := bitsOf (destWord g d 1) 15 0
    mapOf g (bitsOf w 25 23) == 15 || n % 4 ≠ 0 || n < 256 || (if bitOf w 30 then 9112 else 9132) < n)

def groupDestBad (g : Image) : Option Nat :=
  let bad := fun (d : Nat) => d ≠ 0xFF && egNDest g ≤ d
  match firstOf 32 (fun k =>
    let lacks := (grps g).any (fun r => r.1 == k && (if r.2.marked then markDest g k else watchDest g k) == 0xFF)
    lacks || bad (watchDest g k) || bad (markDest g k)) with
  | some k => some k
  | none => if bad (chartF g secEgress 24 1) ∨ bad (chartF g secEgress 25 1) then some 0 else none

def laneDown (c : Chip) : Option Nat := firstOf 8 (fun l => mapOf c.work l ≠ 15 && !c.laneUp (c.phys l) && !c.b F.EGR_STAT_SPARE_OK)

/-- Follow FALLBACK from a lane. -/
def fbChain (g : Image) : Nat → Nat → Bool
  | 0, _ => true
  | n + 1, l => if fbOf g l = 15 then false else fbChain g n (fbOf g l)

def fallbackBad (g : Image) : Option Nat := firstOf 8 (fun l => fbOf g l ≠ 15 && (mapOf g (fbOf g l) == 15 || fbChain g 8 l))

/-! ## Housekeeping (0x72, 0x90 to 0x93) -/

def nSlots (g : Image) : Nat := hkNReg g + hkNInj g
def curveOf (g : Image) (k : Nat) : Nat := chartF g secHk (8 + 4 * k) 1
def wiringOf (g : Image) (k : Nat) : Nat := chartF g secHk (9 + 4 * k) 1
def excitOf (g : Image) (k : Nat) : Nat := chartF g secHk (10 + 4 * k) 1
def isResistive (g : Image) (k : Nat) : Bool := isHkt k && 1 ≤ excitOf g k && excitOf g k ≤ 4
def isTwoWire (g : Image) (k : Nat) : Bool := isResistive g k && wiringOf g k == 2

def slotBadCfg (g : Image) (s : Nat) : Bool :=
  let k := hkSlotIn g s
  let e := excitOf g k
  let cj := e - 128
  39 < k || curveOf g k == 0 || !inCfgOk k (curveOf g k) (wiringOf g k) e ||
  (isTwoWire g k && (k % 2 ≠ 0 || curveOf g (k + 1) ≠ 0)) ||
  (isHkt k && 128 ≤ e && !(isResistive g cj && (curveOf g cj == 1 || curveOf g cj == 2 || curveOf g cj == 7)))

/-- A pair of slots, s and s + 1, that MODE 1 does not allow (R419). -/
def pairBad (g : Image) (s : Nat) : Bool :=
  hkSlotConv g s ≠ 0 || hkSlotConv g (s + 1) ≠ 1 || hkSlotCyc g s ≠ hkSlotCyc g (s + 1) || hkSlotIn g s == hkSlotIn g (s + 1)

/-- The first slot that conflicts with MODE (R419). A sequence of odd length is named by its last slot. -/
def modeBad (c : Chip) : Option Nat :=
  let g := c.work
  let n := nSlots g
  let r := hkNReg g
  let mode := chartF g secHk 0 1
  let sb := c.b F.HK_STAT_SLOPE_B
  let two := fun s => isTwoWire g (hkSlotIn g s)
  let slope := if sb ∧ mode ≠ 0 then some 0 else if sb then firstOf n (fun s => hkSlotConv g s ≠ 0) else none
  let own := match mode with
    | 0 => firstOf n (fun s => hkSlotConv g s == 2 || (List.range n).any (fun u => hkSlotIn g u == hkSlotIn g s && hkSlotConv g u ≠ hkSlotConv g s))
    | 1 => firstOf n (fun s =>
        let (i, len) := if s < r then (s, r) else (s - r, n - r)
        two s || (if i % 2 = 0 then decide (i + 1 = len) || pairBad g s else pairBad g (s - 1)))
    | _ => if r ≠ 1 then some 0 else firstOf n (fun s => if s < r then hkSlotConv g s ≠ 2 || two s else hkSlotConv g s == 2)
  match slope, own with
  | some a, some b => some (min a b)
  | a, b => a.or b

def tdacBad (c : Chip) : Option Nat :=
  if !c.b F.HK_STAT_TDAC_OK_A then some 0 else if !c.b F.HK_STAT_TDAC_OK_B then some 1 else none

/-- A verified trim set with TRIM_DIGEST has been loaded. -/
def trimLoaded (c : Chip) : Bool := c.trim ≠ [] && trailDigest c.trim == sliceBytes c.work (secOff c.work secWorkers) 64

/-! ## The check (R378) -/

def flagged (b : Bool) : Option Nat := if b then some 0 else none

/-- Every condition in ascending order of code, with its DETAIL. -/
def results (c : Chip) (v : IlkView) : List (Nat × Option Nat) :=
  let g := c.work
  [(0x20, firstOf 64 (fun n => !counts g n)), (0x21, firstOf 64 (fun n => !policy g n)), (0x22, workers g),
   (0x23, firstOf 64 (fun n => !listed g n)), (0x24, firstOf 64 (enumOpen c)), (0x25, peerDown c), (0x26, flagged (hidxBad g)),
   (0x30, flagged c.isLost), (0x31, flagged (sourceBad g)), (0x32, flagged (!c.b F.MER_STAT_SEC_SET)), (0x33, skewBad c),
   (0x40, flagged (decide (65536 < guarSum g))), (0x41, (queues g).find? (queueBad g)), (0x42, streamBad g), (0x43, streamCount g 0 (grps g)),
   (0x44, treeBad g), (0x45, rootBad g), (0x46, (memberBad g).or (termBad g)), (0x47, ruleGroups g),
   (0x50, stupBad c), (0x51, markGroupsBad g), (0x52, watchBad g), (0x53, watchMissing g),
   (0x60, spareBad g), (0x61, mapBad g), (0x62, destBad g), (0x63, groupDestBad g), (0x64, laneDown c), (0x65, fallbackBad g),
   (0x70, flagged v.fault), (0x71, flagged v.bad), (0x72, firstOf (nSlots g) (fun s => v.input == some (hkSlotIn g s))),
   (0x83, flagged (!trimLoaded c)), (0x90, flagged (decide (64 < hkNReg g ∨ 8 < hkNInj g))), (0x91, firstOf (nSlots g) (slotBadCfg g)),
   (0x92, modeBad c), (0x93, tdacBad c)]

/-- The reason of a check: (0, 0) when it passes. -/
def reason (c : Chip) (v : IlkView) : Reason :=
  if !c.b F.GBL_STAT_CHART_OK then (0x10, 0)
  else ((results c v).findSome? (fun x => x.2.map (fun d => (x.1, d)))).getD (0, 0)

end Check

/-! ## Runs (R290, R357, R377) -/

/-- RUN_EN_SET (R377): a write of 1 starts the check, unless a run is enabled or being checked. -/
def Chip.runSet (c : Chip) : Chip :=
  if c.run ∨ c.b F.GBL_STAT_CHECK_BUSY then c
  else (c.s F.GBL_STAT_CHECK_BUSY 1).modPwr (fun p => { p with checkAt := some c.tick })

/-- RUN_EN_CLEAR (R290, R377): a write of 0 abandons a check, or sets every group's stop point. -/
def Chip.runClear (c : Chip) : Chip :=
  if c.b F.GBL_STAT_CHECK_BUSY then (c.s F.GBL_STAT_CHECK_BUSY 0).modPwr (fun p => { p with checkAt := none })
  else if !c.run then c
  else
    let c1 := c.s F.GBL_CTL_RUN_EN 0
    ((List.range 32).foldl (fun c g => if (c.grp g).valid ∧ (c.grp g).running then c.modGrp g (fun x => { x with stopAt := some c1.kcount }) else c) c1).event 24 0

/-- A group starts at the bucket that holds Meridian now, with its engines (R290). -/
def Chip.groupStart (c : Chip) (g : Nat) : Chip :=
  if !(c.grp g).valid then c
  else
    let k := c.kcount / 2 ^ (c.grp g).orderLog
    let c1 := (c.watchStop g).modGrp g (fun x => { x with close := k, running := true, stopAt := none })
    (List.range 224).foldl (fun c e =>
      if (c.engOf e).used ∧ (c.engOf e).group = g then
        c.modEng e (fun x => { x with bucket := k, input := 0, inList := false, out := none, n := 0, late := 0, absent := 0 })
      else c) c1

/-- An enable of the device's own at a run's start (R165, R357). -/
def Chip.autoEnable (c : Chip) (slot : Nat) : Chip :=
  match wkEntry c.work slot with
  | some i =>
    if bitOf (wkFlags c.work i) 7 ∧ c.sg F.PRT_SLOT_STATE slot = stReady then
      let r := c.enableReason slot
      if r ≠ 0 then c.enableRefused slot r else c.ownCmd slot true 0x001 (wkGctl c.work slot) .own
    else c
  | none => c

/-- RUN_EN has been accepted (R290, R357, R377, R402). -/
def Chip.runStart (c : Chip) : Chip :=
  let c1 := (c.s F.GBL_CTL_RUN_EN 1).s F.INT_BYP_CTL_BYP_EN 0
  let c2 := c1.flushQueues (c1.heldQueues.filter (fun q => q % 8 < 2))
  let c3 := (List.range 32).foldl Chip.groupStart c2
  ((List.range 1024).foldl Chip.autoEnable c3).event 22 0

/-- CONSISTENCY_CHECK_END (R377, R378). -/
def Chip.checkEnd (c : Chip) (v : IlkView) : Chip :=
  if !c.b F.GBL_STAT_CHECK_BUSY then c
  else
    let (r, d) := Check.reason c v
    let c1 := ((c.s F.GBL_STAT_CHECK_BUSY 0).modPwr (fun p => { p with checkAt := none })).s F.GBL_STAT_REASON r
    let c2 := (c1.s F.GBL_STAT_DETAIL d).logCheck true r d
    if r = 0 then c2.runStart else c2.event 23 0

/-- TRIM_TARGET_WRITE (R379): a value outside OCC_LO to OCC_HI is not performed, and is recorded. -/
def Chip.trimTarget (c : Chip) (v : Nat) : Chip :=
  if limOccLo c.work ≤ v ∧ v ≤ limOccHi c.work then c.s F.GBL_TRIM_TGT_OCC_TGT v
  else (c.event 28 0).logCtx kRefusal 0x0100 (at_ 159 128 F.GBL_TRIM_TGT_OCC_TGT.reg + at_ 127 64 v)

end Sys2Proof
end

