-- ==== Sys2Proof/Machine/Interlock.lean ====
section
/-!
DEFINITION. Machine/Interlock.lean: the bias interlock (R438 to R457). Times are ticks of the model's one time base; a
limit counted in SCK cycles is reached once 0.9 of it has passed, since SCK lies within 10 % of 4 MHz (R443, R452).
-/
namespace Sys2Proof

/-- The states of the interlock (R444). -/
inductive IlkSt
  | test | locked | safe | precheck | on | ramp
  deriving DecidableEq, Repr

/-- STATE of SAF_STAT (R457). -/
def IlkSt.code : IlkSt → Nat
  | .test => 0 | .locked => 1 | .safe => 2 | .precheck => 3 | .on => 4 | .ramp => 5

/-- The bias interlock. -/
structure Interlock where
  /-- VDD_SAFE is in its operating range. -/
  up : Bool
  st : IlkSt
  sel : Nat
  selOk : Bool
  testOk : Bool
  /-- The filtered channels: closed (R442). -/
  chA : Bool
  chB : Bool
  /-- Outputs and readbacks (R438). -/
  enHs : Bool
  enLs : Bool
  rampReq : Bool
  dsc : Bool
  fbHs : Bool
  fbLs : Bool
  dscFb : Bool
  rstLow : Bool
  /-- Latched faults. -/
  discFault : Bool
  fbFault : Bool
  dscFault : Bool
  sckFault : Bool
  rstStuck : Bool
  monOk : Bool
  monLost : Bool
  rampViol : Bool
  rampTimeout : Bool
  cause : Nat
  demands : Nat
  restarts : Nat
  rstRej : Nat
  /-- A discrepancy since a tick; both channels closed since a tick; both have been open since DISC_FAULT latched. -/
  discSince : Option Nat
  closedSince : Option Nat
  cycled : Bool
  demandAt : Nat
  /-- The removal whose readbacks are watched, since a tick; whether both switches have read open; the discharge
  command, since a tick (R445). -/
  watchAt : Option Nat
  removed : Bool
  dscAt : Option Nat
  /-- The step of a precheck and when it began (R450). -/
  step : Nat
  stepAt : Nat
  /-- Bias-slope values, newest first, consecutive valid ones, and when the last valid one came (R447, R448). -/
  ws : List Int
  run : Nat
  validAt : Nat
  /-- |W| at the demand, in codes; F of the last evaluation in codes; durations. -/
  v0 : Nat
  fLast : Int
  rampMs : Nat
  remUs : Nat
  demSec : Nat
  demNs : Nat
  /-- Conditions of R456 on their way to HCK, by index. -/
  raised : List Nat
  deriving DecidableEq, Repr

/-- The interlock without its supply: every output low, waiting for VDD_SAFE. -/
def Interlock.off : Interlock :=
  ⟨false, .test, 0, false, false, false, false, false, false, true, false, false, false, false, false, false, false, false,
   false, false, false, false, false, false, 0, 0, 0, 0, none, none, false, 0, none, false, none, 0, 0, [], 0, 0, 0, 0, 0, 0, 0, 0, []⟩

namespace Interlock

/-- Category B, safe discharge, 60 Hz, the slope input, and the profile's time in s (R439, R446). -/
def catB (i : Interlock) : Bool := bitOf i.sel 7
def hasDsc (i : Interlock) : Bool := bitOf i.sel 4
def hz60 (i : Interlock) : Bool := bitOf i.sel 3
def slopeIn (i : Interlock) : Nat := if bitOf i.sel 2 then 35 else 34
def rampSec (i : Interlock) : Nat := 4 ^ (i.sel % 4)

/-- TDISC in ticks (R439). -/
def tdisc (i : Interlock) : Nat :=
  640000 * (match bitsOf i.sel 6 5 with
    | 0 => 10
    | 1 => 30
    | 2 => 100
    | _ => 300)

/-- SAFE_SEL is valid (R440). -/
def selValid (a b : Nat) : Bool := a == b && (if bitOf a 7 then a % 4 ≠ 3 else a % 16 = 0)

/-- A length of `n` ms counted in SCK cycles has passed since a tick. -/
def passed (since ms t : Nat) : Bool := decide (since + ms * 576000 ≤ t)

def raise (i : Interlock) (e : Nat) : Interlock := { i with raised := i.raised ++ [e] }

/-- Some fault is latched (R444). -/
def faulted (i : Interlock) : Bool := i.discFault || i.fbFault || i.dscFault || i.sckFault

/-- The readbacks are compared with their commands in every state after TEST, LOCKED among them (R449). -/
def live (i : Interlock) : Bool := i.up && i.st != .test

/-! ## Removal (R445) -/

/-- Both switches read open: the removal is complete. -/
def complete (i : Interlock) (t : Nat) : Interlock :=
  if !i.removed ∧ !i.fbHs ∧ !i.fbLs then
    { i with removed := true, remUs := min 65535 ((t - i.demandAt) / 640) }.raise 1
  else i

/-- As soon as a switch reads open, and DSC is 1, DSC_EN goes high; not while SCK_FAULT holds every output low. -/
def discharge (i : Interlock) (t : Nat) : Interlock :=
  if i.hasDsc ∧ !i.dsc ∧ !i.sckFault ∧ (!i.fbHs ∨ !i.fbLs) then { i with dsc := true, dscAt := some t } else i

/-- Category A removal: both switches off in the same SCK cycle; the readbacks are then watched. -/
def remove (i : Interlock) (t : Nat) : Interlock :=
  ({ i with st := .safe, enHs := false, enLs := false, rampReq := true, watchAt := some t, removed := false, step := 0 }.discharge t).complete t

/-- Duration of a ramp that ends, in ms. -/
def endRamp (i : Interlock) (t : Nat) : Interlock := { i with rampMs := min 65535 ((t - i.demandAt) / 640000) }.remove t

/-! ## Ramp (R446, R447) -/

/-- V0 ≤ V_DONE, or |W| ≤ V_DONE: V_DONE is the larger of 0.02 × V0 and 50 mV; a code is 10 V / 2²². -/
def done (i : Interlock) (w : Nat) : Bool := decide (50 * 10000 * w ≤ max (10000 * i.v0) (2500 * 2 ^ 22))

/-- |W| > V0 + 0.2 V. -/
def above (i : Interlock) (w : Nat) : Bool := decide (10000 * i.v0 + 200 * 2 ^ 22 < 10000 * w)

/-- F < 0.5 × E or F > 2 × E, where E = V0 × T_m / T_R. -/
def outside (i : Interlock) (f : Int) : Bool :=
  let n : Int := i.rampSec * (if i.hz60 then 60 else 50)
  decide (2 * f * n < i.v0) || decide (2 * (i.v0 : Int) < f * n)

/-- A demand or a latched fault in ON, category B with the monitor usable: the ramp starts. -/
def startRamp (i : Interlock) (t : Nat) : Interlock :=
  let v := (i.ws.headD 0).natAbs
  let i1 := { i with st := .ramp, rampReq := true, v0 := v, demandAt := t }
  if i1.done v then i1.endRamp t else i1

/-- ON is left, by the rules of the device's category (R444). -/
def leaveOn (i : Interlock) (t : Nat) : Interlock :=
  if i.catB ∧ i.monOk then i.startRamp t else { i with demandAt := t }.remove t

/-- What a demand or a latched fault does in the present state (R444). -/
def react (i : Interlock) (t : Nat) : Interlock :=
  match i.st with
  | .on => i.leaveOn t
  | .precheck => { i with demandAt := t }.remove t
  | _ => i

/-! ## Demand and discrepancy (R442, R443) -/

/-- A latched fault's effect on the state; it counts as the last demand's cause when it removes the bias (R457). -/
def faultLatched (i : Interlock) (e t : Nat) : Interlock :=
  let i1 := i.raise e
  if i1.st = .on then { i1 with cause := 3 }.react t else i1.react t

def latchDisc (i : Interlock) (t : Nat) : Interlock :=
  if i.discFault then i else { i with discFault := true, cycled := false }.faultLatched 3 t
def latchFb (i : Interlock) (t : Nat) : Interlock := if i.fbFault then i else { i with fbFault := true }.faultLatched 4 t
def latchDsc (i : Interlock) (t : Nat) : Interlock := if i.dscFault then i else { i with dscFault := true }.faultLatched 5 t

/-- A discrepancy that has lasted 1.1 × TDISC has latched DISC_FAULT in every device (R443). -/
def discSure (i : Interlock) (t : Nat) : Interlock :=
  match i.discSince with
  | some s => if i.up ∧ s * 10 + 11 * i.tdisc ≤ t * 10 then i.latchDisc t else i
  | none => i

/-- The channels have changed: discrepancy, closed time and the cycling of R451 follow. -/
def channels (i : Interlock) (a b : Bool) (t : Nat) : Interlock :=
  let disc := if a = b then none else some (i.discSince.getD t)
  let closed := if a ∧ b then some (i.closedSince.getD t) else none
  { i with chA := a, chB := b, discSince := disc, closedSince := closed, cycled := i.cycled || (!a && !b) }

/-- CHANNEL_OPEN (R442): one channel, or both in one cycle, filters open; a demand arises. -/
def channelOpen (i : Interlock) (a b : Bool) (t : Nat) : Interlock :=
  if !i.up then i
  else
    let newA := a && i.chA
    let newB := b && i.chB
    if !newA && !newB then i
    else
      let i1 := (i.discSure t).channels (i.chA && !a) (i.chB && !b) t
      let cause := newA.toNat + 2 * newB.toNat
      let i2 := { i1 with demands := min 65535 (i1.demands + 1), cause := cause }.raise 0
      let i3 := if i2.st = .ramp then i2 else { i2 with demandAt := t }
      i3.react t

/-- CHANNEL_CLOSED (R442). -/
def channelClosed (i : Interlock) (a b : Bool) (t : Nat) : Interlock :=
  if i.up then (i.discSure t).channels (i.chA || a) (i.chB || b) t else i

/-- DISCREPANCY_TIMEOUT (R443, in any state): a discrepancy of more than 0.9 × TDISC. -/
def discTimeout (i : Interlock) (t : Nat) : Interlock :=
  match i.discSince with
  | some s => if i.up ∧ s * 10 + 9 * i.tdisc < t * 10 then i.latchDisc t else i
  | none => i

/-! ## Readbacks (R445, R449) -/

/-- SWITCH_READS_OPEN (R445): the readback of a switch goes to open. -/
def switchOpen (i : Interlock) (hs ls : Bool) (t : Nat) : Interlock :=
  if !i.up then i
  else
    let i1 := { i with fbHs := i.fbHs && !hs, fbLs := i.fbLs && !ls }
    if i1.st = .safe ∧ i1.watchAt.isSome ∨ i1.st = .safe ∧ i1.fbFault then ((i1.discharge t).complete t) else i1

/-- REMOVAL_WATCH_END (R445): 10 ms after removal, and 10 ms after DSC_EN has gone high. -/
def watchEnd (i : Interlock) (dscFb : Bool) (t : Nat) : Interlock :=
  if !i.live then i
  else
    let i0 := { i with dscFb := dscFb }
    let i1 := match i0.watchAt with
      | some s => if passed s 10 t then (if i0.fbHs ∨ i0.fbLs then { i0 with watchAt := none }.latchFb t else { i0 with watchAt := none }) else i0
      | none => i0
    match i1.dscAt with
    | some s => if passed s 10 t then (if dscFb then { i1 with dscAt := none } else { i1 with dscAt := none }.latchDsc t) else i1
    | none => i1

/-- READBACK_MISMATCH (R449): a readback has disagreed with its command for 10 ms: 0 high side, 1 low side, 2 discharge. -/
def mismatch (i : Interlock) (which : Nat) (t : Nat) : Interlock :=
  if !i.live then i
  else match which with
    | 0 => if i.watchAt.isSome then i else { i with fbHs := !i.enHs }.latchFb t
    | 1 => if i.watchAt.isSome then i else { i with fbLs := !i.enLs }.latchFb t
    | _ => if i.hasDsc then { i with dscFb := !i.dsc }.latchDsc t else i

/-! ## Monitor (R447, R448) -/

/-- Ticks of a sub-interval (R434). -/
def subTicks (i : Interlock) : Nat := if i.hz60 then 533333 else 640000

/-- The corridor is judged from 200 ms after the demand (R447). -/
def warmTicks : Nat := 128000000

/-- The ramp ends by a violation. -/
def violate (i : Interlock) (t : Nat) : Interlock := ({ i with rampViol := true }.raise 6).endRamp t

/-- The fall over the last mains cycle is evaluated from 200 ms after the demand (R447); F_LAST is the last one evaluated (R457). -/
def judgeFall (i : Interlock) (f : Int) (t : Nat) : Interlock :=
  if i.demandAt + warmTicks ≤ t then
    let i1 := { i with fLast := f }
    if i1.outside f then i1.violate t else i1
  else i

/-- The ramp is judged at a new value `w`; `old` is the value one mains cycle before (R447). -/
def judge (i : Interlock) (w : Nat) (old : Option Int) (t : Nat) : Interlock :=
  if i.done w then i.endRamp t
  else if i.above w then i.violate t
  else match old with
    | none => i
    | some o => i.judgeFall ((o.natAbs : Int) - w) t

/-- The monitor stops being usable when more than 3 sub-intervals have passed since the last valid value (R448). -/
def gap (i : Interlock) (t : Nat) : Interlock :=
  if i.up ∧ i.monOk ∧ i.validAt + 3 * i.subTicks < t then
    let i1 := { i with monOk := false, monLost := true, run := 0 }.raise 8
    if i1.st = .ramp then i1.endRamp t else i1
  else i

/-- SLOPE_VALUE (R447, R448): a value reaches the interlock; one that fails its check or its sequence is discarded. -/
def slopeValue (i : Interlock) (w : Int) (good : Bool) (t : Nat) : Interlock :=
  if !i.up ∨ !i.catB then i
  else
    let i0 := i.gap t
    if !good then (if i0.monOk then i0 else { i0 with run := 0 })
    else
      let run := min 20 (if i0.monOk ∨ t ≤ i0.validAt + 3 * i0.subTicks then i0.run + 1 else 1)
      let i1 := { i0 with ws := (w :: i0.ws).take 21, run := run, validAt := t }
      let i2 := if !i1.monOk ∧ run = 20 then { i1 with monOk := true, monLost := false } else i1
      if i2.st = .ramp then i2.judge w.natAbs (i2.ws[20]?) t else i2

/-- RAMP_TIME_LIMIT (R447). -/
def timeLimit (i : Interlock) (t : Nat) : Interlock :=
  if i.up ∧ i.st = .ramp ∧ passed i.demandAt (2000 * i.rampSec) t then ({ i with rampTimeout := true }.raise 7).endRamp t else i

/-! ## Power-up (R440, R441, R452) -/

/-- VDD_SAFE_UP (R440, R441): VDD_SAFE enters its range; SAFE_SEL is read twice. -/
def powerUp (i : Interlock) (s1 s2 : Nat) : Interlock :=
  if i.up then i else { Interlock.off with up := true, sel := s1, selOk := selValid s1 s2, fbHs := i.fbHs, fbLs := i.fbLs, dscFb := i.dscFb, rstLow := i.rstLow }

/-- INTERLOCK_SELF_TEST_END (R441): the logic self-test, the check of SCK, and in category B the self-test of converter B
and 20 consecutive valid values. -/
def selfTestEnd (i : Interlock) (logicOk sckOk convOk : Bool) : Interlock :=
  if !i.up ∨ i.st ≠ .test then i
  else
    let ok := i.selOk && logicOk && sckOk && !i.sckFault && (!i.catB || (convOk && i.run == 20))
    if ok then { i with st := .safe, testOk := true } else { i with st := .locked }.raise 12

/-- Every output low. -/
def allLow (i : Interlock) : Interlock := { i with enHs := false, enLs := false, rampReq := true, dsc := false, dscAt := none }

/-- SCK_CHECK (R452): SCK cycles counted in a window of 1 ms. -/
def sckCheck (i : Interlock) (n t : Nat) : Interlock :=
  if !i.up ∨ i.sckFault ∨ (3640 ≤ n ∧ n ≤ 4350) then i
  else
    let i1 := { i with sckFault := true }.raise 11
    let on := i1.st = .on ∨ i1.st = .precheck ∨ i1.st = .ramp
    let i2 := if on then { i1 with st := .safe, cause := if i1.st = .on then 3 else i1.cause, watchAt := some t, removed := false, demandAt := t } else i1
    i2.allLow

/-- VDD_SAFE_LOW (R452). -/
def powerLow (i : Interlock) : Interlock :=
  if i.up then { Interlock.off with fbHs := i.fbHs, fbLs := i.fbLs, dscFb := i.dscFb, rstLow := i.rstLow, raised := i.raised ++ [11] } else i

/-! ## Restart (R450, R451) -/

/-- The outputs of a precheck step (R450). -/
def stepOut (i : Interlock) (n t : Nat) : Interlock :=
  let i1 := { i with step := n, stepAt := t }
  match n with
  | 1 => { i1 with enHs := false, enLs := false, dsc := false, dscAt := none }
  | 2 => { i1 with enHs := true }
  | 3 => { i1 with enHs := false }
  | 4 => { i1 with enLs := true }
  | 5 => { i1 with enLs := false }
  | _ => { i1 with enHs := true, enLs := true, rampReq := false }

/-- The switch readbacks a step must find. -/
def stepFb (n : Nat) (hs ls : Bool) : Bool :=
  match n with
  | 1 => !hs && !ls
  | 2 => hs && !ls
  | 3 => !hs
  | 4 => ls && !hs
  | 5 => !ls
  | _ => hs && ls

/-- PRECHECK_STEP (R450): 10 ms after a step's outputs its readbacks are checked. -/
def precheck (i : Interlock) (hs ls dscFb : Bool) (t : Nat) : Interlock :=
  if !i.up ∨ i.st ≠ .precheck ∨ !passed i.stepAt 10 t then i
  else
    let i1 := { i with fbHs := hs, fbLs := ls, dscFb := dscFb }
    let dscBad := i1.step = 1 ∧ i1.hasDsc ∧ dscFb
    if !stepFb i1.step hs ls then
      let i2 := i1.latchFb t
      if dscBad then i2.latchDsc t else i2
    else if dscBad then i1.latchDsc t
    else if i1.step < 6 then i1.stepOut (i1.step + 1) t
    else { i1 with st := .on, restarts := min 255 (i1.restarts + 1), step := 0 }.raise 2

/-- RESET_PRESS_RELEASE (R451): ILK_RST_N is released after a low level of so many ms. -/
def press (i : Interlock) (ms t : Nat) : Interlock :=
  if !i.up then i
  else
    let i0 := { i with rstLow := false }
    if i0.rstStuck ∨ ms < 50 ∨ 5000 < ms then i0
    else
      let long : Bool := match i0.closedSince with
        | some s => decide (s + 100 * 640000 ≤ t)
        | none => false
      if i0.st = .safe ∧ long ∧ (!i0.discFault ∨ i0.cycled) ∧ !i0.sckFault then
        { i0 with st := .precheck, discFault := false, fbFault := false, dscFault := false, rampViol := false, rampTimeout := false, watchAt := none }.stepOut 1 t
      else { i0 with rstRej := min 255 (i0.rstRej + 1) }.raise 9

/-- RESET_STUCK (R451): ILK_RST_N has been low beyond 5 s. -/
def stuck (i : Interlock) : Interlock := if i.up ∧ !i.rstStuck then { i with rstStuck := true, rstLow := true }.raise 10 else i

/-- RESET_STUCK_CLEAR (R451): it has read high for 100 ms. -/
def unstuck (i : Interlock) : Interlock := if i.up then { i with rstStuck := false, rstLow := false } else i

/-! ## Status registers (R457) -/

/-- A code in mV; the manual does not state the rounding, which is toward zero. -/
def mv (w : Int) : Int := Int.tdiv (w * 10000) (2 ^ 22)

/-- A word of the SAF_ block. -/
def reg (i : Interlock) (o : Nat) : Word :=
  let b := fun (p : Bool) (k : Nat) => at_ k k p.toNat
  let w := fun (n : Nat) => BitVec.ofNat 32 n
  match o with
  | 0x00 => w (at_ 31 29 i.st.code + b i.chA 28 + b i.chB 27 + b i.enHs 26 + b i.enLs 25 + b i.fbHs 24 + b i.fbLs 23 + b i.rampReq 22 +
      b i.dsc 21 + b i.dscFb 20 + b i.rstLow 19 + b i.monOk 18 + b i.discFault 15 + b i.fbFault 14 + b i.dscFault 13 + b i.sckFault 12 +
      b i.rstStuck 11 + b i.monLost 10 + b i.rampViol 9 + b i.rampTimeout 8 + at_ 7 6 i.cause)
  | 0x04 => w (b i.testOk 31 + b i.selOk 30 + at_ 7 0 i.sel)
  | 0x08 => w (at_ 31 16 i.demands + at_ 15 8 i.restarts + at_ 7 0 i.rstRej)
  | 0x0C => w (at_ 31 16 (mv i.v0).toNat + at_ 15 0 (patternOf 16 (mv i.fLast)))
  | 0x10 => w (at_ 31 16 i.rampMs + at_ 15 0 i.remUs)
  | 0x14 => w i.demSec
  | 0x18 => w (at_ 29 0 i.demNs)
  | _ => 0

end Interlock
end Sys2Proof
end

