-- ==== Sys2Proof/Machine/RegBus.lean ====
section
/-!
DEFINITION. Machine/RegBus.lean: the register bridge of the manager (R9, R15 to R18, R44 to R48): reads with the fields
that follow hardware, and writes under the role in context with what a write of each register does.
-/
namespace Sys2Proof

/-- The register blocks cover 0x4000_0000 to 0x4BFF_FFFF without a gap (R44). -/
def inBlocks (a : Nat) : Bool := 0x40000000 ≤ a && a < 0x4C000000

/-- The access is an aligned 32-bit one (R9). -/
def busWhole (sz : AccSize) (a : Nat) : Bool := sz == .word && a % 4 == 0

/-! ## Reads -/

/-- A read of a table word kept in a protected memory: the second result tells whether it is uncorrectable (R388). -/
def Chip.tableAccess (c : Chip) (m a : Nat) : Chip × Bool :=
  let e := c.eccAt m a
  if e = EccErr.none then (c, false)
  else
    let bad := match (eccDecode m e.d e.k).1 with
      | .uncorrectable => true
      | _ => false
    (c.eccVisit m a ⟨.read, 0, 0, false, none⟩, bad)

/-- Put a value over a field of a word. -/
def overlay (w : Word) (f : Fld) (n : Nat) : Word := f.put w n

/-- Meridian registers (R272). -/
def Chip.merRead (c : Chip) (o : Nat) (w : Word) : Word :=
  let t := c.mer.txts.head?
  let v := fun (n : Nat) => BitVec.ofNat 32 n
  match o with
  | 0x04 => overlay w F.MER_STAT_EBOUND c.ebound
  | 0x38 => if c.inFix then 0 else v (min (2 ^ 32 - 1) ((c.tick - c.mer.lastFix) / sTicks))
  | 0x3C => v (patternOf 32 c.mer.slew)
  | 0x50 => overlay w F.MER_TXTS_STAT_LEVEL (min 16 c.mer.txts.length)
  | 0x54 => match t with
    | some e => v (at_ 31 31 1 + at_ 15 0 e.id)
    | none => 0
  | 0x58 => v ((t.map (fun e => at_ 15 0 (secOf e.time / 2 ^ 32))).getD 0)
  | 0x5C => v ((t.map (fun e => secOf e.time)).getD 0)
  | 0x60 => v ((t.map (fun e => nsOf e.time)).getD 0)
  | 0x64 => v ((t.map (fun e => subnsOf e.time)).getD 0)
  | 0x74 => overlay w F.MER_ASYM_ASYM_MW Config.asymMw
  | _ => w

/-- BUSY_OUT_N[i] is driven low (R293, R496). -/
def Chip.busyLow (c : Chip) (i : Nat) : Bool := c.pwr.cold || (if i = 0 then c.que.pin0 else c.que.pin1).isSome

/-- Queue registers (R305, R306). -/
def Chip.queRead (c : Chip) (o : Nat) (w : Word) : Word :=
  match o with
  | 0x04 =>
    let thr : Bool := c.slots.any (fun s => decide (s.2.throttle < 0xFF))
    let sh : Bool := (List.range 128).any (fun p => c.b (F.QUE_OCC_SHARING.ix 4 p))
    overlay (overlay (overlay (overlay w F.QUE_STAT_THROTTLING thr.toNat) F.QUE_STAT_SHARING sh.toNat) F.QUE_STAT_BUSY0 (c.busyLow 0).toNat)
      F.QUE_STAT_BUSY1 (c.busyLow 1).toNat
  | 0x08 => BitVec.ofNat 32 c.poolFree
  | _ => if 0x1000 ≤ o ∧ o < 0x1200 then overlay w F.QUE_DCQ_LEVEL (c.dcqLevel ((o - 0x1000) / 4)) else w

/-- Engine e (R307). -/
def Chip.engRead (c : Chip) (e : Nat) (w : Word) : Word :=
  let x := c.engOf e
  if !x.used then BitVec.ofNat 32 0x00FF0000
  else BitVec.ofNat 32 (at_ 31 31 1 + at_ 30 26 x.group + at_ 25 24 x.level + at_ 23 16 x.parent + at_ 15 8 (F.RSE_ENG_LOAD.of w) +
    at_ 4 0 (x.inputs.filter (· ≠ noInput)).length)

/-- Pages retired in all stacks. -/
def Chip.pagesRetired (c : Chip) : Nat := ((List.range 8).map (fun s => c.g (memFld F.INT_MEM3_RETIRED (16 + s)))).foldl (· + ·) 0

/-- Pages that hold no data: those of stacks not allocated from are not listed as free (R310, R347). -/
def Chip.pagesFree (c : Chip) : Nat :=
  let held := (c.wake.pages.filter (fun x => decide (x.1 < wakePages) && (x.2.valid || x.2.bad) && !c.wake.noAlloc.contains (x.1 % 8))).length
  wakePages - 7936 * c.wake.noAlloc.length - held

/-- Wake registers (R347, R348): every word of a marked or undefined group reads 0. -/
def Chip.wkeRead (c : Chip) (o : Nat) (w : Word) : Word :=
  match o with
  | 0x04 => overlay w F.WKE_STAT_RETIRED (min 255 c.pagesRetired)
  | 0x08 => BitVec.ofNat 32 c.wakeDepth
  | 0x10 =>
    let open_ := (c.wake.pages.filter (fun x => x.2.valid && x.2.open_)).length
    BitVec.ofNat 32 (at_ 31 16 c.pagesFree + at_ 15 8 c.pinned.length + at_ 7 0 open_)
  | 0x14 => overlay w F.WKE_MQ_LEVEL c.mqLevel
  | _ => if 0x100 ≤ o ∧ o < 0x500 then (if c.streaming ((o - 0x100) / 0x20) then w else 0) else w

/-- Integrity registers (R415). -/
def Chip.intRead (c : Chip) (o : Nat) (w : Word) : Word :=
  if o = 0x88 then overlay w F.INT_CKPT_CKPT_AGE c.ckptAge
  else if 0xC0 ≤ o ∧ o < 0xE0 then overlay w F.INT_TEMP_CE_HOUR (min 65535 (c.ceHour ((o - 0xC0) / 4)))
  else if 0x100 ≤ o ∧ o < 0x280 ∧ memWords ((o - 0x100) / 16) = 0 then 0
  else w

/-- Global registers (R379). -/
def Chip.gblRead (c : Chip) (o : Nat) (w : Word) : Word :=
  let v := fun (n : Nat) => BitVec.ofNat 32 n
  if o = 0x0C then v (Config.serial / 2 ^ 32)
  else if o = 0x10 then v Config.serial
  else if 0x40 ≤ o ∧ o < 0x60 then v (c.slotWord ((o - 0x40) / 8) (o % 8))
  else if 0x80 ≤ o ∧ o < 0xC0 then (if c.work = [] then 0 else v (beField (trailDigest c.work) (o - 0x80) 4))
  else w

/-- Logbook, event and management registers (R488 to R490). -/
def Chip.fwState (c : Chip) (k : Nat) : Nat := (AMap.get (always FwSlot.init) c.nvm.fws k).state

def Chip.mgtRead (c : Chip) (a : Nat) (w : Word) : Word :=
  let v := fun (n : Nat) => BitVec.ofNat 32 n
  if a = 0x48000000 then overlay w F.LOG_STAT_PERM_FULL (decide (permMax ≤ c.log.nextLoc)).toNat
  else if a = 0x48000004 then v c.log.nextSeq
  else if a = 0x48000008 then v c.log.optime
  else if a = 0x4800000C then v c.log.pcyc
  else if 0x49000400 ≤ a ∧ a < 0x49000420 then
    let k := (a - 0x49000400) / 4
    v (((List.range 32).map (fun j => c.g (evtFld F.EVT_ROUTE_PEND (32 * k + j)) * 2 ^ j)).foldl (· + ·) 0)
  else if a = 0x4A000014 then overlay (overlay (overlay w F.MGT_FW_SLOT0 (c.fwState 0)) F.MGT_FW_SLOT1 (c.fwState 1)) F.MGT_FW_FW_FLOOR c.nvm.fwFloor
  else w

/-- The registers that a read leaves alone: the word a read returns. -/
def Chip.plainRead (c : Chip) (i : Interlock) (a : Nat) : Word :=
  let w := c.word a
  match a / 2 ^ 24 with
  | 0x40 => c.gblRead (a % 2 ^ 24) w
  | 0x41 => if 0x41001000 ≤ a then c.engRead ((a - 0x41001000) / 4) w else w
  | 0x42 => c.wkeRead (a % 2 ^ 24) w
  | 0x44 => c.merRead (a % 2 ^ 24) w
  | 0x45 => c.intRead (a % 2 ^ 24) w
  | 0x47 => Interlock.reg i (a % 2 ^ 24)
  | 0x4B => c.queRead (a % 2 ^ 24) w
  | _ => c.mgtRead a w

/-- INDEX of a table window counts on after a read under AUTO_INC. -/
def Chip.tblInc (c : Chip) (auto index : Fld) : Chip := if c.b auto then c.wrap index else c

/-- The result of a bus access: the word read, a bus error, and the state after it. -/
abbrev BusOut := Word × Bool × Chip

/-- A table word read through a window, which an uncorrectable word ends in a bus error. -/
def Chip.windowRead (c : Chip) (w : Word) (at_? : Option (Nat × Nat)) (auto index : Fld) : BusOut :=
  let (c1, bad) := match at_? with
    | some (m, a) => c.tableAccess m a
    | none => (c, false)
  if bad then (0, true, c1) else (w, false, c1.tblInc auto index)

/-- Where RSE_TBL_ADDR and WKE_TBL_ADDR point in a protected memory. -/
def Chip.rseWordAt (c : Chip) : Option (Nat × Nat) :=
  let ix := c.g F.RSE_TBL_ADDR_INDEX
  let t := c.g F.RSE_TBL_ADDR_TBL
  if (t = 1 ∧ 255 ≤ ix) ∨ (t = 2 ∧ 4096 ≤ ix) ∨ (t = 3 ∧ 2048 ≤ ix) then none else some (roseWord t ix)

def Chip.wkeWordAt (c : Chip) : Option (Nat × Nat) :=
  let ix := c.g F.WKE_TBL_ADDR_INDEX
  if c.g F.WKE_TBL_ADDR_TBL = 0 ∧ ix / 4 < wakePages then some (2, ix / 2) else none

/-- A read of an aligned address that lies in a block and outside the port windows. -/
def Chip.mgrRead (c : Chip) (i : Interlock) (a : Nat) : BusOut :=
  let plain : BusOut := (c.plainRead i a, false, c)
  let side := fun (x : Word × Chip) => ((x.1, false, x.2) : BusOut)
  if a = 0x44000008 then side c.nowRead
  else if a = 0x44000084 then (c.merTblRead, false, c.merTblInc)
  else if a = 0x4B00001C then let (w, c1) := c.queTblRead; (w, false, c1.tblInc F.QUE_TBL_ADDR_AUTO_INC F.QUE_TBL_ADDR_INDEX)
  else if a = 0x41000034 then c.windowRead c.rseTblRead c.rseWordAt F.RSE_TBL_ADDR_AUTO_INC F.RSE_TBL_ADDR_INDEX
  else if a = 0x42000084 then c.windowRead c.wkeTblRead c.wkeWordAt F.WKE_TBL_ADDR_AUTO_INC F.WKE_TBL_ADDR_INDEX
  else if a = 0x43000204 then (c.destRead, false, c)
  else if 0x41000100 ≤ a ∧ a < 0x41000500 then side (c.grpRead ((a - 0x41000100) / 32) (a % 32 / 4))
  else if 0x46000200 ≤ a ∧ a < 0x46000480 ∧ a % 16 = 0 then side (c.hkLastRead ((a - 0x46000200) / 16))
  else if a / 2 ^ 24 = 0x47 then plain
  else match mgrSpecAt a with
    | some _ => plain
    | none => (0, false, c)

/-- A read over the register bridge (R9, R18): a byte, halfword or unaligned one ends in a bus error. -/
def Chip.busRead (c : Chip) (i : Interlock) (sz : AccSize) (a : Nat) : BusOut :=
  if !inBlocks a ∨ !busWhole sz a then (0, true, c)
  else match windowOf a with
    | some (p, o) =>
      if o < 0x28 then ((c.port p).word false (o / 4), false, c)
      else if 128 ≤ p ∨ (p % 2 = 1 ∧ 0x180 ≤ o) then (0, false, c)
      else match mgrSpecAt a with
        | some _ => (c.word a, false, c)
        | none => (0, false, c)
    | none => c.mgrRead i a

/-! ## Writes -/

/-- How a write ends: performed, refused under R16, or a bus error. -/
inductive BusEnd
  | ok | denied | err
  deriving DecidableEq, Repr

/-- The role in context may write a field of a register. -/
def Chip.may (c : Chip) (l : List RwlFld) (f : Fld) : Bool := l.all (fun x => !(x.lo ≤ f.lo && f.hi ≤ x.hi) || c.role.mayWrite x.role)

/-- A refused write is recorded with its address and value (R16). -/
def Chip.busRefusal (c : Chip) (a : Nat) (v : Word) : Chip := (c.event 244 0).logCtx kRefusal 0x0100 (at_ 159 128 a + at_ 127 64 v.toNat)

/-- What a write of a global register does (R371, R377, R379). `ok`: a Chart operation's memory accesses succeed. -/
def Chip.gblWrite (c : Chip) (r : RegSpec) (a : Nat) (new v : Word) (ok : Bool) : Chip :=
  match a with
  | 0x40000004 => if c.may r.rwl F.GBL_CTL_RUN_EN then (if F.GBL_CTL_RUN_EN.of v = 1 then c.runSet else c.runClear) else c
  | 0x40000014 =>
    let c1 := c.setWord a new
    if F.GBL_CHART_CMD_GO.of new = 1 then (c1.s F.GBL_CHART_STAT_DONE 0).chartCmd ok else c1
  | 0x40000020 => if c.may r.rwl F.GBL_TRIM_TGT_OCC_TGT then c.trimTarget v.toNat else c
  | _ => c.setWord a new

/-- Meridian registers (R245, R247, R248, R250, R272). -/
def Chip.merWrite (c : Chip) (a : Nat) (new v : Word) : Chip :=
  match a with
  | 0x44000000 =>
    let c1 := c.setWord a new
    if F.MER_CTL_SRC_SEL.of new = c.g F.MER_CTL_SRC_SEL then c1 else c1.sourceChange
  | 0x44000024 => let c1 := c.setWord a new; if F.MER_SET_CTL_GO.of new = 1 then c1.coarseSet else c1
  | 0x4400003C => c.padj v
  | 0x44000040 => c.fadj v
  | 0x44000068 => if F.MER_TXTS_POP_POP.of v = 1 then c.txtsPop else c
  | _ => c.setWord a new

/-- Queue registers (R294, R305, R306). -/
def Chip.queWrite (c : Chip) (a : Nat) (new : Word) : Chip :=
  match a with
  | 0x4B00000C => c.s F.QUE_POOL_MIN_MIN c.poolFree
  | 0x4B000014 => let c1 := c.setWord a new; if F.QUE_FLUSH_GO.of new = 1 then c1.flushGo else c1
  | _ =>
    if 0x4B001000 ≤ a ∧ a < 0x4B001200 then let p := (a - 0x4B001000) / 4; c.s (F.QUE_DCQ_HWM.ix 4 p) (c.dcqLevel p)
    else c.setWord a new

/-- Rose registers (R299, R307). -/
def Chip.rseWrite (c : Chip) (a : Nat) (new : Word) : Chip :=
  let c1 := c.setWord a new
  match a with
  | 0x41000000 => if F.RSE_CTL_MOUT_TEST.of new ≠ 0 then c1.moutTest (F.RSE_CTL_MOUT_TEST.of new) else c1
  | 0x41000008 => if F.RSE_MIG_GO.of new = 1 then c1.migGo else c1
  | _ => c1

/-- Wake registers (R325, R331, R347, R348). -/
def Chip.wkeWrite (c : Chip) (r : RegSpec) (a : Nat) (new v : Word) : Chip :=
  match a with
  | 0x4200000C => c.factorMinWrite
  | 0x42000078 =>
    let c1 := c.setWord a new
    if F.WKE_DM_CTL_GO.of new = 1 then (c1.s F.WKE_DM_CTL_DONE 0).deferredGo else c1
  | _ =>
    if 0x42000100 ≤ a ∧ a < 0x42000500 then
      let g := (a - 0x42000100) / 32
      if a % 32 = 0 then (if c.may r.rwl F.WKE_WGRP0_SPAN then c.spanWrite g v.toNat else c)
      else if c.streaming g then c.setWord a new else c
    else c.setWord a new

/-- EGR_CTL: a lane whose LANE_EN is cleared is no longer powered (R349). -/
def Chip.egrWrite (c : Chip) (a : Nat) (new : Word) : Chip :=
  let c1 := c.setWord a new
  if a = 0x43000000 then
    (List.range 9).foldl (fun c p => if bitOf (F.EGR_CTL_LANE_EN.of new) p then c else c.s (laneFld F.EGR_LANE0_UP p) 0) c1
  else c1

/-- Integrity registers (R401, R402, R405, R415); bypass may end in a bus error. -/
def Chip.intWrite (c : Chip) (r : RegSpec) (a : Nat) (new v : Word) : Chip × Bool :=
  match a with
  | 0x45000024 => (if F.INT_ELOG_POP_POP.of v = 1 then c.elogPop else c, true)
  | 0x45000040 => if c.may r.rwl F.INT_BYP_CTL_BYP_EN then c.bypassAccess v else (c, true)
  | 0x45000080 => let c1 := c.setWord a new; (if F.INT_MU_SWITCH.of new = 1 then (c1.s F.INT_MU_SWITCH 0).muSwitch else c1, true)
  | 0x450000A0 => (if F.INT_STUP_GO.of new = 1 then c.stupGo else c, true)
  | _ => (c.setWord a new, true)

/-- Housekeeping registers (R420, R429, R430, R433, R435). -/
def Chip.hkWrite (c : Chip) (r : RegSpec) (a : Nat) (new v : Word) : Chip :=
  match a with
  | 0x46000000 =>
    let c1 := c.setWord a (F.HK_CTL_SEQ_EN.put new (c.g F.HK_CTL_SEQ_EN))
    if c.may r.rwl F.HK_CTL_SEQ_EN ∧ (F.HK_CTL_SEQ_EN.of v = 1 ∨ c.b F.HK_CTL_SEQ_EN) then c1.seqEnWrite (F.HK_CTL_SEQ_EN.of v = 1) else c1
  | 0x46000008 =>
    let c1 := c.setWord a (F.HK_INJ_TRIG.put new 0)
    if F.HK_INJ_TRIG.of new = 1 then c1.trigger else c1
  | 0x4600000C => c.tdacWrite new
  | 0x46000010 =>
    let c1 := c.setWord a (F.HK_TEST_GO.put new 0)
    if F.HK_TEST_GO.of new = 1 then (c1.hkTest).hkTry c.ackEdge else c1
  | 0x46000034 => if F.HK_FIFO_POP_POP.of v = 1 then c.hkPop else c
  | _ => if 0x46000100 ≤ a ∧ a < 0x460001A0 then c.inCfgWrite ((a - 0x46000100) / 4) new else c.setWord a new

/-- The role context ends (R469). -/
def Chip.roleEnd (c : Chip) : Chip :=
  ((c.s F.MGT_ROLE_END 0).s F.MGT_ROLE_ROLE 0).s F.MGT_ROLE_FP_HI_FP 0 |>.s F.MGT_ROLE_FP_LO_FP 0

/-- Logbook, event and management registers (R488 to R490). -/
def Chip.mgtWrite (c : Chip) (a : Nat) (new v : Word) : Chip :=
  match a with
  | 0x48000010 => if F.LOG_RD_GO.of v = 1 then (c.s F.LOG_RD_DONE 0).logRdGo else c
  | 0x48000078 => if F.LOG_WR_CTL_GO.of v = 1 ∧ !c.b F.LOG_WR_CTL_GO then c.logWrGo else c
  | 0x4A000008 => if F.MGT_ROLE_END.of v = 1 then c.roleEnd else c
  | _ =>
    if 0x49000400 ≤ a ∧ a < 0x49000420 then
      let k := (a - 0x49000400) / 4
      (List.range 32).foldl (fun c j => 
        let f := evtFld F.EVT_ROUTE_PEND (32 * k + j)
        if bitOf v.toNat j ∧ f.of (c.hotOf f.reg) = 0 then c.s f 0 else c) c
    else if 0x49000380 ≤ a ∧ a < 0x490003C0 then c.setWord a (F.EVT_ROUTE_LOG.put new 1)
    else c.setWord a new

/-- Command and pair registers of a window (R213, R228, R238). -/
def Chip.prtWrite (c : Chip) (p o a : Nat) (new v : Word) : Chip :=
  match o with
  | 0x100 => c.cmdGo p v
  | 0x188 =>
    let c1 := c.setWord a new
    if F.PRT_LOOP_MOVE_GO.of new = 1 ∧ (c.pair (p / 2)).move = none then c1.plannedMove (p / 2) else c1
  | _ => c.setWord a new

/-- A write of a link register (R200 to R207, R222, R238). A test mode or loop-back that takes a port out of service is
recorded (R204). -/
def Chip.linkWrite (c : Chip) (p i : Nat) (v : Word) : Chip :=
  let was := c.up p
  let old := (c.port p).word false 0
  let c1 := c.portStep p (fun x => x.writeLink false c.role c.tick i v)
  let test := fun (w : Word) => (F.LNK_CTL_TEST.of w, F.LNK_CTL_LPB_NEAR.of w, F.LNK_CTL_LPB_FAR.of w)
  let now := (c1.port p).word false 0
  let c1 := if i = 8 ∨ i = 9 then c1.eqTrack p else c1
  let c2 := if i = 0 ∧ was ∧ test old ≠ test now ∧ !c1.up p then c1.logCtx kChange 0 (at_ 159 128 (windowBase p) + at_ 127 96 old.toNat + at_ 95 64 now.toNat) else c1
  if i = 0 ∧ p < 128 ∧ p % 2 = 0 ∧ F.LNK_CTL_CNT_CLR.of v = 1 then c2.setWord (windowBase p + 0x190) 0 else c2

/-- The effect of a write on one register, its word after R16 being `new`. -/
def Chip.regEffect (c : Chip) (r : RegSpec) (a : Nat) (new v : Word) (ok : Bool) : Chip × Bool :=
  match windowOf a with
  | some (p, o) => (c.prtWrite p o a new v, true)
  | none =>
    match a / 2 ^ 24 with
    | 0x40 => (c.gblWrite r a new v ok, true)
    | 0x41 => (c.rseWrite a new, true)
    | 0x42 => (c.wkeWrite r a new v, true)
    | 0x43 => (c.egrWrite a new, true)
    | 0x44 => (c.merWrite a new v, true)
    | 0x45 => c.intWrite r a new v
    | 0x46 => (c.hkWrite r a new v, true)
    | 0x4B => (c.queWrite a new, true)
    | _ => (c.mgtWrite a new v, true)

/-- A write of MER_TBL_DATA: slot word 0 is writable under the installer role, every other word ignores it (R273). -/
def Chip.merDataWrite (c : Chip) (a : Nat) (v : Word) : Chip × BusEnd :=
  let ix := c.g F.MER_TBL_ADDR_INDEX
  let wofs := c.g F.MER_TBL_ADDR_TBL = 1 ∧ ix % 4 = 0 ∧ ix < 4096
  if wofs ∧ !c.role.mayWrite .installer then
    (if v.toNat % 65536 = patternOf 16 (c.slot (ix / 4)).wofs then (c.merTblInc, .ok) else ((c.busRefusal a v).merTblInc, .denied))
  else ((c.merTblWrite v).merTblInc, .ok)

/-- The current value of a register that R16 judges a write against: what a read returns. Every word of a marked or
undefined group's Wake registers reads 0 (R347). -/
def Chip.current (c : Chip) (a : Nat) : Word :=
  if 0x42000100 ≤ a ∧ a < 0x42000500 ∧ !c.streaming ((a - 0x42000100) / 32) then 0 else c.word a

/-- A write of a register the tables list; a W1C bit that hardware sets in the same MCK cycle stays set (R15). -/
def Chip.specWrite (c : Chip) (a : Nat) (v : Word) (ok : Bool) : Chip × BusEnd :=
  match mgrSpecAt a with
  | none => (c, .ok)
  | some r =>
    let old := c.word a
    let bad := writeRefused c.role r.rwl (c.current a) v
    let (c1, done) := c.regEffect r a (writeWord r c.role old v ||| c.hotOf a) v ok
    let c2 := if bad then c1.busRefusal a v else c1
    (c2, if bad then .denied else if done then .ok else .err)

/-- A write over the register bridge under the role in context (R9, R16, R18): outside every block a bus error, and of a
byte, a halfword or unaligned no effect. `ok` tells whether the memory accesses of a Chart operation it starts succeed. -/
def Chip.busWrite (c : Chip) (sz : AccSize) (a : Nat) (v : Word) (ok : Bool) : Chip × BusEnd :=
  if !inBlocks a then (c, .err)
  else if !busWhole sz a then (c, .ok)
  else match windowOf a with
    | some (p, o) =>
      if o < 0x28 then
        match linkSpec (o / 4) with
        | none => (c, .ok)
        | some r =>
          let bad := writeRefused c.role r.rwl ((c.port p).word false (o / 4)) v
          let c1 := c.linkWrite p (o / 4) v
          if bad then (c1.busRefusal a v, .denied) else (c1, .ok)
      else if 128 ≤ p ∨ (p % 2 = 1 ∧ 0x180 ≤ o) then (c, .ok)
      else c.specWrite a v ok
    | none => if a = 0x44000084 then c.merDataWrite a v else c.specWrite a v ok

/-- A write by the cores: the bus result stands until the next access; a refusal is a bus error (R16). -/
def Chip.coreWrite (c : Chip) (sz : AccSize) (a : Nat) (v : Word) (ok : Bool) : Chip :=
  let (c1, e) := c.busWrite sz a v ok
  { c1 with bus := ⟨0, e ≠ .ok, e = .denied⟩ }

/-- A read by the cores. -/
def Chip.coreRead (c : Chip) (i : Interlock) (sz : AccSize) (a : Nat) : Chip :=
  let (w, err, c1) := c.busRead i sz a
  { c1 with bus := ⟨w, err, false⟩ }

end Sys2Proof
end

