-- ==== Sys2Proof/Machine/Helm.lean ====
section
/-!
DEFINITION. Machine/Helm.lean: Helm (R467 to R474): the checks of a request, the queue of 16, and the operations that
read; masked register writes, staging and deferred marks.
-/
namespace Sys2Proof

/-! ## Arrival (R467, R468, R473) -/

/-- Recovery: the boot ROM serves a subset of Helm (R463). -/
def Chip.recovery (c : Chip) : Bool := c.b F.MGT_STAT_RECOVERY

/-- Helm executes requests: the cores run, or the boot ROM serves recovery (R408, R463). -/
def Chip.helmUp (c : Chip) : Bool := c.int.coresUp || c.recovery

/-- The operations of R470. -/
def helmKnown (op : Nat) : Bool := (1 ≤ op && op ≤ 5) || (0x81 ≤ op && op ≤ 0x8E)

/-- The operations the boot ROM serves (R463). -/
def helmInRecovery (op : Nat) : Bool := op == 1 || op == 4 || op == 5 || op == 0x85 || op == 0x86

/-- The body lengths an operation admits (R470). -/
def helmBodyLen (op n : Nat) : Bool :=
  match op with
  | 0x01 => n % 4 == 0 && 4 ≤ n && n ≤ 256
  | 0x02 => n == 5
  | 0x03 => n == 32
  | 0x04 => n == 0
  | 0x05 => n == 0
  | 0x81 => n % 12 == 0 && 12 ≤ n && n ≤ 384
  | 0x82 => 5 ≤ n && n ≤ 1028
  | 0x83 => 5 ≤ n && n ≤ 1028
  | 0x84 => n == 4
  | 0x85 => 5 ≤ n && n ≤ 1028
  | 0x86 => n == 4
  | 0x87 => n == 28
  | 0x88 => n == 274
  | 0x89 => n == 8
  | 0x8A => n == 20
  | 0x8B => n == 44
  | 0x8C => n == 1
  | 0x8D => n == 1
  | 0x8E => n == 2
  | _ => false

/-- The fields of a body whose layout admits only some values (R470). -/
def helmBodyForm (op : Nat) (b : List Byte) : Bool :=
  match op with
  | 0x02 => let n := beField b 4 1; 1 ≤ n && n ≤ 16
  | 0x87 => beField b 25 1 == 0
  | 0x8C => beField b 0 1 ≤ 1
  | _ => true

/-- A request as received (R467). -/
structure HelmMsg where
  op : Nat
  reqId : Nat
  target : Nat
  keyfp : Nat
  count : Nat
  bodyLen : Nat
  body : List Byte
  sig : List Byte
  deriving DecidableEq, Repr

def HelmMsg.ofBytes (b : List Byte) : HelmMsg :=
  let n := beField b 32 2
  ⟨beField b 3 1, beField b 4 4, beField b 8 8, beField b 16 8, beField b 24 8, n, sliceBytes b 36 n, sliceBytes b (36 + n) 114⟩

/-- An operation that must be signed, or a request that carries a key (R467, R468). -/
def HelmMsg.signed (m : HelmMsg) : Bool := 0x80 ≤ m.op || m.keyfp != 0

/-- Check 1 (R468): the STATUS when it fails. -/
def Chip.helmForm (c : Chip) (b : List Byte) (m : HelmMsg) : Option Nat :=
  if b.length < 36 ∨ 1472 < b.length ∨ beField b 0 2 ≠ 0x484C ∨ beField b 2 1 ≠ 1 then some 6
  else if !helmKnown m.op ∨ (c.recovery && !helmInRecovery m.op) then some 0x0A
  else if b.length ≠ 36 + m.bodyLen + (if m.keyfp = 0 then 0 else 114) ∨ beField b 34 2 ≠ 0 ∨ !helmBodyLen m.op m.bodyLen ∨ !helmBodyForm m.op m.body then some 6
  else none

/-- The role an enrolled key has; nothing for an unknown key. -/
def Chip.keyRole (c : Chip) (fp : Nat) : Option Nat := (c.nvm.keys.find? (fun k => k.fp == fp)).map (·.role)

/-- Check 6: a role may perform an operation (R470). -/
def Chip.helmMay (c : Chip) (m : HelmMsg) (role : Nat) : Bool :=
  let oper := role == 1 || role == 2
  match m.op with
  | 0x81 => oper
  | 0x82 => role == 2
  | 0x83 => role == 2
  | 0x84 => role == 2
  | 0x85 => role == 2 || role == 3
  | 0x86 => role == 2 || role == 3
  | 0x87 => oper
  | 0x88 => (match beField m.body 6 1 with
    | 1 => role == 2
    | 2 => role == 3
    | _ => role == 2 || role == 3)
  | 0x89 => (match c.keyRole (beField m.body 0 8) with
    | some 1 => role == 2
    | some 2 => role == 3
    | _ => role == 2 || role == 3)
  | 0x8A => oper
  | 0x8B => role == 2
  | 0x8C => role == 3
  | 0x8D => role == 3
  | 0x8E => role == 3
  | _ => true

/-- The stored counter of a key (R459, R468). -/
def Chip.keyCount (c : Chip) (fp : Nat) : Nat :=
  match c.nvm.keys.find? (fun k => k.fp == fp && c.keyLive k) with
  | some k => k.count
  | none => c.nvm.rootCount

/-- A request has passed check 5: the counter is raised to COUNT. -/
def Chip.raiseCount (c : Chip) (fp n : Nat) : Chip :=
  match c.nvm.keys.find? (fun k => k.fp == fp && c.keyLive k) with
  | some _ => c.modNvm (fun v => { v with keys := v.keys.map (fun k => if k.fp = fp then { k with count := n } else k) })
  | none => c.modNvm (fun v => { v with rootCount := n })

/-- A refusal record (R468, R483): no role is in context. -/
def Chip.helmRefusal (c : Chip) (m : HelmMsg) (ip status : Nat) : Chip :=
  c.logPut ⟨kRefusal, 0, status, m.keyfp, at_ 159 128 m.op + at_ 127 64 m.count + at_ 63 0 ip⟩

/-- Reply to a request that is not executed. -/
def Chip.helmTurn (c : Chip) (m : HelmMsg) (ip port status : Nat) : Chip := c.sendDgram ip port (helmReply m.op status 0 m.reqId [])

/-- A refusal at checks 3 to 6: reply, record, count and event. -/
def Chip.helmRefuse (c : Chip) (m : HelmMsg) (ip port status : Nat) (f : Fld) (ev : Nat) : Chip :=
  ((((c.sat f).event ev 0)).helmRefusal m ip status).helmTurn m ip port status

/-- The queue of 16 (R473). -/
def helmQueueMax : Nat := 16

/-- A request joins the queue, or is answered BUSY. -/
def Chip.helmAccept (c : Chip) (m : HelmMsg) (role fp ip port : Nat) : Chip :=
  if c.mgt.queue.length < helmQueueMax then c.modMgt (fun s => { s with queue := s.queue ++ [⟨m.op, m.reqId, role, fp, m.count, m.body, ip, port⟩] })
  else c.helmTurn m ip port 7

/-- Checks 3 to 6 of a signed request (R468): `d` is its digest. -/
def Chip.helmSigned (c : Chip) (m : HelmMsg) (d : List Byte) (ip port : Nat) : Chip :=
  match (if m.keyfp = 0 then none else c.keyOf m.keyfp) with
  | none => c.helmRefuse m ip port 3 F.MGT_HELM_UNKNOWN 242
  | some (role, pub) =>
    if m.count ≤ c.keyCount m.keyfp then c.helmRefuse m ip port 4 F.MGT_HELM_REPLAY 243
    else if !edVerify pub (ascii "AEDURN HELM") d m.sig then c.helmRefuse m ip port 2 F.MGT_HELM_BAD_SIG 241
    else
      let c1 := c.raiseCount m.keyfp m.count
      if !c1.helmMay m role then c1.helmRefuse m ip port 1 F.MGT_HELM_DENIED 244
      else c1.helmAccept m role m.keyfp ip port

/-- HELM_REQUEST (R467, R468, R473): a datagram arrives from an address and port. -/
def Chip.helmRequest (c : Chip) (b : List Byte) (ip port : Nat) : Chip :=
  let m := HelmMsg.ofBytes b
  match c.helmForm b m with
  | some st => c.helmTurn m ip port st
  | none =>
    if m.target ≠ Config.serial ∧ (m.target ≠ 2 ^ 64 - 1 ∨ m.signed) then c.helmRefusal m ip 9
    else if m.signed then c.helmSigned m (digest64 (b.take (36 + m.bodyLen))) ip port
    else c.helmAccept m 0 0 ip port

/-! ## Execution (R469, R471 to R473) -/

/-- How an operation ends: STATUS, CODE and the reply's body. -/
structure HelmEnd where
  status : Nat
  code : Nat
  body : List Byte
  deriving DecidableEq, Repr

def helmOk (b : List Byte) : HelmEnd := ⟨0, 0, b⟩
def helmRefused (code : Nat) : HelmEnd := ⟨8, code, []⟩
def helmMalformed : HelmEnd := ⟨6, 0, []⟩

/-- The context the verifier holds while a request is executed (R469). -/
def Chip.setContext (c : Chip) (role fp : Nat) : Chip :=
  ((c.s F.MGT_ROLE_ROLE role).s F.MGT_ROLE_FP_HI_FP (fp / 2 ^ 32)).s F.MGT_ROLE_FP_LO_FP fp

/-- A Change record (R483): address, old, new, REQ_ID, STATUS, entries performed. -/
def Chip.changeRec (c : Chip) (q : HelmReq) (a old new status n : Nat) : Chip :=
  c.logCtx kChange q.op (at_ 159 128 a + at_ 127 96 old + at_ 95 64 new + at_ 63 32 q.reqId + at_ 31 24 status + at_ 23 16 n)

/-- The record of a signed operation that names no register: those fields are not stated. -/
def Chip.opRec (c : Chip) (q : HelmReq) (status n : Nat) : Chip :=
  let (x, c1) := c.free 96
  c1.logCtx kChange q.op (at_ 159 64 x + at_ 63 32 q.reqId + at_ 31 24 status + at_ 23 16 n)

/-- The request at the head of the queue is of an operation, and Helm executes it: the queue's rest, with its role and
fingerprint in context. -/
def Chip.helmTake (c : Chip) (op : Nat) : Option (HelmReq × Chip) :=
  match c.mgt.queue with
  | [] => none
  | q :: r => if c.helmUp ∧ q.op = op then some (q, (c.modMgt (fun m => { m with queue := r })).setContext q.role q.fp) else none

/-- Reply to a request (R472). -/
def Chip.helmAnswer (c : Chip) (q : HelmReq) (x : HelmEnd) : Chip := c.sendDgram q.ip q.port (helmReply q.op x.status x.code q.reqId x.body)

/-- A request with no signature is executed: nothing is recorded. -/
def Chip.helmRead (c : Chip) (op : Nat) (f : HelmReq → Chip → Chip × HelmEnd) : Chip :=
  match c.helmTake op with
  | none => c
  | some (q, c1) => let (c2, x) := f q c1; c2.helmAnswer q x

/-- A signed request is executed: its change is recorded, and event 240 says that it was performed. -/
def Chip.helmSignedOp (c : Chip) (op : Nat) (f : HelmReq → Chip → Chip × HelmEnd) : Chip :=
  match c.helmTake op with
  | none => c
  | some (q, c1) =>
    let (c2, x) := f q c1
    let c3 := c2.opRec q x.status 0
    (if x.status = 0 then c3.event 240 0 else c3).helmAnswer q x

/-! ## Operations without a signature -/

/-- Read a list of registers; the first bus error ends it. -/
def Chip.readRegs (i : Interlock) : List Nat → Chip → List Byte → Chip × HelmEnd
  | [], c, acc => (c, helmOk acc)
  | a :: r, c, acc =>
    let (w, err, c1) := c.busRead i .word a
    if err then (c1, ⟨5, 0, []⟩) else Chip.readRegs i r c1 (acc ++ beBytes 4 w.toNat)

/-- HELM_READ (R470). -/
def Chip.opRead (c : Chip) (i : Interlock) : Chip :=
  c.helmRead 0x01 (fun q c => Chip.readRegs i ((List.range (q.body.length / 4)).map (fun k => beField q.body (4 * k) 4)) c [])

/-- LOG_READ (R470, R486): the records held. -/
def Chip.opLogRead (c : Chip) : Chip :=
  c.helmRead 0x02 (fun q c =>
    let first := beField q.body 0 4
    let recs := (List.range (beField q.body 4 1)).filterMap (fun k => c.logGet (first + k))
    (c, helmOk (recs.flatMap (fun r => r.1.bytes))))

/-- The seed and the public key of the device identity key in force (R462). -/
def Chip.identitySeed (c : Chip) : List Byte := beBytes 57 (Config.identityKey c.nvm.idGen)
def Chip.identityPub (c : Chip) : List Byte := edPublic c.identitySeed

/-- Bytes 0 to 275 of the attestation report (R477). -/
def Chip.attestHead (c : Chip) (nonce : List Byte) : List Byte :=
  let flags := at_ 15 15 (c.g F.GBL_STAT_CHART_OK) + at_ 14 14 (c.g F.GBL_STAT_FELL_BACK) + at_ 13 13 (c.g F.INT_STAT_DEGRADED) +
    at_ 12 12 (c.g F.GBL_CTL_RUN_EN) + at_ 11 11 (c.g F.LOG_STAT_NVM_FAIL)
  let zero64 : List Byte := List.replicate 64 0
  ascii "ATST" ++ beBytes 2 1 ++ beBytes 2 flags ++ beBytes 8 Config.serial ++ sliceBytes nonce 0 32 ++ beBytes 16 c.stamp ++
    sliceBytes c.mgt.fwDigest 0 64 ++ beBytes 1 (c.g F.MGT_FW_SVN) ++ beBytes 1 c.nvm.fwFloor ++ beBytes 2 0 ++
    (if c.work = [] then zero64 else trailDigest c.work) ++ (if c.trim = [] then zero64 else trailDigest c.trim) ++
    beBytes 4 c.log.pcyc ++ beBytes 4 c.log.optime ++ beBytes 8 (fingerprint c.identityPub)

/-- ATTEST (R477). -/
def Chip.opAttest (c : Chip) : Chip :=
  c.helmRead 0x03 (fun q c =>
    let h := c.attestHead q.body
    (c, helmOk (h ++ edSign c.identitySeed (ascii "AEDURN ATTEST") (digest64 h))))

/-- KEYS (R462, R470). -/
def Chip.opKeys (c : Chip) : Chip :=
  c.helmRead 0x04 (fun _ c =>
    (c, helmOk (c.nvm.keys.flatMap (fun k => beBytes 8 k.fp ++ beBytes 1 k.role ++ beBytes 8 k.issuer) ++ beBytes 274 Config.identityCert)))

/-- NET_GET (R470). -/
def Chip.opNetGet (c : Chip) : Chip :=
  c.helmRead 0x05 (fun _ c =>
    let n := c.mgt.net
    (c, helmOk (beBytes 6 n.mac ++ beBytes 4 n.ip4 ++ beBytes 1 n.prefix4 ++ beBytes 16 n.ip6 ++ beBytes 1 n.prefix6 ++ beBytes 16 n.gw ++
      beBytes 1 (c.g F.MGT_STAT_LINK) ++ beBytes 1 (c.g F.MGT_CTL_MODE) ++ beBytes 2 0)))

/-! ## WRITE (R471) -/

/-- The W1C bits of the register at an address. -/
def w1cAt (a : Nat) : Word :=
  match windowOf a with
  | some (p, o) => if o < 0x28 then ((linkSpec (o / 4)).map (fun r => BitVec.ofNat 32 r.w1c)).getD 0 else if p < 128 then ((mgrSpecAt a).map (fun r => BitVec.ofNat 32 r.w1c)).getD 0 else 0
  | none => ((mgrSpecAt a).map (fun r => BitVec.ofNat 32 r.w1c)).getD 0

/-- One masked entry: the word written, and how the access ends. -/
def Chip.maskedWrite (c : Chip) (i : Interlock) (a : Nat) (v mask : Word) (ok : Bool) : Word × Word × Chip × BusEnd :=
  let (old, err, _) := c.busRead i .word a
  if err then (old, old, c, .err)
  else
    let new := ((old &&& ~~~ mask) ||| (v &&& mask)) &&& ~~~ (w1cAt a &&& ~~~ mask)
    let (c1, e) := c.busWrite .word a new ok
    (old, new, c1, e)

/-- STATUS of an access (R471, R472). -/
def BusEnd.status : BusEnd → Nat
  | .ok => 0
  | .denied => 1
  | .err => 5

/-- WRITE's entries in order, from entry `k` of `n`: each is recorded; the first that fails ends it. -/
def Chip.writeEntries (q : HelmReq) (i : Interlock) (ok : Bool) : Nat → Nat → Chip → Chip × HelmEnd
  | 0, k, c => (c, helmOk (beBytes 1 k))
  | n + 1, k, c =>
    let a := beField q.body (12 * k) 4
    let f := fun (o : Nat) => BitVec.ofNat 32 (beField q.body (12 * k + o) 4)
    let (old, new, c1, e) := c.maskedWrite i a (f 4) (f 8) ok
    match e with
    | .ok => Chip.writeEntries q i ok n (k + 1) (c1.changeRec q a old.toNat new.toNat 0 (k + 1))
    | e => (c1.changeRec q a old.toNat new.toNat e.status k, ⟨e.status, 0, beBytes 1 k⟩)

/-- WRITE (R471): `ok` as for a register write. -/
def Chip.opWrite (c : Chip) (i : Interlock) (ok : Bool) : Chip :=
  match c.helmTake 0x81 with
  | none => c
  | some (q, c1) =>
    let (c2, x) := Chip.writeEntries q i ok (q.body.length / 12) 0 c1
    (if x.status = 0 then c2.event 240 0 else c2).helmAnswer q x

/-! ## Staging (R371, R470) -/

/-- Sizes of the staging buffers. -/
def stgChartMax : Nat := 4194304
def stgTrimMax : Nat := 37748736
def stgFwMax : Nat := 4194304

/-- Bytes put into a buffer at an offset; what lies between reads 0 until it is written. -/
def splice (l : List Byte) (o : Nat) (d : List Byte) : List Byte := sliceBytes l 0 o ++ d ++ l.drop (o + d.length)

/-- A CHUNK operation: the offset and the data of its body. -/
def chunkOf (q : HelmReq) (l : List Byte) (size : Nat) : Option (List Byte) :=
  let o := beField q.body 0 4
  let d := q.body.drop 4
  if size < o + d.length then none else some (splice l o d)

/-- CHART_CHUNK. -/
def Chip.opChartChunk (c : Chip) : Chip :=
  c.helmSignedOp 0x82 (fun q c => match chunkOf q c.mgt.stgChart stgChartMax with
    | some l => (c.modMgt (fun m => { m with stgChart := l }), helmOk [])
    | none => (c, helmMalformed))

/-- TRIM_CHUNK. -/
def Chip.opTrimChunk (c : Chip) : Chip :=
  c.helmSignedOp 0x83 (fun q c => match chunkOf q c.mgt.stgTrim stgTrimMax with
    | some l => (c.modMgt (fun m => { m with stgTrim := l }), helmOk [])
    | none => (c, helmMalformed))

/-- FW_CHUNK. -/
def Chip.opFwChunk (c : Chip) : Chip :=
  c.helmSignedOp 0x85 (fun q c => match chunkOf q c.mgt.stgFw stgFwMax with
    | some l => (c.modMgt (fun m => { m with stgFw := l }), helmOk [])
    | none => (c, helmMalformed))

/-! ## Marks, network, subscriptions -/

/-- MARK (R325, R470, R471). -/
def Chip.opMark (c : Chip) : Chip :=
  c.helmSignedOp 0x87 (fun q c =>
    let f := beField q.body
    let m : Mark := ⟨none, timeOf (f 0 8) (f 8 4) 0, f 12 4, f 16 4, f 20 4⟩
    let (c1, res) := c.deferred m (f 24 1 ≠ 0) (f 26 2)
    (c1, helmOk (beBytes 1 res)))

/-- NET (R470). -/
def Chip.opNet (c : Chip) : Chip :=
  c.helmSignedOp 0x8B (fun q c =>
    let f := beField q.body
    (c.modMgt (fun m => { m with net := ⟨f 0 6, f 6 4, f 10 1, f 11 16, f 27 1, f 28 16⟩ }), helmOk []))

/-- Subscribers (R474). -/
def subMax : Nat := 4

/-- SUBSCRIBE (R474), when lapsed subscriptions are gone: a new subscriber, a renewal, or a refusal with CODE 0x00. -/
def Chip.opSubscribe (c : Chip) : Chip :=
  c.helmSignedOp 0x8A (fun q c =>
    let f := beField q.body
    let ip := f 0 16
    let port := f 16 2
    let mask := f 18 2
    let lapse := c.tick + 600 * sTicks
    let c := c.modEvt (fun v => { v with subs := v.subs.filter (fun s => decide (c.tick < s.lapse)) })
    match c.evt.subs.find? (fun s => s.ip == ip && s.port == port) with
    | some s => (c.modEvt (fun v => { v with subs := v.subs.map (fun x => if x.num = s.num then { x with mask := mask, lapse := lapse } else x) }), helmOk (beBytes 1 s.num))
    | none => match (List.range subMax).find? (fun n => !c.evt.subs.any (fun s => s.num == n)) with
      | some n => (c.modEvt (fun v => { v with subs := v.subs ++ [⟨n, ip, port, mask, lapse, 0, [], []⟩] }), helmOk (beBytes 1 n))
      | none => (c, helmRefused 0))

/-! ## Management port frames (R249, R478) -/

/-- The external latency the manager adds with SGMII, in SUBNS LSBs; the field counts 1/64 ns (R249, R272). -/
def Chip.phyLat (c : Chip) (f : Fld) : Nat := if c.b F.MGT_CTL_MODE then 16 * c.g f else 0

/-- MGMT_FRAME_RECEIVED: a frame reaches the cores with its timestamp trailer (R249); its start-of-frame delimiter crosses
`sub` SUBNS LSBs into the present MCK cycle. -/
def Chip.frameIn (c : Chip) (b : List Byte) (sub : Nat) : Chip :=
  if !c.b F.MGT_STAT_LINK then c
  else
    let t := c.sub + sub + c.phyLat F.MER_PTP_LAT_RX_LAT
    c.modMgt (fun m => { m with rx := m.rx ++ [b ++ beBytes 6 (secOf t) ++ beBytes 4 (nsOf t) ++ beBytes 2 (subnsOf t)] })

/-- MGMT_FRAME_SEND: a transmit descriptor sends a frame; with TS_REQ its timestamp, `sub` SUBNS LSBs into the
present cycle, is queued under TS_ID. -/
def Chip.frameOut (c : Chip) (b : List Byte) (tsReq : Bool) (tsId sub : Nat) : Chip :=
  if !c.b F.MGT_STAT_LINK ∨ !c.helmUp then c
  else
    let c1 := c.modMgt (fun m => { m with tx := m.tx ++ [b] })
    if tsReq then c1.txtsPush (tsId % 65536) (c.sub + sub + c.phyLat F.MER_PTP_LAT_TX_LAT) else c1

/-- MGMT_LINK_CHANGE (R479). -/
def Chip.mgmtLink (c : Chip) (up : Bool) : Chip :=
  if c.b F.MGT_STAT_LINK = up then c else (c.s F.MGT_STAT_LINK up.toNat).event 254 0

end Sys2Proof
end

