-- ==== Sys2Proof/Machine/HelmAdmin.lean ====
section
/-!
DEFINITION. Machine/HelmAdmin.lean: the operations of Helm on trim sets (R475, R476), firmware (R463 to R465), keys (R460
to R462), diagnostics and fuses (R470).
-/
namespace Sys2Proof

/-! ## Trim sets (R475, R476) -/

/-- The SLOT values ascend without repeats. -/
def trimOrder (g : Image) (n : Nat) : Bool :=
  (List.range (n - 1)).all (fun i => decide (beField g (64 + 35336 * i) 2 < beField g (64 + 35336 * (i + 1)) 2))

/-- The bits of a worker register no write sets. -/
def roMask (name : String) : Nat :=
  match wkrSpecs.find? (fun r => r.name == name) with
  | some r => 2 ^ 32 - 1 - r.rw
  | none => 0

/-- Reserved fields and RO fields of the tile words are 0. -/
def trimZero (g : Image) (n : Nat) : Bool :=
  let thr := roMask "TILE_THR"
  let afe := roMask "TILE_AFE"
  (List.range n).all (fun i =>
    let o := 64 + 35336 * i
    beField g (o + 2) 6 == 0 && (List.range 64).all (fun t =>
      Nat.land (beField g (o + 8 + 8 * t) 4) thr == 0 && Nat.land (beField g (o + 12 + 8 * t) 4) afe == 0))

/-- The verification of a staged trim set of a length (R476): the reason code of the first check that fails. -/
def Chip.verifyTrim (c : Chip) (l : List Byte) (len : Nat) : Option Nat :=
  if len < 250 ∨ stgTrimMax < len then some 0x15
  else
    let g := sliceBytes l 0 len
    let n := beField g 6 2
    if beField g 8 4 ≠ len then some 0x15
    else if beField g 0 4 ≠ 0x4154524D then some 0x11
    else if beField g 4 2 ≠ 1 then some 0x12
    else match c.sealFault g "AEDURN TRIM" installerOrMaker with
      | some r => some r
      | none =>
        if 1024 < n ∨ len ≠ 64 + 35336 * n + 186 ∨ !trimOrder g n then some 0x19
        else if !trimZero g n then some 0x1A
        else none

/-- TRIM_COMMIT (R476, R486): `ok` tells whether the write and the read-back succeed; a failed write leaves no verified
trim set. -/
def Chip.opTrimCommit (c : Chip) (ok : Bool) : Chip :=
  c.helmSignedOp 0x84 (fun q c =>
    let len := beField q.body 0 4
    let refuse := fun (c : Chip) (code : Nat) => (c.event 27 0, helmRefused code)
    if c.run then refuse c 0x1D
    else if c.b F.LOG_STAT_NVM_FAIL then refuse c 0x1C
    else match c.verifyTrim c.mgt.stgTrim len with
      | some r => refuse c r
      | none =>
        if ok then (({ c with trim := sliceBytes c.mgt.stgTrim 0 len }).event 26 0, helmOk [])
        else refuse { c with trim := [] } 0x1C)

/-! ## Firmware (R463 to R465) -/

/-- SVN of a firmware image. -/
def fwSvn (g : Image) : Nat := beField g 7 1

/-- The verification of a firmware image (R465). -/
def Chip.verifyFw (c : Chip) (g : Image) (len : Nat) : Option Nat :=
  if len < 256 ∨ stgFwMax < len ∨ beField g 8 4 ≠ len then some 0x15
  else if beField g 0 4 ≠ 0x41465749 then some 0x11
  else if beField g 4 2 ≠ 0x0A31 ∨ c.g F.GBL_ID_REV < beField g 6 1 then some 0x13
  else if beField g 16 48 ≠ 0 then some 0x1A
  else
    let e := beField g 12 4
    if e % 4 ≠ 0 ∨ e < 64 ∨ len - 190 < e then some 0x1B
    else match c.sealFault g "AEDURN FIRMWARE" (fun r => r == 3) with
      | some r => some r
      | none => if fwSvn g < c.nvm.fwFloor then some 0x84 else none

/-- Put an image into a firmware slot in a state. -/
def Chip.setFw (c : Chip) (k st : Nat) (g : Image) : Chip := c.modNvm (fun n => { n with fws := AMap.set (always FwSlot.init) n.fws k ⟨st, g⟩ })

/-- A firmware slot is marked BAD (R463). -/
def Chip.fwBad (c : Chip) (k : Nat) : Chip :=
  c.modNvm (fun n => { n with fws := AMap.upd (always FwSlot.init) n.fws k (fun x => { x with state := slotBad }) }) |>.event 249 0

/-- FW_COMMIT (R465, R486): written to the slot not running, read back, verified, marked VALID. `ok` tells whether the
write and the read-back succeed. -/
def Chip.opFwCommit (c : Chip) (ok : Bool) : Chip :=
  c.helmSignedOp 0x86 (fun q c =>
    let len := beField q.body 0 4
    let k := 1 - c.g F.MGT_STAT_BOOT_SLOT
    if c.b F.LOG_STAT_NVM_FAIL then (c, helmRefused 0x1C)
    else if stgFwMax < len then (c, helmRefused 0x15)
    else
      let g := sliceBytes c.mgt.stgFw 0 len
      let c1 := c.setFw k slotBad g
      if !ok then (c1.event 249 0, helmRefused 0x1C)
      else match c.verifyFw g len with
        | some r => (c1.event 249 0, helmRefused r)
        | none =>
          let c2 := (c.setFw k slotValid g).modNvm (fun n => { n with lastFw := k, fwFloor := max n.fwFloor (min (fwSvn g) 64) })
          (c2.event 247 0, helmOk (beBytes 1 k)))

/-! ## Keys (R459 to R462) -/

/-- Enrolled keys (R459). -/
def keyMax : Nat := 32

/-- A certificate that may be enrolled (R460). -/
def Chip.certGood (c : Chip) (b : List Byte) : Bool :=
  let f := beField b
  let role := f 6 1
  let target := f 8 8
  let form := f 0 4 == 0x41435254 && f 4 2 == 1 && (role == 1 || role == 2) && f 7 1 == 0 && f 81 7 == 0 && (target == Config.serial || target == 2 ^ 64 - 1)
  let digest := sliceBytes b 96 64
  form && digest == digest64 (b.take 96) &&
    (match c.keyOf (f 88 8) with
    | some (r, pub) => (if role = 1 then r == 2 else r == 3) && edVerify pub (ascii "AEDURN CERT") digest (sliceBytes b 160 114)
    | none => false)

/-- ENROL (R460, R461, R486). The CODE of a refusal is stated only for a failed memory. -/
def Chip.opEnrol (c : Chip) : Chip :=
  c.helmSignedOp 0x88 (fun q c =>
    let b := q.body
    let pub := sliceBytes b 24 57
    let fp := fingerprint pub
    let known := c.nvm.keys.any (fun k => k.fp == fp)
    if c.b F.LOG_STAT_NVM_FAIL then (c, helmRefused 0x1C)
    else if !c.certGood b ∨ (!known && decide (keyMax ≤ c.nvm.keys.length)) then let (x, c1) := c.free 8; (c1, helmRefused x)
    else
      let e : KeyEnt := ⟨beField b 6 1, fp, beField b 88 8, pub, beField b 16 8, 0⟩
      let keys := if known then c.nvm.keys.map (fun k => if k.fp = fp then { e with count := k.count } else k) else c.nvm.keys ++ [e]
      ((c.modNvm (fun n => { n with keys := keys })).event 245 0, helmOk []))

/-- REVOKE (R461, R486). -/
def Chip.opRevoke (c : Chip) : Chip :=
  c.helmSignedOp 0x89 (fun q c =>
    let fp := beField q.body 0 8
    if c.b F.LOG_STAT_NVM_FAIL then (c, helmRefused 0x1C)
    else if (c.keyRole fp).isNone then let (x, c1) := c.free 8; (c1, helmRefused x)
    else ((c.modNvm (fun n => { n with keys := n.keys.filter (fun k => k.fp != fp) })).event 246 0, helmOk []))

/-- REKEY (R462): the next generation of the device identity key, or the next maker root slot, whose counter starts at 0. -/
def Chip.opRekey (c : Chip) : Chip :=
  c.helmSignedOp 0x8C (fun q c =>
    if beField q.body 0 1 = 0 then
      let c1 := c.modNvm (fun n => { n with idGen := n.idGen + 1 })
      (c1, helmOk c1.identityPub)
    else (c.modNvm (fun n => { n with rootIx := min 4 (n.rootIx + 1), rootCount := 0 }), helmOk []))

/-! ## Diagnostics and fuses (R470) -/

/-- DIAG: what a mode other than 0x00 does is not stated. -/
def Chip.opDiag (c : Chip) : Chip :=
  c.helmSignedOp 0x8D (fun q c => ((c.modMgt (fun m => { m with diag := beField q.body 0 1 })).event 255 0, helmOk []))

/-- FUSE_READ. -/
def Chip.opFuseRead (c : Chip) : Chip :=
  c.helmSignedOp 0x8E (fun q c => (c, helmOk (beBytes 4 (Config.fuseWord (beField q.body 0 2)))))

end Sys2Proof
end

