-- ==== Sys2Proof/Machine/Trim.lean ====
section
/-!
DEFINITION. Machine/Trim.lean: what the manager does within LIMITS to pixels and tiles (R82, R161, R366, R482), and the
MONITOR frames (R340).
-/
namespace Sys2Proof

/-- The slot takes the manager's own changes: it is enumerated and not out of reach. -/
def Chip.trimmable (c : Chip) (slot : Nat) : Bool :=
  let st := c.sg F.PRT_SLOT_STATE slot
  decide (slot < 1024) && (st == stReady || st == stRunning) && c.int.coresUp

/-- NOISY_PIXEL_MASK (R82, R366): MASK_AUTO of pixel `a` is set, when its noise rate in mHz exceeds NOISY_RATE and fewer
than MASK_MAX pixels of the worker are masked so, or cleared. Each change is recorded. -/
def Chip.noisyMask (c : Chip) (slot a : Nat) (on : Bool) (rate : Nat) : Chip :=
  let l := (c.slot slot).autoMask
  let has := l.contains a
  if !c.trimmable slot ∨ !limFlag c.work limMaskAuto ∨ 16384 ≤ a ∨ on = has then c
  else if on ∧ (rate ≤ limNoisyRate c.work ∨ limMaskMax c.work ≤ l.length) then c
  else
    let l1 := if on then l ++ [a] else l.erase a
    ((c.modSlot slot (fun x => { x with autoMask := l1 })).ownCmd slot false (0x1000 + a) 0 (.maskRead on)).logAuto limMaskAuto slot
      (at_ 63 32 a + has.toNat) (at_ 63 32 a + on.toNat)

/-- A tile without a validated hit for more than PG_IDLE seconds is powered down within LIMITS (R366). -/
def Chip.idleTile (c : Chip) (slot t idle : Nat) : Chip :=
  let l := (c.slot slot).autoPg.filter (fun u => (c.worker slot).g (F.TILE_AFE_PG.ix 4 u) = 1)
  if !c.trimmable slot ∨ !limFlag c.work limTilePg ∨ 64 ≤ t ∨ idle < limPgIdle c.work ∨ limPgMax c.work ≤ l.length ∨ l.contains t then c
  else ((c.modSlot slot (fun x => { x with autoPg := l ++ [t] })).ownCmd slot false (0x301 + 4 * t) 0 .pgRead).logAuto limTilePg slot (at_ 63 32 t) (at_ 63 32 t + 1)

/-- TRIM_LO of a pixel in the worker's trim set. -/
def trimSetLo (g : Image) (o a : Nat) : Nat := beField g (o + 520 + 2 * a) 2 / 2 ^ 10

/-- The updates of a cycle that LIMITS admits: the first of each pixel, with the size of its change. -/
def Chip.trimUpdates (c : Chip) (slot : Nat) (l : List (Nat × Nat)) : List (Nat × Nat × Nat) :=
  match trimRec c.trim slot with
  | none => []
  | some o =>
    let w := c.worker slot
    let dist := fun (x y : Nat) => max x y - min x y
    l.foldl (fun acc u =>
      let now := w.g (F.PIX_TRIM_LO.ix 1 u.1)
      let d := dist u.2 now
      if 16384 ≤ u.1 ∨ 64 ≤ u.2 ∨ d = 0 ∨ limTrimStep c.work < d ∨ limTrimDev c.work < dist u.2 (trimSetLo c.trim o u.1) ∨ acc.any (fun x => x.1 == u.1) then acc
      else acc ++ [(u.1, u.2, d)]) []

/-- TRIM blocks of up to four updates, in order (R161). -/
def Chip.sendTrims (slot : Nat) : Nat → Chip → List (Nat × Nat × Nat) → Chip
  | 0, c, _ => c
  | n + 1, c, l =>
    if l = [] then c
    else Chip.sendTrims slot n (c.toSlot slot (mkTrim (c.posOf slot) ((l.take 4).map (fun u => trimUpd u.1 false u.2.1)))) (l.drop 4)

/-- TRIM_UPDATE_CYCLE (R366, R482): once per TRIM_INT Trim sends the changes of TRIM_LO it has decided on, as far as LIMITS
admits them, and one record tells how many pixels changed and by how much at most. -/
def Chip.trimCycle (c : Chip) (slot : Nat) (l : List (Nat × Nat)) : Chip :=
  let due : Bool := match (c.slot slot).trimAt with
    | some t => decide (t + max 1 (limTrimInt c.work) * sTicks ≤ c.tick)
    | none => true
  if !c.trimmable slot ∨ !limFlag c.work limTrimAuto ∨ !due then c
  else
    let us := c.trimUpdates slot l
    let c1 := (Chip.sendTrims slot us.length c us).modSlot slot (fun x => { x with trimAt := some c.tick })
    c1.logAuto limTrimAuto slot us.length (us.foldl (fun m u => max m u.2.2) 0)

/-! ## MONITOR frames (R340) -/

/-- The entries of a MONITOR frame: address and value; a register that answers with a bus error reads as its result. -/
def Chip.monEntries (i : Interlock) : List Nat → Chip → List (List Byte) → Chip × List (List Byte)
  | [], c, acc => (c, acc)
  | a :: r, c, acc => let (w, _, c1) := c.busRead i .word a; Chip.monEntries i r c1 (acc ++ [beBytes 4 a ++ beBytes 4 w.toNat])

/-- One MONITOR frame's object goes to its lane. -/
def Chip.monPut (dest : Nat) (c : Chip) (b : List Byte) : Chip :=
  let o : EObj := ⟨.monitor, 0, 0, c.egr.monSerial, dest, 0, 0, c.g F.MER_STAT_STATE, 0, false, false, false, false, 0, 0, none, 0, 0, 0, [], 0, 0, 0, 0, b, 0⟩
  (c.modEgr (fun e => { e with monSerial := (e.monSerial + 1) % 2 ^ 32 })).putObj o

/-- Whole entries to a frame. -/
def Chip.monSend (dest per : Nat) : Nat → Chip → List (List Byte) → Chip
  | 0, c, _ => c
  | n + 1, c, l => if l = [] then c else Chip.monSend dest per n (Chip.monPut dest c (l.take per).flatten) (l.drop per)

/-- MONITOR_FRAME (R340): every MON_INT ms the listed registers are read and sent. -/
def Chip.monitorFrame (c : Chip) (i : Interlock) : Chip :=
  let dest := chartF c.work secEgress 24 1
  let int := c.g F.EGR_SYSDEST_MON_INT
  if c.work = [] ∨ egNDest c.work ≤ dest ∨ int = 0 ∨ egNMon c.work = 0 ∨ c.tick < c.egr.monAt + int * msTicks then c
  else
    let (c1, l) := Chip.monEntries i ((List.range (egNMon c.work)).map (monReg c.work)) c []
    let c2 := Chip.monSend dest (max 1 (c.maxPayload dest / 8)) l.length c1 l
    c2.modEgr (fun e => { e with monAt := c.tick })

end Sys2Proof
end

