-- ==== Sys2Proof/Machine/Power.lean ====
section
/-!
DEFINITION. Machine/Power.lean: the resets of the manager and of the workers, the boot (R463), supplies, temperature and
the TAP (R494 to R500, R504, R510).
-/
namespace Sys2Proof

/-! ## Reset of the manager (R496, R497) -/

/-- The manager runs: it is not held in reset. -/
def Chip.live (c : Chip) : Bool := !c.pwr.por && !c.pwr.resetN

/-- Meridian after a reset: lost, counting from 0 (R244, R496). -/
def merAt (t : Nat) : Mer :=
  { Mer.init with ofs := -(1600 * (t : Int)), reckFrom := t, lastFix := t, ppsLast := t, ptpLast := t, peerLast := t }

/-- A memory after a reset: its remap entries, spare rows and retirements are reloaded (R400). -/
def MemX.reloaded (m : MemX) : MemX := { MemX.init with remaps := m.remaps, retired := m.retired }

/-- Integrity logic after a reset; the operating system does not run yet. -/
def integAt (i : Integ) (t : Nat) : Integ :=
  { Integ.init with mems := AMap.mapV (always MemX.init) i.mems MemX.reloaded, coresUp := false, ckptAt := t, ckptPrev := t }

/-- Wake after a reset: only the pages retired are known. -/
def wakeAt (i : Integ) : Wake :=
  let pages := (i.mems.filter (fun e => isStack e.1)).flatMap (fun e => e.2.retired.filter (fun n => decide (n < wakePages)))
  { Wake.init with pages := pages.foldl (fun m n => AMap.set (always WPage.init) m n { WPage.init with bad := true }) [] }

/-- What the non-volatile memory holds at power-up, when it failed before: entries made since are lost (R486). -/
def Chip.nvmReload (c : Chip) : Chip :=
  match c.nvm.atFail with
  | none => c
  | some x =>
    let c1 := c.modNvm (fun n => { n with keys := x.keys, rootCount := x.rootCount, atFail := none })
    (c1.modInt (fun i => { i with mems := x.mems })).modLog (fun l => { l with optime := x.optime, pcyc := x.pcyc })

/-- The Logbook after a power-on reset (R486, R487): what was in SRAM is lost, and SEQ continues from the newest record. -/
def logPor (l : LogState) : LogState :=
  let top := fun (m : AMap LogRec) => m.foldl (fun n e => max n (e.2.seq + 1)) 0
  { l with queue := [], waiting := [], ring := [], exports := [], tries := 0, failedLocs := 0,
           nextSeq := if l.circ = [] then top l.perm else top l.circ }

/-- The registers of the memories' entries, reloaded (R400, R415). -/
def Chip.memRegs (c : Chip) : Chip :=
  c.int.mems.foldl (fun c e => (c.s (memFld F.INT_MEM1_REMAP_USED e.1) e.2.remaps.length).s (memFld F.INT_MEM3_RETIRED e.1) e.2.retired.length) c

/-- The bias-slope channel, which converter B serves for as long as power is applied (R434). -/
def slopeKept (h : Hk) : Hk := { Hk.init with subs := h.subs, subAt := h.subAt, slope := h.slope, slope60 := h.slope60 }

/-- Copy a field of the registers before a reset. -/
def Chip.keepF (c old : Chip) (f : Fld) : Chip := c.s f (old.g f)

/-- A reset of the manager: every register at its reset value, all volatile state lost; what the ports' pins receive does
not change with it. `por`: a power-on reset, which the failure of the non-volatile memory and the Logbook's SRAM do not
outlive. -/
def Chip.resetState (c : Chip) (por : Bool) : Chip :=
  let c0 := if por then c.nvmReload else c
  let fail := if por then 0 else c0.g F.LOG_STAT_NVM_FAIL
  let ports := AMap.mapV (always Port.init) c0.ports (Port.afterReset false)
  let c1 : Chip := { c0 with regs := [], hot := [], ports := ports, eng := [], pairs := [], slots := [], evt := ⟨[], [], [], false⟩, rose := .init, egr := .init,
                             hk := slopeKept c0.hk }
  let c2 : Chip := { c1 with mer := merAt c.tick, que := { Que.init with retired := (c0.mem 0).retired.length }, wake := wakeAt c0.int, int := integAt c0.int c.tick,
                             work := [], bus := ⟨0, false, false⟩ }
  let c3 := c2.modNvm (fun n => { n with charts := AMap.mapV (always ChartSlot.init) n.charts (fun x => { x with lreason := 0 }) })
  let c4 := c3.modMgt (fun m => { m with queue := [], stgChart := [], stgTrim := [], stgFw := [], rx := [], diag := 0, fwDigest := [] })
  let c5 := c4.modPwr (fun p => { p with cold := true, digestAt := c.tick, checkAt := none })
  let c6 := (if por then c5.modLog logPor else c5).modLog (fun l => { l with wrWait := 0 })
  let c7 := (c6.s F.LOG_STAT_NVM_FAIL fail).memRegs
  ((c7.s F.QUE_POOL_MIN_MIN c7.poolFree).keepF c F.HK_STAT_SLOPE_B |>.keepF c F.HK_SLOPE_VALID).keepF c F.HK_SLOPE_WIN

/-! ## Boot (R463, R483) -/

/-- The candidates of BOOT_SEL, in order (R463). -/
def Chip.bootOrder (c : Chip) : List Nat :=
  let used := fun (k : Nat) => decide (c.fwState k ≠ slotEmpty)
  let x := fun (k : Nat) => AMap.get (always FwSlot.init) c.nvm.fws k
  let rank := fun (k : Nat) => (if (x k).state = slotValid then 4 else 0)
  match c.pwr.bootSel with
  | 0 =>
    let s0 := fwSvn (x 0).image
    let s1 := fwSvn (x 1).image
    let oneFirst : Bool := decide (rank 0 < rank 1) || (decide (rank 0 = rank 1) && (decide (s0 < s1) || (s0 == s1 && c.nvm.lastFw == 1)))
    (if oneFirst then [1, 0] else [0, 1]).filter used
  | 1 => [0].filter used
  | 2 => [1].filter used
  | _ => []

/-- The Boot record (R483); in recovery no slot, and the fields of an image are not stated. -/
def Chip.bootRecord (c : Chip) (k : Option Nat) : Chip :=
  match k with
  | some k => c.logDev kBoot k (at_ 159 152 (c.g F.MGT_FW_SVN) + at_ 151 144 c.nvm.fwFloor + at_ 143 136 c.pwr.bootSel + at_ 127 0 (beField c.mgt.fwDigest 0 16))
  | none =>
    let (x, c1) := c.free 152
    c1.logDev kBoot (lowBits 16 x) (at_ 159 152 (bitsOf x 23 16) + at_ 151 144 c.nvm.fwFloor + at_ 143 136 c.pwr.bootSel + at_ 127 0 (x / 2 ^ 24))

/-- No candidate is left, or BOOT_SEL asks for it: the boot ROM serves Helm's subset. -/
def Chip.enterRecovery (c : Chip) : Chip := (((c.s F.MGT_STAT_RECOVERY 1).modInt (fun i => { i with coresUp := false })).bootRecord none).event 250 0

/-- The boot ROM tries candidates: the first that verifies is started on pair A. -/
def Chip.bootFrom (first : Nat) : List Nat → Chip → Chip
  | [], c => c.enterRecovery
  | k :: r, c =>
    let g := (AMap.get (always FwSlot.init) c.nvm.fws k).image
    match c.verifyFw g g.length with
    | some _ => Chip.bootFrom first r (c.fwBad k)
    | none =>
      let c1 := ((c.s F.MGT_STAT_BOOT_SLOT k).s F.MGT_FW_SVN (fwSvn g)).modMgt (fun m => { m with fwDigest := trailDigest g })
      let c2 := (c1.modInt (fun i => { i with coresUp := true })).bootRecord (some k)
      if k = first then c2 else c2.event 248 0

/-- The firmware is selected and started (R463). -/
def Chip.boot (c : Chip) : Chip :=
  let l := c.bootOrder
  let c1 := c.s F.MGT_STAT_BOOT_SEL c.pwr.bootSel
  Chip.bootFrom (l.headD 0) l c1

/-- CORE_REBOOT (R411): the pair reboots from the firmware slots. -/
def Chip.rebootCores (c : Chip) : Chip :=
  let c1 := c.coreReboot
  if !c.int.coresUp ∧ c1.int.coresUp then c1.boot else c1

/-! ## Release of reset (R496 to R498, R500) -/

/-- Ports start to hunt when the reset is released. -/
def Chip.startPorts (c : Chip) : Chip := (List.range 130).foldl (fun c p => let x := c.port p; c.setPort p { x with rx := { x.rx with huntFrom := c.tick } }) c

/-- The manager starts (R496): BOOT_SEL is sampled, the start-up self-test runs, and the firmware boots. `nvmOk`: the
non-volatile memory can be read; without it the manager starts in recovery (R486). -/
def Chip.startUp (c : Chip) (bootSel : Nat) (nvmOk : Bool) : Chip :=
  let c1 := { c with mer := merAt c.tick }.startPorts.modPwr (fun p => { p with bootSel := bootSel % 4 })
  let c2 := c1.stupStart true
  if nvmOk then c2.boot else (c2.s F.MGT_STAT_BOOT_SEL (bootSel % 4) |>.enterRecovery).logFail 3 false

/-- Supplies of groups 1 to 3, by number (R492, R495): all but VDD_HK and VDD_SAFE. -/
def startRails : List Nat := [0, 1, 2, 3, 4, 5, 6, 7, 8]

/-- POWER_ON_RESET_RELEASE (R484, R496, R500): the straps are sampled and the power-cycle count advances; a RESET_N that is
low goes on holding the manager, and its held-low count starts. -/
def Chip.porRelease (c : Chip) (bootSel : Nat) (stuckPol nvmOk : Bool) : Chip :=
  if !c.pwr.por ∨ startRails.any c.pwr.brown.contains then c
  else
    let c1 := (c.modPwr (fun p => { p with por := false, stuckPol := stuckPol })).modLog (fun l => { l with pcyc := (l.pcyc + 1) % 2 ^ 32 })
    if c1.pwr.resetN then c1.modPwr (fun p => { p with lowSince := some c.tick })
    else (c1.startUp bootSel nvmOk).event 0 0

/-- RESET_N_ASSERT (R497, R498): a low long enough is honoured; while RESET_N is ignored it only restarts the high count. -/
def Chip.resetAssert (c : Chip) : Chip :=
  if c.pwr.ignored then c.modPwr (fun p => { p with highSince := none })
  else if c.pwr.resetN then c
  else
    let c1 := c.modPwr (fun p => { p with resetN := true, lowSince := some c.tick })
    if c.pwr.por then c1 else c1.resetState false

/-- RESET_N_RELEASE (R497, R498): the manager starts, without a power-on reset; event 1 follows. -/
def Chip.resetRelease (c : Chip) (bootSel : Nat) (nvmOk : Bool) : Chip :=
  if c.pwr.ignored then c.modPwr (fun p => { p with highSince := some c.tick })
  else if !c.pwr.resetN then c
  else
    let c1 := c.modPwr (fun p => { p with resetN := false, lowSince := none })
    if c.pwr.por then c1 else (c1.startUp bootSel nvmOk).event 1 0

/-- An event that is recorded whatever its routing (R482). -/
def Chip.eventLogged (c : Chip) (e d : Nat) : Chip :=
  let c1 := c.event e d
  if c1.b (evtFld F.EVT_ROUTE_LOG e) then c1 else c1.modEvt (fun v => { v with since := AMap.upd (always 0) v.since e (· + 1) })

/-- RESET_N_FAILED (R498): with RST_STUCK_POL = 1 the held-low count, at least 10 s, completes. -/
def Chip.resetFailed (c : Chip) (bootSel : Nat) (nvmOk : Bool) : Chip :=
  match c.pwr.lowSince with
  | some t =>
    if c.pwr.stuckPol ∧ !c.pwr.por ∧ c.pwr.resetN ∧ t + 10 * sTicks ≤ c.tick then
      ((c.modPwr (fun p => { p with resetN := false, lowSince := none, ignored := true, highSince := none })).startUp bootSel nvmOk).eventLogged 2 0
    else c
  | none => c

/-- RESET_N_HONOURED_AGAIN (R498): the high count, at least 100 ms, completes. -/
def Chip.resetHonoured (c : Chip) : Chip :=
  match c.pwr.highSince with
  | some t => if c.pwr.ignored ∧ t + 100 * msTicks ≤ c.tick then (c.modPwr (fun p => { p with ignored := false, highSince := none })).event 3 0 else c
  | none => c

/-! ## Supplies (R492, R494) -/

/-- SUPPLY_OUT_OF_RANGE (R494): event 6 names the supply, and is recorded. -/
def Chip.supplyWarn (c : Chip) (n : Nat) : Chip := if n ≤ 10 ∧ c.live then c.eventLogged 6 n else c

/-- Rails below whose brown-out threshold the manager is reset (R494). -/
def coreRails : List Nat := [0, 1, 2, 5, 6, 7]

/-- Every egress lane loses its link. -/
def Chip.lanesDown (c : Chip) : Chip := (List.range 9).foldl (fun c p => c.s (laneFld F.EGR_LANE0_UP p) 0) c

/-- SUPPLY_BROWN_OUT (R494), but for VDD_SAFE, which acts on the interlock. VDD_NVM shows as a memory that does not answer.
After a power-on reset a RESET_N that is low counts again, also one that was ignored (R498). -/
def Chip.brownOut (c : Chip) (n : Nat) : Chip :=
  if 10 < n ∨ c.pwr.brown.contains n then c
  else
    let c1 := c.modPwr (fun p => { p with brown := p.brown ++ [n] })
    if coreRails.contains n then
      let low := fun (p : Pwr) => p.resetN || (p.ignored && p.highSince.isNone)
      (c1.modPwr (fun p => { p with por := true, resetN := low p, ignored := false, highSince := none })).resetState true
    else if n = 3 ∨ n = 4 then c1.lanesDown
    else if n = 9 then (((c1.convAbandon 0).convAbandon 1).modHk (fun h => { h with subs := [], slope := none })).s F.HK_SLOPE_VALID 0
    else c1

/-- A converter restarts with a full settling allowance (R494). -/
def Chip.convRestart (c : Chip) (x : Nat) : Chip := if (c.conv x).ph = .ready then (c.modConv x (fun y => { y with owed := 0, prevIn := none })).atSlot x else c

/-- SUPPLY_RETURN (R494); the operating time counts while VDD_CORE is in range (R484). -/
def Chip.supplyReturn (c : Chip) (n : Nat) : Chip :=
  if !c.pwr.brown.contains n then c
  else
    let c1 := c.modPwr (fun p => { p with brown := p.brown.filter (fun m => m != n) })
    if n = 0 then c1.modLog (fun l => { l with opFrom := c.tick })
    else if n = 9 then ((c1.convRestart 0).convRestart 1).hkTry c1.ackEdge else c1

/-! ## Temperature, TAP, management events (R480, R504, R510) -/

/-- DIE_TEMP_EVENT (R510): the junction in °C; events 4 and 5 rise again only after it has cooled by 5 °C. -/
def Chip.dieTemp (c : Chip) (t : Int) : Chip :=
  let h4 : Bool := if c.pwr.hot115 then decide (110 ≤ t) else decide (115 < t)
  let h5 : Bool := if c.pwr.hot125 then decide (120 ≤ t) else decide (125 < t)
  let c1 := if c.live ∧ h4 ∧ !c.pwr.hot115 then c.event 4 0 else c
  let c2 := if c.live ∧ h5 ∧ !c.pwr.hot125 then c1.event 5 0 else c1
  c2.modPwr (fun p => { p with hot115 := h4, hot125 := h5 })

/-- TAP_LEAVE_RESET (R504). -/
def Chip.tapLeave (c : Chip) : Chip :=
  let c1 := c.modPwr (fun p => { p with tap := true })
  if c.live then c1.event 7 0 else c1

/-! ## Resets of a worker (R499) -/

/-- A worker leaves reset: its counts and times start at this tick. -/
def Worker.started (w : Worker) (tick : Nat) : Worker :=
  let hunt := fun (p : Port) => { p with rx := { p.rx with huntFrom := tick } }
  let time := { w.time with frame := -(800 * (tick : Int)), slewFrom := tick, lastBeacon := tick }
  let ctl := { w.ctl with inReset := false, lastDown := tick, monFrom := tick }
  { w with time := time, ctl := ctl, out := { w.out with lastRef := tick },
           scrub := { w.scrub with pixAt := tick, tabAt := tick }, east := hunt w.east, west := hunt w.west }

/-- WORKER_POR_RELEASE: 100 µs after the later of RST_N returning high and its last rail entering its range. -/
def Chip.wkrRelease (c : Chip) (k : Nat) : Chip := if k < 1024 ∧ (c.worker k).ctl.inReset then c.setWorker k (((c.worker k).heldReset true).started c.tick) else c

/-- WORKER_RST_N: an honoured low holds the worker in reset. -/
def Chip.wkrRstN (c : Chip) (k : Nat) : Chip := if k < 1024 then c.setWorker k ((c.worker k).heldReset (c.worker k).ctl.powered) else c

/-- LINK_LOSS_RESET. -/
def Chip.wkrLinkLoss (c : Chip) (k : Nat) : Chip := c.modW k (fun w => if w.linkLost c.tick then w.linkLossReset.started c.tick else w)

/-- WORKER_SUPPLY_LOSS. -/
def Chip.wkrSupplyLoss (c : Chip) (k : Nat) : Chip := if k < 1024 then c.setWorker k ((c.worker k).heldReset false) else c

/-! ## The state after reset -/

/-- The manager and its workers after reset. DESIGN CHOICE (unsafe): the operating system runs and Helm answers, though
the non-volatile memory holds nothing (log entries 1 and 4). -/
def Chip.afterReset : Chip :=
  let c : Chip := {
    tick := 0, freeIx := 0, workers := [], regs := [], hot := [], ports := [], eng := [], pairs := [], slots := [], evt := ⟨[], [], [], false⟩,
    log := LogState.init, mer := Mer.init, que := Que.init, rose := Rose.init, wake := Wake.init, egr := Egr.init,
    int := { Integ.init with coresUp := true }, hk := Hk.init, nvm := Nvm.init, mgt := Mgt.init, pwr := Pwr.init, work := [],
    trim := [], bus := ⟨0, false, false⟩ }
  c.s F.QUE_POOL_MIN_MIN c.poolFree

end Sys2Proof
end

