-- ==== Sys2Proof/Machine/State.lean ====
section
/-!
DEFINITION. Machine/State.lean: the state of the chipset, the ways a step can stop, and the state after reset.
-/
namespace Sys2Proof.Machine

/-- The chipset: manager and workers, the bias interlock, which runs from a supply and a clock of its own (R438), and
the commands that wait, first in, first out. -/
structure State where
  chip : Chip
  saf : Interlock
  pending : List Instr
  deriving DecidableEq, Repr

/-- Why a step stops with a fault. -/
inductive Fault
  /-- An access names a word of a protected memory that R380 does not give the chipset: raised by SCRUB_WORD,
  TARGETED_TEST and REMAP_INSTALL. Safe: the machine has no such word. -/
  | noSuchWord
  deriving DecidableEq, Repr

/-- Why a step is refused. -/
inductive Refusal
  /-- A command that has no meaning yet; no command of this model is refused so. Safe. -/
  | notModelled (mnemonic : String)
  deriving DecidableEq, Repr

/-- The machine right after reset: every register at its reset value, nothing stored, the interlock without its supply,
and no command waiting (R44, R97, R438, R496). -/
def State.reset : State := ⟨Chip.afterReset, Interlock.off, []⟩

end Sys2Proof.Machine
end

