-- ==== Sys2Proof/Machine/Ops.lean ====
section
/-!
DEFINITION. Machine/Ops.lean: which part of the chipset a command reaches, as operations every meaning calls.
-/
namespace Sys2Proof.Machine

/-- What a command answers. -/
abbrev Out := Host.Outcome State Fault Refusal

/-- The MCK cycle a command falls in (R38). -/
def State.tick (s : State) : Nat := s.chip.tick

/-- A command of the manager: it does nothing while the manager is held in reset (R496, R497). -/
def State.mgr (s : State) (f : Chip → Chip) : Out :=
  .next { s with chip := if s.chip.live then f s.chip else s.chip }

/-- A command of the worker in a slot: it does nothing while the worker is without supply or held in reset (R499). -/
def State.wkr (s : State) (k : Nat) (f : Worker → Worker) : Out := .next { s with chip := s.chip.modW k f }

/-- A command that acts whatever state the manager is in: its supplies and its resets, and those of workers. -/
def State.any (s : State) (f : Chip → Chip) : Out := .next { s with chip := f s.chip }

/-- A condition of the interlock reaches the manager as event 224 + n of R456; a demand leaves its Meridian time (R454). -/
def raiseSafe (s : State) (n : Nat) : State :=
  if s.chip.live then
    let i := if n = 0 then { s.saf with demSec := secOf s.chip.sub % 4294967296, demNs := nsOf s.chip.sub } else s.saf
    { s with saf := i, chip := s.chip.event (224 + n) 0 }
  else s

/-- A command of the bias interlock. -/
def State.ilk (s : State) (f : Interlock → Interlock) : Out :=
  let i := f s.saf
  .next (i.raised.foldl raiseSafe { s with saf := { i with raised := [] } })

/-- A command of a Plom port; `f` is told whether it is a worker's (R25, R45). -/
def State.onPort (s : State) (r : PortRef) (f : Bool → Port → Port) : Out :=
  match r with
  | .mgr p => s.mgr (fun c => c.portStep p (f false))
  | .worker k west => s.wkr k (fun x => x.portStep s.tick west (f true))

/-- A write of a link register of a port (R200 to R207). -/
def State.linkReg (s : State) (r : PortRef) (i : Nat) (v : Word) : Out :=
  match r with
  | .mgr p => s.mgr (fun c => c.coreWrite .word (windowBase p + 4 * i) v true)
  | .worker k west => s.wkr k (fun x => x.writeReg s.tick (0x100 + (if west then 0x10 else 0) + i) v)

/-- A link register word of a port (R206). -/
def State.portWord (s : State) (r : PortRef) (i : Nat) : Word :=
  match r with
  | .mgr p => (s.chip.port p).word false i
  | .worker k west => ((s.chip.worker k).port west).word true i

/-- CAPTURE is written once adaptation has come to some coefficients (R199, R200). -/
def State.eqCapture (s : State) (r : PortRef) (q : EqVals) : Out :=
  let f := fun (wk : Bool) (y : Port) => y.adapt wk q.ctle q.dfe1 q.dfe2 q.dfe3
  match r with
  | .mgr p => s.mgr (fun c =>
      let c1 := c.portStep p (f false)
      c1.coreWrite .word (windowBase p + 0x24) (F.LNK_EQ_CTL_CAPTURE.put ((c1.port p).word false 9) 1) true)
  | .worker k west => s.wkr k (fun x => x.portStep s.tick west (fun y => (f true y).eqCapture true))

/-- NO_LOCK of a receiver that has hunted for 100 µs (R180). -/
def noLock (y : Port) (wk : Bool) (tick : Nat) : Port := if y.noLockDue tick then y.w1c wk F.LNK_STAT_NO_LOCK else y

/-- A write to a register of the worker in a slot, under the role in context (R16, R19, R165, R217, R234). -/
def wkrWrite (c : Chip) (k a : Nat) (v : Word) : Chip :=
  let w := c.worker k
  let t : Txn := ⟨c.role, c.roleFp, true, a, v.toNat, false, .broadcast, [], false, false, false, none, 0⟩
  if t.enables ∧ !w.running ∧ c.enableReason k ≠ 0 then c.enableRefused k (c.enableReason k)
  else if w.b F.WK_GSTAT_FWD_ONLY ∧ !fallbackWritable a then c
  else
    let (d, denied, _) := mixWord t c.run (w.readReg c.tick a 0).1.toNat
    let c1 := c.modW k (fun x => x.writeReg c.tick a (BitVec.ofNat 32 d))
    if denied then c1.logCtx kRefusal 0x0100 (at_ 159 128 a + at_ 127 64 v.toNat) else c1

/-- A register write (R16): over the manager's register bridge, or to a worker. -/
def State.regWrite (s : State) (tgt : Target) (size : AccSize) (a : Nat) (v : Word) (ok : Bool) : Out :=
  match tgt with
  | .mgr => s.mgr (fun c => c.coreWrite size a v ok)
  | .worker k => s.mgr (fun c => wkrWrite c k a v)

/-- VDD_SAFE enters its range (R434, R440, R441): SAFE_SEL, read twice, also tells converter B what to do. -/
def State.safeUp (s : State) (s1 s2 : Nat) : Out :=
  let i := s.saf.powerUp s1 s2
  let on := i.selOk && i.catB
  if s.saf.up then .next s
  else .next { s with saf := i, chip := (s.chip.s F.HK_STAT_SLOPE_B on.toNat).modHk (fun h => { h with slope60 := i.hz60 }) }

/-- The value converter B has formed reaches the interlock (R434, R447, R448). -/
def State.slopeIn (s : State) (good : Bool) : Out :=
  match s.chip.hk.slope with
  | none => .next s
  | some w => ({ s with chip := s.chip.modHk (fun h => { h with slope := none }) } : State).ilk (fun i => i.slopeValue w good s.tick)

/-- A rail falls below its brown-out threshold (R494); VDD_SAFE takes the interlock with it (R452). -/
def State.brownOut (s : State) (rail : Nat) : Out :=
  let s1 : State := { s with chip := s.chip.brownOut rail }
  if rail = 10 then s1.ilk (fun i => i.powerLow) else .next s1

/-- Requests that waited in Helm are lost when the operating system stops (R409, R411). -/
def coresLost (c c1 : Chip) : Chip := if c.int.coresUp ∧ !c1.int.coresUp then c1.modMgt (fun g => { g with queue := [] }) else c1

/-- A mismatch halts a core pair (R409). -/
def coreHalt (c : Chip) (p : Nat) : Chip := coresLost c (c.coreMismatch p)

/-- The line bits of a block time, the first to arrive first (R170). -/
def lineBits (b : BitVec 128) : List Bool := (List.range 128).map b.getLsbD

/-- GBL_CHART_CMD with GO set, for an operation on a slot (R371, R379). -/
def chartCmdWord (op k : Nat) : Word := F.GBL_CHART_CMD_GO.put (F.GBL_CHART_CMD_OP.put (F.GBL_CHART_CMD_SLOT.put 0 k) op) 1

/-- What the consistency check sees of the interlock (R378). -/
def ilkView (i : Interlock) : IlkView := ⟨i.faulted, !i.testOk || !i.selOk, if i.catB then some i.slopeIn else none⟩

end Sys2Proof.Machine
end

