-- ==== Sys2Proof/Machine/ExecChart.lean ====
section
/-!
DEFINITION. Machine/ExecChart.lean: the meanings of commands of the Chart and of a run (R371 to R379).
-/
namespace Sys2Proof.Machine

/-- CHART_STORE (R371). -/
def execChartStore (k : Nat) (ok : Bool) (s : State) : Out :=
  s.mgr (fun c => c.coreWrite .word 0x40000014 (chartCmdWord 1 k) ok)

/-- CHART_ACTIVATE (R374). -/
def execChartActivate (k : Nat) (ok : Bool) (s : State) : Out :=
  s.mgr (fun c => c.coreWrite .word 0x40000014 (chartCmdWord 2 k) ok)

/-- CHART_ERASE (R371). -/
def execChartErase (k : Nat) (ok : Bool) (s : State) : Out :=
  s.mgr (fun c => c.coreWrite .word 0x40000014 (chartCmdWord 3 k) ok)

/-- CHART_BOOT_ACTIVATE (R375). -/
def execChartBootActivate (bad : List Nat) (s : State) : Out := s.mgr (fun c => c.chartBoot bad)

/-- CHART_DIGEST_CHECK (R376). -/
def execChartDigestCheck (intact : Bool) (ok : Bool) (s : State) : Out := s.mgr (fun c => c.digestCheck intact ok)

/-- RUN_EN_SET (R377). -/
def execRunEnSet (s : State) : Out :=
  s.mgr (fun c => c.coreWrite .word 0x40000004 (F.GBL_CTL_RUN_EN.put (c.word 0x40000004) 1) true)

/-- CONSISTENCY_CHECK_END (R378). -/
def execConsistencyCheckEnd (s : State) : Out := s.mgr (fun c => c.checkEnd (ilkView s.saf))

/-- RUN_EN_CLEAR (R290). -/
def execRunEnClear (s : State) : Out :=
  s.mgr (fun c => c.coreWrite .word 0x40000004 (F.GBL_CTL_RUN_EN.put (c.word 0x40000004) 0) true)

/-- TRIM_TARGET_WRITE (R379). -/
def execTrimTargetWrite (v : Word) (s : State) : Out := s.mgr (fun c => c.coreWrite .word 0x40000020 v true)

end Sys2Proof.Machine
end

