-- ==== Sys2Proof/Machine/ExecEgress.lean ====
section
/-!
DEFINITION. Machine/ExecEgress.lean: the meanings of commands of egress (R337 to R350).
-/
namespace Sys2Proof.Machine

/-- FRAME_SEND (R341). -/
def execFrameSend (l : Nat) (s : State) : Out := s.mgr (fun c => c.frameSend l)

/-- FRAME_CONFIRM (R343). -/
def execFrameConfirm (l : Nat) (s : State) : Out := s.mgr (fun c => c.frameConfirm l)

/-- PFC_RECEIVED (R342). -/
def execPfcReceived (p : Nat) (enable : Nat) (quanta : Nat) (s : State) : Out :=
  s.mgr (fun c => c.pfcReceived p enable quanta)

/-- RX_FRAME_DISCARD (R342). -/
def execRxFrameDiscard (p : Nat) (s : State) : Out := s.mgr (fun c => c.rxDiscard p)

/-- PFC_WATCHDOG (R342). -/
def execPfcWatchdog (p : Nat) (prio : Nat) (s : State) : Out := s.mgr (fun c => c.pfcWatchdog p prio)

/-- LANE_FAULT (R344). -/
def execLaneFault (p : Nat) (cause : Nat) (corr : Nat) (unc : Nat) (s : State) : Out :=
  s.mgr (fun c => c.laneFault p cause corr unc)

/-- FIRST_RESENT_FRAME (R345). -/
def execFirstResentFrame (l : Nat) (ue : Option Nat) (s : State) : Out :=
  s.mgr (fun c => match ue with
    | none => c.firstResent l
    | some a => c.copyUe l a)

/-- LANE_RECOVER (R346). -/
def execLaneRecover (p : Nat) (s : State) : Out := s.mgr (fun c => c.laneRecover p)

/-- MONITOR_FRAME (R340). -/
def execMonitorFrame (s : State) : Out := s.mgr (fun c => c.monitorFrame s.saf)

/-- FACTOR_MIN_WRITE (R347). -/
def execFactorMinWrite (v : Word) (s : State) : Out := s.mgr (fun c => c.coreWrite .word 0x4200000C v true)

/-- LANE_LINK_UP (R337). -/
def execLaneLinkUp (p : Nat) (s : State) : Out := s.mgr (fun c => c.laneLinkUp p)

/-- PFC_PAUSE_EXPIRY (R342). -/
def execPfcPauseExpiry (p : Nat) (prio : Nat) (s : State) : Out := s.mgr (fun c => c.pauseExpiry p prio)

end Sys2Proof.Machine
end

