-- ==== Sys2Proof/Machine/ExecHk.lean ====
section
/-!
DEFINITION. Machine/ExecHk.lean: the meanings of commands of the housekeeping converters (R416 to R437).
-/
namespace Sys2Proof.Machine

/-- SETTLE_END (R416). -/
def execSettleEnd (x : Nat) (s : State) : Out := s.mgr (fun c => c.settleDone x)

/-- CONVERSION_END (R416). -/
def execConversionEnd (x : Nat) (raw : Int) (s : State) : Out := s.mgr (fun c => c.conversionEnd x raw)

/-- URGENT_TRIGGER (R430). -/
def execUrgentTrigger (written : Bool) (s : State) : Out :=
  s.mgr (fun c => if written then c.coreWrite .word 0x46000008 (F.HK_INJ_TRIG.put (c.word 0x46000008) 1) true else c.eventTrigger)

/-- HK_INCFG_WRITE (R427). -/
def execHkIncfgWrite (k : Nat) (v : Word) (s : State) : Out :=
  s.mgr (fun c => c.coreWrite .word (0x46000100 + 4 * k) v true)

/-- SEQ_EN_WRITE (R429). -/
def execSeqEnWrite (en : Bool) (s : State) : Out :=
  s.mgr (fun c => c.coreWrite .word 0x46000000 (F.HK_CTL_SEQ_EN.put (c.word 0x46000000) en.toNat) true)

/-- HK_BLANK_ASSERT (R432). -/
def execHkBlankAssert (s : State) : Out := s.mgr (fun c => c.blankAssert)

/-- HK_BLANK_RELEASE (R432). -/
def execHkBlankRelease (s : State) : Out := s.mgr (fun c => c.blankRelease)

/-- BLANK_LONG (R432). -/
def execBlankLong (s : State) : Out := s.mgr (fun c => c.blankLong)

/-- HK_TEST_GO (R433). -/
def execHkTestGo (timer : Bool) (s : State) : Out :=
  s.mgr (fun c => if timer then c.hkTestTimer else c.coreWrite .word 0x46000010 (F.HK_TEST_GO.put (c.word 0x46000010) 1) true)

/-- HK_TEST_END (R433). -/
def execHkTestEnd (ga : Int) (gb : Int) (okA : Bool) (okB : Bool) (s : State) : Out :=
  s.mgr (fun c => c.hkTestEnd ga gb okA okB)

/-- SLOPE_SUBINTERVAL (R434). -/
def execSlopeSubinterval (charge : Int) (s : State) : Out := s.mgr (fun c => c.slopeSub charge)

/-- HK_FIFO_POP (R435). -/
def execHkFifoPop (s : State) : Out :=
  s.mgr (fun c => c.coreWrite .word 0x46000034 (F.HK_FIFO_POP_POP.put 0 1) true)

/-- HK_LAST_READ (R437). -/
def execHkLastRead (k : Nat) (s : State) : Out := s.mgr (fun c => c.coreRead s.saf .word (0x46000200 + 16 * k))

end Sys2Proof.Machine
end

