-- ==== Sys2Proof/Machine/ExecIngress.lean ====
section
/-!
DEFINITION. Machine/ExecIngress.lean: the meanings of commands of the ingress queues and of Rose (R274 to R307).
-/
namespace Sys2Proof.Machine

/-- POOL_SERVE (R275). -/
def execPoolServe (p : Nat) (ue : Option Nat) (s : State) : Out :=
  s.mgr (fun c => match ue with
    | none => (c.poolServe p).takeTrailers
    | some a => c.dcqUe p a)

/-- THROTTLE_RESEND (R291). -/
def execThrottleResend (slot : Nat) (s : State) : Out := s.mgr (fun c => c.throttleResend slot)

/-- SHARE_INTERVAL (R292). -/
def execShareInterval (p : Nat) (s : State) : Out := s.mgr (fun c => c.shareInterval p)

/-- BUCKET_CLOSE (R287). -/
def execBucketClose (g : Nat) (s : State) : Out := s.mgr (fun c => c.bucketClose g)

/-- ABSENT_TIMEOUT (R287). -/
def execAbsentTimeout (q : Nat) (s : State) : Out := s.mgr (fun c => c.absentTimeout q)

/-- ENGINE_EMIT (R298). -/
def execEngineEmit (e : Nat) (ue : Option (Nat × Bool)) (s : State) : Out :=
  s.mgr (fun c => match ue with
    | none => c.engineEmit e
    | some (a, link) => c.poolUe e a link)

/-- QUE_FLUSH_GO (R294). -/
def execQueFlushGo (v : Word) (s : State) : Out :=
  s.mgr (fun c => c.coreWrite .word 0x4B000014 (F.QUE_FLUSH_GO.put v 1) true)

/-- FLUSH_TIMEOUT (R295). -/
def execFlushTimeout (p : Nat) (s : State) : Out := s.mgr (fun c => c.flushTimeout p)

/-- STREAM_REBALANCE (R299). -/
def execStreamRebalance (q : Nat) (target : Nat) (s : State) : Out := s.mgr (fun c => c.streamRebalance q target)

/-- RSE_MIG_GO (R299). -/
def execRseMigGo (v : Word) (s : State) : Out :=
  s.mgr (fun c => c.coreWrite .word 0x41000008 (F.RSE_MIG_GO.put v 1) true)

/-- MIGRATION_TIMEOUT (R299). -/
def execMigrationTimeout (s : State) : Out := s.mgr (fun c => c.migTimeout)

/-- SIGHTING_ARRIVAL (R304). -/
def execSightingArrival (s : State) : Out := s.mgr (fun c => c.sightingArrival)

/-- TILE_SET_EXPIRY (R301). -/
def execTileSetExpiry (set : Nat) (s : State) : Out := s.mgr (fun c => c.tileExpiry set)

/-- MARK_OUT_PULSE_END (R303). -/
def execMarkOutPulseEnd (line : Nat) (s : State) : Out := s.mgr (fun c => c.markOutEnd line)

/-- MOUT_TEST (R307). -/
def execMoutTest (mask : Nat) (s : State) : Out :=
  s.mgr (fun c => c.coreWrite .word 0x41000000 (F.RSE_CTL_MOUT_TEST.put (c.word 0x41000000) mask) true)

/-- DCQ_HWM_WRITE (R306). -/
def execDcqHwmWrite (p : Nat) (v : Word) (s : State) : Out :=
  s.mgr (fun c => c.coreWrite .word (0x4B001000 + 4 * p) v true)

/-- POOL_MIN_WRITE (R305). -/
def execPoolMinWrite (v : Word) (s : State) : Out := s.mgr (fun c => c.coreWrite .word 0x4B00000C v true)

end Sys2Proof.Machine
end

