-- ==== Sys2Proof/Machine/ExecIntegrity.lean ====
section
/-!
DEFINITION. Machine/ExecIntegrity.lean: the meanings of commands of integrity and fault handling (R380 to R415).
-/
namespace Sys2Proof.Machine

/-- SCRUB_WORD (R390). -/
def execScrubWord (m : Nat) (a : Nat) (find : EccFind) (s : State) : Out :=
  if wordExists m a then s.mgr (fun c => c.scrubWord m a find) else .fault .noSuchWord

/-- TARGETED_TEST (R393). -/
def execTargetedTest (m : Nat) (fails : Bool) (s : State) : Out :=
  if memWords m = 0 then .fault .noSuchWord else s.mgr (fun c => c.targetedTest m fails)

/-- REMAP_INSTALL (R397). -/
def execRemapInstall (m : Nat) (s : State) : Out :=
  if memWords m = 0 then .fault .noSuchWord else s.mgr (fun c => c.remapInstall m)

/-- STUP_GO (R401). -/
def execStupGo (s : State) : Out := s.mgr (fun c => c.coreWrite .word 0x450000A0 (F.INT_STUP_GO.put 0 1) true)

/-- STARTUP_SELF_TEST_END (R401). -/
def execStartupSelfTestEnd (find : StupFind) (s : State) : Out := s.mgr (fun c => c.stupEnd find)

/-- BYPASS_ACCESS (R402). -/
def execBypassAccess (v : Word) (s : State) : Out := s.mgr (fun c => c.coreWrite .word 0x45000040 v true)

/-- ELOG_POP (R415). -/
def execElogPop (s : State) : Out := s.mgr (fun c => c.coreWrite .word 0x45000024 (F.INT_ELOG_POP_POP.put 0 1) true)

/-- MU_FAULT (R405). -/
def execMuFault (cause : Nat) (s : State) : Out := s.mgr (fun c => c.muFault cause)

/-- MU_SWITCH_REQUEST (R405). -/
def execMuSwitchRequest (s : State) : Out :=
  s.mgr (fun c => c.coreWrite .word 0x45000080 (F.INT_MU_SWITCH.put 0 1) true)

/-- MU_STANDBY_FAULT (R404). -/
def execMuStandbyFault (s : State) : Out := s.mgr (fun c => c.muStandbyFault)

/-- MU_SELF_TEST_END (R407). -/
def execMuSelfTestEnd (u : Nat) (ok : Bool) (s : State) : Out := s.mgr (fun c => c.muTestEnd u ok)

/-- CHECKPOINT (R408). -/
def execCheckpoint (s : State) : Out := s.mgr (fun c => c.checkpoint)

/-- CORE_MISMATCH (R409). -/
def execCoreMismatch (p : Nat) (s : State) : Out := s.mgr (fun c => coreHalt c p)

/-- CORE_FAILOVER_END (R409). -/
def execCoreFailoverEnd (s : State) : Out := s.mgr (fun c => c.coreFailoverEnd)

/-- CORE_SELF_TEST_END (R410). -/
def execCoreSelfTestEnd (p : Nat) (ok : Bool) (s : State) : Out := s.mgr (fun c => c.coreTestEnd p ok)

/-- CORE_REBOOT (R411). -/
def execCoreReboot (s : State) : Out := s.mgr (fun c => c.rebootCores)

/-- STACK_SEFI (R412). -/
def execStackSefi (k : Nat) (s : State) : Out := s.mgr (fun c => c.stackSefi k)

/-- STACK_TEMP_READ (R414). -/
def execStackTempRead (k : Nat) (t : Int) (s : State) : Out := s.mgr (fun c => c.stackTemp k t)

/-- DOSE_REFRESH_CHANGE (R413). -/
def execDoseRefreshChange (k : Nat) (s : State) : Out := s.mgr (fun c => c.doseRefresh k)

/-- STACK_RETRAIN_END (R412). -/
def execStackRetrainEnd (k : Nat) (ok : Bool) (s : State) : Out :=
  s.mgr (fun c => coresLost c (c.stackRetrainEnd k ok))

/-- INDEX_ENTRY_REBUILT (R388). -/
def execIndexEntryRebuilt (page : Nat) (s : State) : Out := s.mgr (fun c => c.indexRebuilt page)

/-- WORD_RELOADED (R388). -/
def execWordReloaded (m : Nat) (a : Nat) (s : State) : Out := s.mgr (fun c => c.wordReloaded m a)

end Sys2Proof.Machine
end

