-- ==== Sys2Proof/Machine/ExecInterlock.lean ====
section
/-!
DEFINITION. Machine/ExecInterlock.lean: the meanings of commands of the bias interlock (R438 to R456).
-/
namespace Sys2Proof.Machine

/-- VDD_SAFE_UP (R441). -/
def execVddSafeUp (s1 : Nat) (s2 : Nat) (s : State) : Out := s.safeUp s1 s2

/-- INTERLOCK_SELF_TEST_END (R441). -/
def execInterlockSelfTestEnd (logicOk : Bool) (sckOk : Bool) (convOk : Bool) (s : State) : Out :=
  s.ilk (fun i => i.selfTestEnd logicOk sckOk convOk)

/-- CHANNEL_OPEN (R442). -/
def execChannelOpen (a : Bool) (b : Bool) (s : State) : Out := s.ilk (fun i => i.channelOpen a b s.tick)

/-- CHANNEL_CLOSED (R442). -/
def execChannelClosed (a : Bool) (b : Bool) (s : State) : Out := s.ilk (fun i => i.channelClosed a b s.tick)

/-- DISCREPANCY_TIMEOUT (R443). -/
def execDiscrepancyTimeout (s : State) : Out := s.ilk (fun i => i.discTimeout s.tick)

/-- SWITCH_READS_OPEN (R445). -/
def execSwitchReadsOpen (hs : Bool) (ls : Bool) (s : State) : Out := s.ilk (fun i => i.switchOpen hs ls s.tick)

/-- REMOVAL_WATCH_END (R445). -/
def execRemovalWatchEnd (dscFb : Bool) (s : State) : Out := s.ilk (fun i => i.watchEnd dscFb s.tick)

/-- SLOPE_VALUE (R447). -/
def execSlopeValue (good : Bool) (s : State) : Out := s.slopeIn good

/-- RAMP_TIME_LIMIT (R447). -/
def execRampTimeLimit (s : State) : Out := s.ilk (fun i => i.timeLimit s.tick)

/-- MONITOR_GAP (R448). -/
def execMonitorGap (s : State) : Out := s.ilk (fun i => i.gap s.tick)

/-- READBACK_MISMATCH (R449). -/
def execReadbackMismatch (which : Nat) (s : State) : Out := s.ilk (fun i => i.mismatch which s.tick)

/-- PRECHECK_STEP (R450). -/
def execPrecheckStep (hs : Bool) (ls : Bool) (dscFb : Bool) (s : State) : Out :=
  s.ilk (fun i => i.precheck hs ls dscFb s.tick)

/-- RESET_PRESS_RELEASE (R451). -/
def execResetPressRelease (ms : Nat) (s : State) : Out := s.ilk (fun i => i.press ms s.tick)

/-- RESET_STUCK (R451). -/
def execResetStuck (s : State) : Out := s.ilk (fun i => i.stuck)

/-- RESET_STUCK_CLEAR (R451). -/
def execResetStuckClear (s : State) : Out := s.ilk (fun i => i.unstuck)

/-- SCK_CHECK (R452). -/
def execSckCheck (cycles : Nat) (s : State) : Out := s.ilk (fun i => i.sckCheck cycles s.tick)

/-- VDD_SAFE_LOW (R452). -/
def execVddSafeLow (s : State) : Out := s.ilk (fun i => i.powerLow)

end Sys2Proof.Machine
end

