-- ==== Sys2Proof/Machine/ExecLinks.lean ====
section
/-!
DEFINITION. Machine/ExecLinks.lean: the meanings of commands of the Plom links, of enumeration and of the worker's
time frame (R178 to R263).
-/
namespace Sys2Proof.Machine

/-- BLOCK_RECEIVED (R178). -/
def execBlockReceived (port : PortRef) (bits : BitVec 128) (phase : Nat) (s : State) : Out :=
  match port with
  | .mgr p => s.mgr (fun c => c.receive p (lineBits bits))
  | .worker k west => s.wkr k (fun x => (x.receive s.tick west (lineBits bits) phase).servesBoth)

/-- LOSS_OF_SIGNAL (R179). -/
def execLossOfSignal (port : PortRef) (s : State) : Out := s.onPort port (fun wk y => y.lossOfSignal wk s.tick)

/-- SIGNAL_RETURN (R179). -/
def execSignalReturn (port : PortRef) (s : State) : Out := s.onPort port (fun wk y => y.signalReturn wk)

/-- NO_LOCK_TIMEOUT (R180). -/
def execNoLockTimeout (port : PortRef) (s : State) : Out := s.onPort port (fun wk y => noLock y wk s.tick)

/-- TEST_SEQUENCE_START (R184). -/
def execTestSequenceStart (port : PortRef) (s : State) : Out := s.onPort port (fun wk y => y.seqStart wk)

/-- TEST_SEQUENCE_ABANDON (R184). -/
def execTestSequenceAbandon (port : PortRef) (s : State) : Out := s.onPort port (fun wk y => y.seqAbandon wk)

/-- REJOIN_BACKOFF_EXPIRY (R185). -/
def execRejoinBackoffExpiry (port : PortRef) (s : State) : Out :=
  s.onPort port (fun wk y => y.backoffExpiry wk s.tick)

/-- GRID_SLEW_END (R522). -/
def execGridSlewEnd (w : Nat) (west : Bool) (s : State) : Out := s.wkr w (fun x => x.gridEnd s.tick west)

/-- EQ_FREEZE (R199). -/
def execEqFreeze (port : PortRef) (eq : EqVals) (s : State) : Out :=
  s.onPort port (fun wk y => (y.adapt wk eq.ctle eq.dfe1 eq.dfe2 eq.dfe3).eqFreeze wk)

/-- EQ_RESUME (R199). -/
def execEqResume (port : PortRef) (s : State) : Out := s.onPort port (fun wk y => y.eqResume wk)

/-- EQ_CAPTURE (R200). -/
def execEqCapture (port : PortRef) (eq : EqVals) (s : State) : Out := s.eqCapture port eq

/-- ERROR_INJECT (R202). -/
def execErrorInject (port : PortRef) (data : Word) (s : State) : Out :=
  s.linkReg port 6 (F.LNK_INJ_INJ_GO.put data 1)

/-- TEST_MODE_SET (R204). -/
def execTestModeSet (port : PortRef) (ctl : Word) (s : State) : Out := s.linkReg port 0 ctl

/-- SVC_EN_CHANGE (R222). -/
def execSvcEnChange (port : PortRef) (on : Bool) (s : State) : Out :=
  match port with
  | .mgr p => s.mgr (fun c => c.portStep p (fun y => y.setSvc false s.tick on))
  | .worker k west => s.wkr k (fun x => (x.portStep s.tick west (fun y => y.setSvc true s.tick on)).servesBoth)

/-- CNT_CLR (R207). -/
def execCntClr (port : PortRef) (s : State) : Out := s.linkReg port 0 (F.LNK_CTL_CNT_CLR.put (s.portWord port 0) 1)

/-- WCK_SELECT (R209). -/
def execWckSelect (w : Nat) (s : State) : Out := s.wkr w (fun x => x.wckSelect s.tick)

/-- ENUMERATION_COMMAND (R210). -/
def execEnumerationCommand (w : Nat) (west : Bool) (s : State) : Out := s.wkr w (fun x => x.enumerate s.tick west)

/-- WORKER_CMD_EXECUTE (R214). -/
def execWorkerCmdExecute (w : Nat) (west : Bool) (find : Finding) (s : State) : Out :=
  let (ro, c) := s.chip.free 32
  ({ s with chip := c } : State).wkr w (fun x => x.cmdExecute s.tick ro west find)

/-- PROBE_RECEIVED (R224). -/
def execProbeReceived (w : Nat) (west : Bool) (sub : Nat) (s : State) : Out :=
  s.wkr w (fun x => x.probe s.tick west sub)

/-- EPOCH_END_SEND (R225). -/
def execEpochEndSend (w : Nat) (s : State) : Out := s.wkr w (fun x => x.epochEnd)

/-- HOLD_SELF_RELEASE (R223). -/
def execHoldSelfRelease (w : Nat) (west : Bool) (s : State) : Out := s.wkr w (fun x => x.holdRelease s.tick west)

/-- BEACON_RECEIVED (R259). -/
def execBeaconReceived (w : Nat) (west : Bool) (sub : Nat) (s : State) : Out :=
  s.wkr w (fun x => x.beacon s.tick west sub)

/-- SLEW_STEP (R257). -/
def execSlewStep (w : Nat) (s : State) : Out := s.wkr w (fun x => x.slewStep s.tick)

/-- BEACON_MISS (R260). -/
def execBeaconMiss (w : Nat) (s : State) : Out := s.wkr w (fun x => x.beaconMiss s.tick)

/-- TEST_SEQUENCE_END (R184). -/
def execTestSequenceEnd (port : PortRef) (s : State) : Out := s.onPort port (fun _ y => y.seqEnd)

end Sys2Proof.Machine
end

