-- ==== Sys2Proof/Machine/ExecLoops.lean ====
section
/-!
DEFINITION. Machine/ExecLoops.lean: the meanings of commands of the loop controller and of the command engines (R212
to R237).
-/
namespace Sys2Proof.Machine

/-- ENUMERATE_PAIR (R212). -/
def execEnumeratePair (n : Nat) (s : State) : Out := s.mgr (fun c => c.enumeratePair n)

/-- UNSEEN_REENUMERATE (R212). -/
def execUnseenReenumerate (p : Nat) (s : State) : Out := s.mgr (fun c => c.unseenRetry p)

/-- PRT_CMD_GO (R213). -/
def execPrtCmdGo (p : Nat) (v : Word) (s : State) : Out :=
  s.mgr (fun c => c.coreWrite .word (windowBase p + 0x100) (F.PRT_CMD_GO.put v 1) true)

/-- REPLY_RECEIVED (R213). -/
def execReplyReceived (p : Nat) (s : State) : Out := s.mgr (fun c => c.replyIn p)

/-- REPLY_TIMEOUT (R213). -/
def execReplyTimeout (p : Nat) (s : State) : Out := s.mgr (fun c => c.replyTimeout p)

/-- KEEPALIVE_READ (R223). -/
def execKeepaliveRead (slot : Nat) (s : State) : Out := s.mgr (fun c => c.keepalive slot)

/-- PLANNED_MOVE (R228). -/
def execPlannedMove (n : Nat) (s : State) : Out := s.mgr (fun c => c.plannedMove n)

/-- ECHO_RECEIVED (R263). -/
def execEchoReceived (p : Nat) (age : Nat) (s : State) : Out := s.mgr (fun c => c.echoIn p age)

/-- PROBE_TIMEOUT (R228). -/
def execProbeTimeout (slot : Nat) (s : State) : Out := s.mgr (fun c => c.probeTimeout slot)

/-- FAIL_OVER (R229). -/
def execFailOver (n : Nat) (s : State) : Out := s.mgr (fun c => c.failOver n)

/-- LIVENESS_TIMEOUT (R229). -/
def execLivenessTimeout (slot : Nat) (s : State) : Out := s.mgr (fun c => c.liveness slot)

/-- WORKER_LOST (R231). -/
def execWorkerLost (slot : Nat) (s : State) : Out := s.mgr (fun c => c.workerLostFlush slot)

/-- LOST_WORKER_RETURN (R232). -/
def execLostWorkerReturn (slot : Nat) (odd : Bool) (s : State) : Out := s.mgr (fun c => c.lostReturn slot odd)

/-- SELF_CHECK (R233). -/
def execSelfCheck (w : Nat) (oneDiffers : Bool) (recordWrong : Bool) (s : State) : Out :=
  s.wkr w (fun x => x.selfCheck oneDiffers recordWrong)

/-- VOTE_FAULT (R233). -/
def execVoteFault (w : Nat) (s : State) : Out := s.wkr w (fun x => x.fallback)

/-- DRAIN_TIMEOUT (R236). -/
def execDrainTimeout (slot : Nat) (s : State) : Out := s.mgr (fun c => c.drainTimeout slot)

/-- REBALANCE_CHECK (R237). -/
def execRebalanceCheck (n : Nat) (s : State) : Out := s.mgr (fun c => c.rebalance n)

end Sys2Proof.Machine
end

