-- ==== Sys2Proof/Machine/ExecMeridian.lean ====
section
/-!
DEFINITION. Machine/ExecMeridian.lean: the meanings of commands of Meridian time and of the peer links (R52 to R54,
R244 to R273).
-/
namespace Sys2Proof.Machine

/-- PEER_BLOCK_FORWARD (R52). -/
def execPeerBlockForward (odd : Bool) (age : Nat) (s : State) : Out := s.mgr (fun c => c.peerForward odd age)

/-- PEER_PORT_SWITCH (R54). -/
def execPeerPortSwitch (s : State) : Out := s.mgr (fun c => c.peerSwitch)

/-- PPS_IN_EDGE (R252). -/
def execPpsInEdge (rising : Bool) (sub : Nat) (freq : Int) (s : State) : Out :=
  s.mgr (fun c => c.ppsEdge rising sub freq)

/-- PPS_TIMEOUT (R252). -/
def execPpsTimeout (s : State) : Out := s.mgr (fun c => c.ppsTimeout)

/-- REF_IN_LOSS (R252). -/
def execRefInLoss (missed : Nat) (s : State) : Out := s.mgr (fun c => c.refLoss missed)

/-- PADJ_WRITE (R248). -/
def execPadjWrite (v : Word) (s : State) : Out := s.mgr (fun c => c.coreWrite .word 0x4400003C v true)

/-- FADJ_WRITE (R248). -/
def execFadjWrite (v : Word) (s : State) : Out := s.mgr (fun c => c.coreWrite .word 0x44000040 v true)

/-- PTP_SERVO_TIMEOUT (R249). -/
def execPtpServoTimeout (s : State) : Out := s.mgr (fun c => c.ptpTimeout)

/-- RECKONING_BOUND_EXCEEDED (R244). -/
def execReckoningBoundExceeded (s : State) : Out := s.mgr (fun c => c.boundExceeded)

/-- MER_SET_GO (R245). -/
def execMerSetGo (s : State) : Out := s.mgr (fun c => c.coreWrite .word 0x44000024 (F.MER_SET_CTL_GO.put 0 1) true)

/-- SOURCE_CHANGE (R247). -/
def execSourceChange (sel : Nat) (s : State) : Out :=
  s.mgr (fun c => c.coreWrite .word 0x44000000 (F.MER_CTL_SRC_SEL.put (c.word 0x44000000) sel) true)

/-- PEER_BEACON_SEND (R253). -/
def execPeerBeaconSend (s : State) : Out := s.mgr (fun c => c.peerBeacon)

/-- PEER_BEACON_RECEIVED (R253). -/
def execPeerBeaconReceived (age : Nat) (freq : Int) (s : State) : Out := s.mgr (fun c => c.peerBeaconIn age freq)

/-- PEER_BEACON_MISS (R253). -/
def execPeerBeaconMiss (s : State) : Out := s.mgr (fun c => c.peerMiss)

/-- PERIODIC_BEACON (R258). -/
def execPeriodicBeacon (s : State) : Out := s.mgr (fun c => c.periodicBeacon)

/-- PROBE_SEND (R263). -/
def execProbeSend (slot : Nat) (ue : Option Nat) (s : State) : Out :=
  s.mgr (fun c => match ue with
    | none => c.probeSend slot
    | some a => c.slotUe slot a)

/-- HOP_STALE (R264). -/
def execHopStale (ix : Nat) (ue : Option Nat) (s : State) : Out :=
  s.mgr (fun c => match ue with
    | none => c.hopStale ix
    | some a => c.hopUe ix a)

/-- PEER_PROBE (R269). -/
def execPeerProbe (age : Nat) (s : State) : Out := s.mgr (fun c => c.peerProbe age)

/-- MER_NOW_READ (R272). -/
def execMerNowRead (size : AccSize) (s : State) : Out := s.mgr (fun c => c.coreRead s.saf size 0x44000008)

/-- TXTS_POP (R250). -/
def execTxtsPop (s : State) : Out := s.mgr (fun c => c.coreWrite .word 0x44000068 (F.MER_TXTS_POP_POP.put 0 1) true)

end Sys2Proof.Machine
end

