-- ==== Sys2Proof/Machine/Tick.lean ====
section
/-!
DEFINITION. Machine/Tick.lean: what one MCK cycle does by itself (R38, R40, R248, R293, R347, R405), and the event unit's
own operation on an event (R479 to R481).
-/
namespace Sys2Proof

/-- A field of the two pins. -/
def Chip.pin (c : Chip) (i : Nat) : Option Nat := if i = 0 then c.que.pin0 else c.que.pin1
def Chip.setPin (c : Chip) (i : Nat) (x : Option Nat) : Chip := c.modQue (fun q => if i = 0 then { q with pin0 := x } else { q with pin1 := x })

/-- The source of BUSY_OUT_N[i] (R293). -/
def Chip.busySrc (c : Chip) (i : Nat) : Bool :=
  let w := c.b F.WKE_STAT_BUSY_WAKE
  match c.g (if i = 0 then F.QUE_BUSY_SEL0 else F.QUE_BUSY_SEL1) with
  | 0 => c.que.poolBusy
  | 1 => w
  | 2 => c.que.poolBusy || w
  | _ => false

/-- BUSY_OUT_N[i] follows its source, and stays low for at least 1 µs (R293). -/
def Chip.busyTick (c : Chip) (i : Nat) : Chip :=
  match c.pin i with
  | none => if c.busySrc i then (c.setPin i (some c.tick)).event (105 + i) 0 else c
  | some t => if !c.busySrc i ∧ t + usTicks ≤ c.tick then c.setPin i none else c

/-- Block slots of the manager's ports lie at the MCK edges whose Meridian count is a multiple of 8 (R40, R241, R258). -/
def Chip.slotTick (c : Chip) : Chip := if c.kcount % 8 = 0 then (List.range 130).foldl Chip.portSlot c else c

/-- With a new cycle no W1C bit is one that hardware sets in the same cycle as a write (R15). -/
def Port.cool (p : Port) : Port := { p with hot := 0 }
def Worker.cool (w : Worker) : Worker := { w with hot := [], east := w.east.cool, west := w.west.cool }
def Chip.cool (c : Chip) : Chip :=
  { c with hot := [], ports := AMap.mapV (always Port.init) c.ports Port.cool, workers := AMap.mapV (always Worker.init) c.workers Worker.cool }

/-- One MCK cycle. -/
def Chip.mckTick (c : Chip) : Chip :=
  let c1 := { c.txtsSettle.elogSettle.hkSettle.cool with tick := c.tick + 1 }
  if c.live then (((c1.slewCycle.slotTick.factorTick).muTick).busyTick 0).busyTick 1 else c1

/-! ## EVENT_OCCURRENCE (R479) -/

/-- Reserved indices never occur (R479). -/
def eventReserved (e : Nat) : Bool :=
  let within := fun (a b : Nat) => decide (a ≤ e ∧ e ≤ b)
  within 8 15 || within 29 31 || within 42 47 || within 54 63 || within 78 79 || within 93 95 || within 108 111 || within 121 127 ||
    within 137 143 || within 150 159 || within 167 175 || within 189 191 || within 204 207 || within 219 223 || within 237 239 || decide (256 ≤ e)

/-- The W1C bit an event is named after. -/
def eventBit (e : Nat) : Option Fld :=
  match e with
  | 80 => some F.MER_STAT_STATE_CHG | 84 => some F.MER_STAT_SRC_FAULT | 85 => some F.MER_STAT_SET_REFUSED | 86 => some F.MER_STAT_PPS_SPUR
  | 88 => some F.MER_TXTS_STAT_OVF | 96 => some F.QUE_STAT_DCQ_HOLD | 97 => some F.QUE_STAT_DCQ_DROP | 98 => some F.QUE_STAT_QFULL
  | 99 => some F.QUE_STAT_OVERSIZE | 100 => some F.QUE_STAT_FLUSH_TRUNC | 112 => some F.RSE_STAT_LATE | 113 => some F.RSE_STAT_ABSENT
  | 114 => some F.RSE_STAT_FUTURE | 115 => some F.RSE_STAT_MIG_LATE | 116 => some F.RSE_STAT_RULE_HELD | 117 => some F.RSE_STAT_MOUT_MERGED
  | 128 => some F.WKE_STAT_HWM_HIT | 130 => some F.WKE_STAT_MQ_REF | 131 => some F.WKE_STAT_WIN_PARTIAL | 132 => some F.WKE_STAT_PAGE_RETIRED
  | 133 => some F.WKE_STAT_FAR | 134 => some F.WKE_STAT_GAP | 144 => some F.WKE_STAT_WATCH_LATE | 145 => some F.WKE_STAT_WATCH_LOST
  | 160 => some F.EGR_STAT_LANE_FAULT | 161 => some F.EGR_STAT_TAKEOVER | 162 => some F.EGR_STAT_NO_SPARE | 163 => some F.EGR_STAT_PFC_LONG
  | 164 => some F.EGR_STAT_RX_DISCARD | 176 => some F.INT_STAT_CE | 177 => some F.INT_STAT_UE | 178 => some F.INT_STAT_LASTING
  | 179 => some F.INT_STAT_REMAP | 180 => some F.INT_STAT_REMAP_FULL | 181 => some F.INT_STAT_RETIRE | 182 => some F.INT_STAT_PART_REFUSED
  | 186 => some F.INT_STAT_VOTE_CORR | 188 => some F.INT_ELOG_STAT_OVF | 192 => some F.INT_STAT_MU_SWITCH | 194 => some F.INT_STAT_CORE_SWITCH
  | 197 => some F.INT_STAT_STACK_SEFI | 208 => some F.HK_STAT_OVERRUN | 209 => some F.HK_STAT_FIFO_OVF
  | 210 => some F.HK_STAT_BLANK_LONG | 211 => some F.HK_STAT_BURNOUT | 212 => some F.HK_STAT_OVR | 213 => some F.HK_STAT_DISCARD
  | 214 => some F.HK_STAT_TEST_FAIL | 215 => some F.HK_STAT_CJ_STALE | 252 => some F.LOG_STAT_SRAM_OVW
  | _ => none

/-- EVENT_OCCURRENCE: the condition of an event rises. -/
def Chip.eventOccurs (c : Chip) (e d : Nat) : Chip :=
  if eventReserved e then c
  else match eventBit e with
    | some f => c.flag f e d
    | none => c.event e d

end Sys2Proof
end

