-- ==== Sys2Proof/Machine/ExecMgmt.lean ====
section
/-!
DEFINITION. Machine/ExecMgmt.lean: the meanings of commands of Helm, of events, of the Logbook and of the management
port (R458 to R490).
-/
namespace Sys2Proof.Machine

/-- HELM_REQUEST (R468). -/
def execHelmRequest (bytes : List Byte) (ip : Nat) (udp : Nat) (s : State) : Out :=
  s.mgr (fun c => c.helmRequest bytes ip udp)

/-- HELM_READ (R470). -/
def execHelmRead (s : State) : Out := s.mgr (fun c => c.opRead s.saf)

/-- LOG_READ (R470). -/
def execLogRead (s : State) : Out := s.mgr (fun c => c.opLogRead)

/-- ATTEST (R477). -/
def execAttest (s : State) : Out := s.mgr (fun c => c.opAttest)

/-- KEYS (R470). -/
def execKeys (s : State) : Out := s.mgr (fun c => c.opKeys)

/-- NET_GET (R470). -/
def execNetGet (s : State) : Out := s.mgr (fun c => c.opNetGet)

/-- WRITE (R471). -/
def execWrite (ok : Bool) (s : State) : Out := s.mgr (fun c => c.opWrite s.saf ok)

/-- CHART_CHUNK (R470). -/
def execChartChunk (s : State) : Out := s.mgr (fun c => c.opChartChunk)

/-- TRIM_CHUNK (R470). -/
def execTrimChunk (s : State) : Out := s.mgr (fun c => c.opTrimChunk)

/-- TRIM_COMMIT (R476). -/
def execTrimCommit (ok : Bool) (s : State) : Out := s.mgr (fun c => c.opTrimCommit ok)

/-- FW_CHUNK (R470). -/
def execFwChunk (s : State) : Out := s.mgr (fun c => c.opFwChunk)

/-- FW_COMMIT (R465). -/
def execFwCommit (ok : Bool) (s : State) : Out := s.mgr (fun c => c.opFwCommit ok)

/-- MARK (R470). -/
def execMark (s : State) : Out := s.mgr (fun c => c.opMark)

/-- ENROL (R461). -/
def execEnrol (s : State) : Out := s.mgr (fun c => c.opEnrol)

/-- REVOKE (R461). -/
def execRevoke (s : State) : Out := s.mgr (fun c => c.opRevoke)

/-- SUBSCRIBE (R474). -/
def execSubscribe (s : State) : Out := s.mgr (fun c => c.opSubscribe)

/-- NET (R470). -/
def execNet (s : State) : Out := s.mgr (fun c => c.opNet)

/-- REKEY (R462). -/
def execRekey (s : State) : Out := s.mgr (fun c => c.opRekey)

/-- DIAG (R470). -/
def execDiag (s : State) : Out := s.mgr (fun c => c.opDiag)

/-- FUSE_READ (R470). -/
def execFuseRead (s : State) : Out := s.mgr (fun c => c.opFuseRead)

/-- ROLE_END (R469). -/
def execRoleEnd (s : State) : Out := s.mgr (fun c => c.coreWrite .word 0x4A000008 (F.MGT_ROLE_END.put 0 1) true)

/-- SUBSCRIPTION_LAPSE (R474). -/
def execSubscriptionLapse (num : Nat) (s : State) : Out := s.mgr (fun c => c.subLapse num)

/-- EVENT_OCCURRENCE (R479). -/
def execEventOccurrence (e : Nat) (d : Nat) (s : State) : Out := s.mgr (fun c => c.eventOccurs e d)

/-- NOTIFICATION_SEND (R474). -/
def execNotificationSend (num : Nat) (e : Nat) (s : State) : Out := s.mgr (fun c => c.notify num e)

/-- EVENT_RECORD_WRITE (R481). -/
def execEventRecordWrite (e : Nat) (s : State) : Out := s.mgr (fun c => c.eventRecord e)

/-- LOG_WR_GO (R488). -/
def execLogWrGo (v : Word) (s : State) : Out :=
  s.mgr (fun c => c.coreWrite .word 0x48000078 (F.LOG_WR_CTL_GO.put v 1) true)

/-- LOG_RD_GO (R488). -/
def execLogRdGo (s : State) : Out := s.mgr (fun c => c.coreWrite .word 0x48000010 (F.LOG_RD_GO.put 0 1) true)

/-- LOGBOOK_COMMIT (R485). -/
def execLogbookCommit (ok : Bool) (s : State) : Out := s.mgr (fun c => c.logCommit ok)

/-- NVM_FAILURE (R486). -/
def execNvmFailure (written : Bool) (s : State) : Out := s.mgr (fun c => c.nvmFailure written)

/-- OPTIME_TICK (R484). -/
def execOptimeTick (s : State) : Out := s.any (fun c => c.optimeTick)

/-- MGMT_FRAME_RECEIVED (R478). -/
def execMgmtFrameReceived (bytes : List Byte) (sub : Nat) (s : State) : Out := s.mgr (fun c => c.frameIn bytes sub)

/-- MGMT_FRAME_SEND (R478). -/
def execMgmtFrameSend (bytes : List Byte) (tsReq : Bool) (tsId : Nat) (sub : Nat) (s : State) : Out :=
  s.mgr (fun c => c.frameOut bytes tsReq tsId sub)

/-- MGMT_LINK_CHANGE (R479). -/
def execMgmtLinkChange (up : Bool) (s : State) : Out := s.mgr (fun c => c.mgmtLink up)

end Sys2Proof.Machine
end

