-- ==== Sys2Proof/Machine/ExecPower.lean ====
section
/-!
DEFINITION. Machine/ExecPower.lean: the meanings of commands of the supplies, of resets and of the die (R494 to R510).
-/
namespace Sys2Proof.Machine

/-- POWER_ON_RESET_RELEASE (R496). -/
def execPowerOnResetRelease (bootSel : Nat) (stuckPol : Bool) (nvmOk : Bool) (s : State) : Out :=
  s.any (fun c => c.porRelease bootSel stuckPol nvmOk)

/-- RESET_N_ASSERT (R497). -/
def execResetNAssert (s : State) : Out := s.any (fun c => c.resetAssert)

/-- RESET_N_RELEASE (R497). -/
def execResetNRelease (bootSel : Nat) (nvmOk : Bool) (s : State) : Out :=
  s.any (fun c => c.resetRelease bootSel nvmOk)

/-- RESET_N_FAILED (R498). -/
def execResetNFailed (bootSel : Nat) (nvmOk : Bool) (s : State) : Out :=
  s.any (fun c => c.resetFailed bootSel nvmOk)

/-- RESET_N_HONOURED_AGAIN (R498). -/
def execResetNHonouredAgain (s : State) : Out := s.any (fun c => c.resetHonoured)

/-- SUPPLY_OUT_OF_RANGE (R494). -/
def execSupplyOutOfRange (rail : Nat) (s : State) : Out := s.any (fun c => c.supplyWarn rail)

/-- SUPPLY_BROWN_OUT (R494). -/
def execSupplyBrownOut (rail : Nat) (s : State) : Out := s.brownOut rail

/-- DIE_TEMP_EVENT (R510). -/
def execDieTempEvent (temp : Int) (s : State) : Out := s.any (fun c => c.dieTemp temp)

/-- TAP_LEAVE_RESET (R504). -/
def execTapLeaveReset (s : State) : Out := s.any (fun c => c.tapLeave)

/-- WORKER_POR_RELEASE (R499). -/
def execWorkerPorRelease (w : Nat) (s : State) : Out := s.any (fun c => c.wkrRelease w)

/-- WORKER_RST_N (R499). -/
def execWorkerRstN (w : Nat) (s : State) : Out := s.any (fun c => c.wkrRstN w)

/-- LINK_LOSS_RESET (R499). -/
def execLinkLossReset (w : Nat) (s : State) : Out := s.any (fun c => c.wkrLinkLoss w)

/-- SUPPLY_RETURN (R494). -/
def execSupplyReturn (rail : Nat) (s : State) : Out := s.any (fun c => c.supplyReturn rail)

/-- WORKER_SUPPLY_LOSS (R499). -/
def execWorkerSupplyLoss (w : Nat) (s : State) : Out := s.any (fun c => c.wkrSupplyLoss w)

end Sys2Proof.Machine
end

