-- ==== Sys2Proof/Machine/ExecReg.lean ====
section
/-!
DEFINITION. Machine/ExecReg.lean: the meanings of register writes.
-/
namespace Sys2Proof.Machine

/-- REGISTER_WRITE (R16). -/
def execRegisterWrite (tgt : Target) (size : AccSize) (a : Nat) (data : Word) (ok : Bool) (s : State) : Out :=
  s.regWrite tgt size a data ok

end Sys2Proof.Machine
end

