-- ==== Sys2Proof/Machine/ExecWake.lean ====
section
/-!
DEFINITION. Machine/ExecWake.lean: the meanings of commands of Wake, its windows and its watches (R319 to R348).
-/
namespace Sys2Proof.Machine

/-- MARK_IN_EDGE (R323). -/
def execMarkInEdge (line : Nat) (rising : Bool) (age : Nat) (s : State) : Out :=
  s.mgr (fun c => c.markInEdge line rising age)

/-- DEFERRED_MARK (R325). -/
def execDeferredMark (v : Word) (s : State) : Out :=
  s.mgr (fun c => c.coreWrite .word 0x42000078 (F.WKE_DM_CTL_GO.put v 1) true)

/-- PEER_MARK_RECEIVED (R324). -/
def execPeerMarkReceived (s : State) : Out := s.mgr (fun c => c.peerMarkIn)

/-- MARK_TIMEOUT (R328). -/
def execMarkTimeout (e : Nat) (s : State) : Out := s.mgr (fun c => c.markTimeout e)

/-- WINDOW_READY (R328). -/
def execWindowReady (e : Nat) (s : State) : Out := s.mgr (fun c => c.windowReady e)

/-- WINDOW_EXTRACT (R329). -/
def execWindowExtract (ue : Option (Nat × Nat)) (s : State) : Out :=
  s.mgr (fun c => match ue with
    | none => c.windowExtract
    | some (e, a) => c.windowUe e a)

/-- WATCH_CLOSE (R332). -/
def execWatchClose (g : Nat) (s : State) : Out := s.mgr (fun c => c.watchClose g)

/-- WATCH_BUILD (R334). -/
def execWatchBuild (g : Nat) (s : State) : Out := s.mgr (fun c => c.watchBuild g)

/-- WATCH_DEADLINE (R334). -/
def execWatchDeadline (g : Nat) (s : State) : Out := s.mgr (fun c => c.watchDeadline g)

/-- SPAN_WRITE (R331). -/
def execSpanWrite (g : Nat) (v : Word) (s : State) : Out :=
  s.mgr (fun c => c.coreWrite .word (0x42000100 + 32 * g) v true)

/-- WAKE_HWM (R336). -/
def execWakeHwm (s : State) : Out := s.mgr (fun c => c.wakeHwm)

end Sys2Proof.Machine
end

