-- ==== Sys2Proof/Machine/ExecWorker.lean ====
section
/-!
DEFINITION. Machine/ExecWorker.lean: the meanings of commands of a worker: its pixels, tiles, tables, readout, marks
and control (R60 to R168).
-/
namespace Sys2Proof.Machine

/-- LEADING_EDGE (R101). -/
def execLeadingEdge (w : Nat) (a : Nat) (p : Nat) (v : Nat) (sig : Signal) (s : State) : Out :=
  s.wkr w (fun x => x.leadingEdge s.tick a p v sig)

/-- VALIDATION_EVENT (R73). -/
def execValidationEvent (w : Nat) (a : Nat) (p : Nat) (sig : Signal) (s : State) : Out :=
  s.wkr w (fun x => x.validate s.tick a p sig)

/-- LOW_DISC_FALL (R125). -/
def execLowDiscFall (w : Nat) (a : Nat) (p : Nat) (ovr : Bool) (s : State) : Out :=
  s.wkr w (fun x => x.lowFall s.tick a p ovr)

/-- TOT_SATURATE (R124). -/
def execTotSaturate (w : Nat) (a : Nat) (ovr : Bool) (s : State) : Out :=
  s.wkr w (fun x => x.totSaturate s.tick a ovr)

/-- DEAD_TIME_END (R69). -/
def execDeadTimeEnd (w : Nat) (a : Nat) (s : State) : Out := s.wkr w (fun x => x.deadTimeEnd s.tick a)

/-- RELAX_EXPIRY (R69). -/
def execRelaxExpiry (w : Nat) (a : Nat) (s : State) : Out := s.wkr w (fun x => x.relaxExpiry s.tick a)

/-- RANGE_SETTLE_END (R69). -/
def execRangeSettleEnd (w : Nat) (a : Nat) (s : State) : Out := s.wkr w (fun x => x.rangeSettleEnd s.tick a)

/-- LEAK_SATURATE (R60). -/
def execLeakSaturate (w : Nat) (a : Nat) (p : Nat) (ovr : Bool) (s : State) : Out :=
  s.wkr w (fun x => x.leakSaturate s.tick a p ovr)

/-- LEAK_RECOVER (R60). -/
def execLeakRecover (w : Nat) (a : Nat) (s : State) : Out := s.wkr w (fun x => x.leakRecover a)

/-- CAL_IN_EDGE (R78). -/
def execCalInEdge (w : Nat) (level : Bool) (amp : Nat) (s : State) : Out :=
  s.wkr w (fun x => x.calInEdge s.tick level amp)

/-- INJECTION_STROBE (R113). -/
def execInjectionStrobe (w : Nat) (s : State) : Out := s.wkr w (fun x => x.strobe s.tick)

/-- INJECTION_BURST (R114). -/
def execInjectionBurst (w : Nat) (v : Word) (s : State) : Out :=
  s.wkr w (fun x => x.writeReg s.tick 0x205 (F.TC_INJ_INJ_GO.put v 1))

/-- TILE_POWER_DOWN (R83). -/
def execTilePowerDown (w : Nat) (t : Nat) (cause : PgCause) (s : State) : Out :=
  match cause with
  | .write => s.wkr w (fun x => x.writeReg s.tick (0x301 + 4 * t) (F.TILE_AFE_PG.put (x.word (0x301 + 4 * t)) 1))
  | .limits idle => s.mgr (fun c => c.idleTile w t idle)

/-- TILE_POWER_OFF (R83). -/
def execTilePowerOff (w : Nat) (t : Nat) (s : State) : Out := s.wkr w (fun x => x.powerOff s.tick t)

/-- TILE_POWER_UP (R85). -/
def execTilePowerUp (w : Nat) (t : Nat) (s : State) : Out :=
  s.wkr w (fun x => x.writeReg s.tick (0x301 + 4 * t) (F.TILE_AFE_PG.put (x.word (0x301 + 4 * t)) 0))

/-- TILE_SETTLE_END (R85). -/
def execTileSettleEnd (w : Nat) (t : Nat) (s : State) : Out := s.wkr w (fun x => x.settleEnd s.tick t)

/-- PIXEL_SCRUB (R90). -/
def execPixelScrub (w : Nat) (find : Finding) (s : State) : Out := s.wkr w (fun x => x.pixelScrub s.tick find)

/-- NOISY_PIXEL_MASK (R82). -/
def execNoisyPixelMask (slot : Nat) (a : Nat) (on : Bool) (rate : Nat) (s : State) : Out :=
  s.mgr (fun c => c.noisyMask slot a on rate)

/-- TRIM_UPDATE_CYCLE (R482). -/
def execTrimUpdateCycle (slot : Nat) (updates : List (Nat × Nat)) (s : State) : Out :=
  s.mgr (fun c => c.trimCycle slot updates)

/-- PULSER_HIT (R107). -/
def execPulserHit (w : Nat) (p : Nat) (v : Nat) (bad : Bool) (s : State) : Out :=
  s.wkr w (fun x => x.pulserHit s.tick p v bad)

/-- CAL_TABLE_COMPLETE (R108). -/
def execCalTableComplete (w : Nat) (bad : Bool) (s : State) : Out := s.wkr w (fun x => x.calComplete bad)

/-- CAL_FG (R112). -/
def execCalFg (w : Nat) (s : State) : Out := s.wkr w (fun x => x.calFg)

/-- FG_PASS_END (R112). -/
def execFgPassEnd (w : Nat) (s : State) : Out := s.wkr w (fun x => x.fgPassEnd)

/-- SWAP_GO (R131). -/
def execSwapGo (w : Nat) (t : Nat) (s : State) : Out := s.wkr w (fun x => x.swapGo t)

/-- TBL_DATA_ACCESS (R130). -/
def execTblDataAccess (w : Nat) (write : Option Word) (find : Finding) (s : State) : Out :=
  s.wkr w (fun x => match write with
    | some v => x.writeReg s.tick 0x208 v
    | none => ((x.tblFound find).readReg s.tick 0x208 0).2)

/-- CNT_LO_READ (R129). -/
def execCntLoRead (w : Nat) (s : State) : Out := s.wkr w (fun x => (x.readReg s.tick 0x203 0).2)

/-- TABLE_SCRUB (R126). -/
def execTableScrub (w : Nat) (fb : Finding) (fo : Finding) (s : State) : Out :=
  s.wkr w (fun x => x.tableScrub s.tick fb fo)

/-- TABLE_INIT_DONE (R128). -/
def execTableInitDone (w : Nat) (s : State) : Out := s.wkr w (fun x => x.tableInitDone)

/-- ARBITER_MOVE (R135). -/
def execArbiterMove (w : Nat) (s : State) : Out := s.wkr w (fun x => x.arbiter s.tick)

/-- UPLINK_SLOT (R157). -/
def execUplinkSlot (w : Nat) (west : Bool) (s : State) : Out := s.wkr w (fun x => x.slot s.tick west)

/-- PAIR_WAIT_EXPIRY (R142). -/
def execPairWaitExpiry (w : Nat) (s : State) : Out := s.wkr w (fun x => x.pairWait s.tick)

/-- TIME_REFERENCE_DUE (R143). -/
def execTimeReferenceDue (w : Nat) (s : State) : Out := s.wkr w (fun x => x.timeRefDue s.tick)

/-- SIGHTING_WINDOW_EXPIRY (R153). -/
def execSightingWindowExpiry (w : Nat) (t : Nat) (s : State) : Out := s.wkr w (fun x => x.sightExpiry s.tick t)

/-- FORWARDED_BLOCK_ARRIVAL (R157). -/
def execForwardedBlockArrival (w : Nat) (s : State) : Out := s.wkr w (fun x => x.forwardArrival)

/-- MODE_CHANGE (R146). -/
def execModeChange (w : Nat) (marked : Bool) (s : State) : Out := s.wkr w (fun x => x.setMode marked)

/-- MARK_RECEIVED (R152). -/
def execMarkReceived (w : Nat) (west : Bool) (s : State) : Out := s.wkr w (fun x => x.markIn s.tick west)

/-- MARK_SERVE_START (R148). -/
def execMarkServeStart (w : Nat) (s : State) : Out := s.wkr w (fun x => x.markServe s.tick)

/-- MARK_SCAN_END (R149). -/
def execMarkScanEnd (w : Nat) (s : State) : Out := s.wkr w (fun x => x.markScanEnd s.tick)

/-- MARK_COPY (R149). -/
def execMarkCopy (w : Nat) (s : State) : Out := s.wkr w (fun x => x.markCopy s.tick)

/-- THROTTLE_RECEIVED (R159). -/
def execThrottleReceived (w : Nat) (west : Bool) (s : State) : Out := s.wkr w (fun x => x.throttleIn s.tick west)

/-- TRIM_RECEIVED (R161). -/
def execTrimReceived (w : Nat) (west : Bool) (finds : List Finding) (s : State) : Out :=
  s.wkr w (fun x => x.trimIn s.tick west finds)

/-- FLAG_RISE_REPORT (R163). -/
def execFlagRiseReport (w : Nat) (flag : Nat) (s : State) : Out := s.wkr w (fun x => x.raise ⟨0x3, flag, flag⟩)

/-- MONITOR_PERIOD_EXPIRY (R163). -/
def execMonitorPeriodExpiry (w : Nat) (s : State) : Out := s.wkr w (fun x => x.monitorPeriod s.tick)

/-- WORKER_ENABLE (R165). -/
def execWorkerEnable (w : Nat) (s : State) : Out := s.wkr w (fun x => x.enable)

/-- WORKER_DISABLE (R166). -/
def execWorkerDisable (w : Nat) (s : State) : Out := s.wkr w (fun x => x.disable)

/-- OQ_HWM_WRITE (R167). -/
def execOqHwmWrite (w : Nat) (v : Word) (s : State) : Out := s.wkr w (fun x => x.writeReg s.tick 0x006 v)

/-- SLIP_HWM_WRITE (R167). -/
def execSlipHwmWrite (w : Nat) (v : Word) (s : State) : Out := s.wkr w (fun x => x.writeReg s.tick 0x009 v)

/-- FIFO_HWM_WRITE (R168). -/
def execFifoHwmWrite (w : Nat) (t : Nat) (v : Word) (s : State) : Out :=
  s.wkr w (fun x => x.writeReg s.tick (0x303 + 4 * t) v)

end Sys2Proof.Machine
end

