-- ==== Sys2Proof/Machine/Dispatch.lean ====
section
/-!
DEFINITION. Machine/Dispatch.lean: which meaning each command has.
-/
namespace Sys2Proof.Machine

/-- The effect of a command on everything but the queue. -/
def exec (i : Instr) (s : State) : Host.Outcome State Fault Refusal :=
  match i with
  | .registerWrite tgt size a data ok => Sys2Proof.Machine.execRegisterWrite tgt size a data ok s
  | .leadingEdge w a p v sig => Sys2Proof.Machine.execLeadingEdge w a p v sig s
  | .validationEvent w a p sig => Sys2Proof.Machine.execValidationEvent w a p sig s
  | .lowDiscFall w a p ovr => Sys2Proof.Machine.execLowDiscFall w a p ovr s
  | .totSaturate w a ovr => Sys2Proof.Machine.execTotSaturate w a ovr s
  | .deadTimeEnd w a => Sys2Proof.Machine.execDeadTimeEnd w a s
  | .relaxExpiry w a => Sys2Proof.Machine.execRelaxExpiry w a s
  | .rangeSettleEnd w a => Sys2Proof.Machine.execRangeSettleEnd w a s
  | .leakSaturate w a p ovr => Sys2Proof.Machine.execLeakSaturate w a p ovr s
  | .leakRecover w a => Sys2Proof.Machine.execLeakRecover w a s
  | .calInEdge w level amp => Sys2Proof.Machine.execCalInEdge w level amp s
  | .injectionStrobe w => Sys2Proof.Machine.execInjectionStrobe w s
  | .injectionBurst w v => Sys2Proof.Machine.execInjectionBurst w v s
  | .tilePowerDown w t cause => Sys2Proof.Machine.execTilePowerDown w t cause s
  | .tilePowerOff w t => Sys2Proof.Machine.execTilePowerOff w t s
  | .tilePowerUp w t => Sys2Proof.Machine.execTilePowerUp w t s
  | .tileSettleEnd w t => Sys2Proof.Machine.execTileSettleEnd w t s
  | .pixelScrub w find => Sys2Proof.Machine.execPixelScrub w find s
  | .noisyPixelMask slot a on rate => Sys2Proof.Machine.execNoisyPixelMask slot a on rate s
  | .trimUpdateCycle slot updates => Sys2Proof.Machine.execTrimUpdateCycle slot updates s
  | .pulserHit w p v bad => Sys2Proof.Machine.execPulserHit w p v bad s
  | .calTableComplete w bad => Sys2Proof.Machine.execCalTableComplete w bad s
  | .calFg w => Sys2Proof.Machine.execCalFg w s
  | .fgPassEnd w => Sys2Proof.Machine.execFgPassEnd w s
  | .swapGo w t => Sys2Proof.Machine.execSwapGo w t s
  | .tblDataAccess w write find => Sys2Proof.Machine.execTblDataAccess w write find s
  | .cntLoRead w => Sys2Proof.Machine.execCntLoRead w s
  | .tableScrub w fb fo => Sys2Proof.Machine.execTableScrub w fb fo s
  | .tableInitDone w => Sys2Proof.Machine.execTableInitDone w s
  | .arbiterMove w => Sys2Proof.Machine.execArbiterMove w s
  | .uplinkSlot w west => Sys2Proof.Machine.execUplinkSlot w west s
  | .pairWaitExpiry w => Sys2Proof.Machine.execPairWaitExpiry w s
  | .timeReferenceDue w => Sys2Proof.Machine.execTimeReferenceDue w s
  | .sightingWindowExpiry w t => Sys2Proof.Machine.execSightingWindowExpiry w t s
  | .forwardedBlockArrival w => Sys2Proof.Machine.execForwardedBlockArrival w s
  | .modeChange w marked => Sys2Proof.Machine.execModeChange w marked s
  | .markReceived w west => Sys2Proof.Machine.execMarkReceived w west s
  | .markServeStart w => Sys2Proof.Machine.execMarkServeStart w s
  | .markScanEnd w => Sys2Proof.Machine.execMarkScanEnd w s
  | .markCopy w => Sys2Proof.Machine.execMarkCopy w s
  | .throttleReceived w west => Sys2Proof.Machine.execThrottleReceived w west s
  | .trimReceived w west finds => Sys2Proof.Machine.execTrimReceived w west finds s
  | .flagRiseReport w flag => Sys2Proof.Machine.execFlagRiseReport w flag s
  | .monitorPeriodExpiry w => Sys2Proof.Machine.execMonitorPeriodExpiry w s
  | .workerEnable w => Sys2Proof.Machine.execWorkerEnable w s
  | .workerDisable w => Sys2Proof.Machine.execWorkerDisable w s
  | .oqHwmWrite w v => Sys2Proof.Machine.execOqHwmWrite w v s
  | .slipHwmWrite w v => Sys2Proof.Machine.execSlipHwmWrite w v s
  | .fifoHwmWrite w t v => Sys2Proof.Machine.execFifoHwmWrite w t v s
  | .blockReceived port bits phase => Sys2Proof.Machine.execBlockReceived port bits phase s
  | .lossOfSignal port => Sys2Proof.Machine.execLossOfSignal port s
  | .signalReturn port => Sys2Proof.Machine.execSignalReturn port s
  | .noLockTimeout port => Sys2Proof.Machine.execNoLockTimeout port s
  | .testSequenceStart port => Sys2Proof.Machine.execTestSequenceStart port s
  | .testSequenceAbandon port => Sys2Proof.Machine.execTestSequenceAbandon port s
  | .rejoinBackoffExpiry port => Sys2Proof.Machine.execRejoinBackoffExpiry port s
  | .gridSlewEnd w west => Sys2Proof.Machine.execGridSlewEnd w west s
  | .eqFreeze port eq => Sys2Proof.Machine.execEqFreeze port eq s
  | .eqResume port => Sys2Proof.Machine.execEqResume port s
  | .eqCapture port eq => Sys2Proof.Machine.execEqCapture port eq s
  | .errorInject port data => Sys2Proof.Machine.execErrorInject port data s
  | .testModeSet port ctl => Sys2Proof.Machine.execTestModeSet port ctl s
  | .svcEnChange port on => Sys2Proof.Machine.execSvcEnChange port on s
  | .cntClr port => Sys2Proof.Machine.execCntClr port s
  | .wckSelect w => Sys2Proof.Machine.execWckSelect w s
  | .enumerationCommand w west => Sys2Proof.Machine.execEnumerationCommand w west s
  | .enumeratePair n => Sys2Proof.Machine.execEnumeratePair n s
  | .unseenReenumerate p => Sys2Proof.Machine.execUnseenReenumerate p s
  | .prtCmdGo p v => Sys2Proof.Machine.execPrtCmdGo p v s
  | .replyReceived p => Sys2Proof.Machine.execReplyReceived p s
  | .replyTimeout p => Sys2Proof.Machine.execReplyTimeout p s
  | .workerCmdExecute w west find => Sys2Proof.Machine.execWorkerCmdExecute w west find s
  | .probeReceived w west sub => Sys2Proof.Machine.execProbeReceived w west sub s
  | .epochEndSend w => Sys2Proof.Machine.execEpochEndSend w s
  | .holdSelfRelease w west => Sys2Proof.Machine.execHoldSelfRelease w west s
  | .keepaliveRead slot => Sys2Proof.Machine.execKeepaliveRead slot s
  | .plannedMove n => Sys2Proof.Machine.execPlannedMove n s
  | .echoReceived p age => Sys2Proof.Machine.execEchoReceived p age s
  | .probeTimeout slot => Sys2Proof.Machine.execProbeTimeout slot s
  | .failOver n => Sys2Proof.Machine.execFailOver n s
  | .livenessTimeout slot => Sys2Proof.Machine.execLivenessTimeout slot s
  | .workerLost slot => Sys2Proof.Machine.execWorkerLost slot s
  | .lostWorkerReturn slot odd => Sys2Proof.Machine.execLostWorkerReturn slot odd s
  | .selfCheck w oneDiffers recordWrong => Sys2Proof.Machine.execSelfCheck w oneDiffers recordWrong s
  | .voteFault w => Sys2Proof.Machine.execVoteFault w s
  | .drainTimeout slot => Sys2Proof.Machine.execDrainTimeout slot s
  | .rebalanceCheck n => Sys2Proof.Machine.execRebalanceCheck n s
  | .peerBlockForward odd age => Sys2Proof.Machine.execPeerBlockForward odd age s
  | .peerPortSwitch => Sys2Proof.Machine.execPeerPortSwitch s
  | .ppsInEdge rising sub freq => Sys2Proof.Machine.execPpsInEdge rising sub freq s
  | .ppsTimeout => Sys2Proof.Machine.execPpsTimeout s
  | .refInLoss missed => Sys2Proof.Machine.execRefInLoss missed s
  | .padjWrite v => Sys2Proof.Machine.execPadjWrite v s
  | .fadjWrite v => Sys2Proof.Machine.execFadjWrite v s
  | .ptpServoTimeout => Sys2Proof.Machine.execPtpServoTimeout s
  | .reckoningBoundExceeded => Sys2Proof.Machine.execReckoningBoundExceeded s
  | .merSetGo => Sys2Proof.Machine.execMerSetGo s
  | .sourceChange sel => Sys2Proof.Machine.execSourceChange sel s
  | .peerBeaconSend => Sys2Proof.Machine.execPeerBeaconSend s
  | .peerBeaconReceived age freq => Sys2Proof.Machine.execPeerBeaconReceived age freq s
  | .peerBeaconMiss => Sys2Proof.Machine.execPeerBeaconMiss s
  | .periodicBeacon => Sys2Proof.Machine.execPeriodicBeacon s
  | .beaconReceived w west sub => Sys2Proof.Machine.execBeaconReceived w west sub s
  | .slewStep w => Sys2Proof.Machine.execSlewStep w s
  | .beaconMiss w => Sys2Proof.Machine.execBeaconMiss w s
  | .probeSend slot ue => Sys2Proof.Machine.execProbeSend slot ue s
  | .hopStale ix ue => Sys2Proof.Machine.execHopStale ix ue s
  | .peerProbe age => Sys2Proof.Machine.execPeerProbe age s
  | .merNowRead size => Sys2Proof.Machine.execMerNowRead size s
  | .txtsPop => Sys2Proof.Machine.execTxtsPop s
  | .poolServe p ue => Sys2Proof.Machine.execPoolServe p ue s
  | .throttleResend slot => Sys2Proof.Machine.execThrottleResend slot s
  | .shareInterval p => Sys2Proof.Machine.execShareInterval p s
  | .bucketClose g => Sys2Proof.Machine.execBucketClose g s
  | .absentTimeout q => Sys2Proof.Machine.execAbsentTimeout q s
  | .engineEmit e ue => Sys2Proof.Machine.execEngineEmit e ue s
  | .queFlushGo v => Sys2Proof.Machine.execQueFlushGo v s
  | .flushTimeout p => Sys2Proof.Machine.execFlushTimeout p s
  | .streamRebalance q target => Sys2Proof.Machine.execStreamRebalance q target s
  | .rseMigGo v => Sys2Proof.Machine.execRseMigGo v s
  | .migrationTimeout => Sys2Proof.Machine.execMigrationTimeout s
  | .sightingArrival => Sys2Proof.Machine.execSightingArrival s
  | .tileSetExpiry set => Sys2Proof.Machine.execTileSetExpiry set s
  | .markOutPulseEnd line => Sys2Proof.Machine.execMarkOutPulseEnd line s
  | .moutTest mask => Sys2Proof.Machine.execMoutTest mask s
  | .dcqHwmWrite p v => Sys2Proof.Machine.execDcqHwmWrite p v s
  | .poolMinWrite v => Sys2Proof.Machine.execPoolMinWrite v s
  | .markInEdge line rising age => Sys2Proof.Machine.execMarkInEdge line rising age s
  | .deferredMark v => Sys2Proof.Machine.execDeferredMark v s
  | .peerMarkReceived => Sys2Proof.Machine.execPeerMarkReceived s
  | .markTimeout e => Sys2Proof.Machine.execMarkTimeout e s
  | .windowReady e => Sys2Proof.Machine.execWindowReady e s
  | .windowExtract ue => Sys2Proof.Machine.execWindowExtract ue s
  | .watchClose g => Sys2Proof.Machine.execWatchClose g s
  | .watchBuild g => Sys2Proof.Machine.execWatchBuild g s
  | .watchDeadline g => Sys2Proof.Machine.execWatchDeadline g s
  | .spanWrite g v => Sys2Proof.Machine.execSpanWrite g v s
  | .wakeHwm => Sys2Proof.Machine.execWakeHwm s
  | .frameSend l => Sys2Proof.Machine.execFrameSend l s
  | .frameConfirm l => Sys2Proof.Machine.execFrameConfirm l s
  | .pfcReceived p enable quanta => Sys2Proof.Machine.execPfcReceived p enable quanta s
  | .rxFrameDiscard p => Sys2Proof.Machine.execRxFrameDiscard p s
  | .pfcWatchdog p prio => Sys2Proof.Machine.execPfcWatchdog p prio s
  | .laneFault p cause corr unc => Sys2Proof.Machine.execLaneFault p cause corr unc s
  | .firstResentFrame l ue => Sys2Proof.Machine.execFirstResentFrame l ue s
  | .laneRecover p => Sys2Proof.Machine.execLaneRecover p s
  | .monitorFrame => Sys2Proof.Machine.execMonitorFrame s
  | .factorMinWrite v => Sys2Proof.Machine.execFactorMinWrite v s
  | .chartStore k ok => Sys2Proof.Machine.execChartStore k ok s
  | .chartActivate k ok => Sys2Proof.Machine.execChartActivate k ok s
  | .chartErase k ok => Sys2Proof.Machine.execChartErase k ok s
  | .chartBootActivate bad => Sys2Proof.Machine.execChartBootActivate bad s
  | .chartDigestCheck intact ok => Sys2Proof.Machine.execChartDigestCheck intact ok s
  | .runEnSet => Sys2Proof.Machine.execRunEnSet s
  | .consistencyCheckEnd => Sys2Proof.Machine.execConsistencyCheckEnd s
  | .runEnClear => Sys2Proof.Machine.execRunEnClear s
  | .trimTargetWrite v => Sys2Proof.Machine.execTrimTargetWrite v s
  | .scrubWord m a find => Sys2Proof.Machine.execScrubWord m a find s
  | .targetedTest m fails => Sys2Proof.Machine.execTargetedTest m fails s
  | .remapInstall m => Sys2Proof.Machine.execRemapInstall m s
  | .stupGo => Sys2Proof.Machine.execStupGo s
  | .startupSelfTestEnd find => Sys2Proof.Machine.execStartupSelfTestEnd find s
  | .bypassAccess v => Sys2Proof.Machine.execBypassAccess v s
  | .elogPop => Sys2Proof.Machine.execElogPop s
  | .muFault cause => Sys2Proof.Machine.execMuFault cause s
  | .muSwitchRequest => Sys2Proof.Machine.execMuSwitchRequest s
  | .muStandbyFault => Sys2Proof.Machine.execMuStandbyFault s
  | .muSelfTestEnd u ok => Sys2Proof.Machine.execMuSelfTestEnd u ok s
  | .checkpoint => Sys2Proof.Machine.execCheckpoint s
  | .coreMismatch p => Sys2Proof.Machine.execCoreMismatch p s
  | .coreFailoverEnd => Sys2Proof.Machine.execCoreFailoverEnd s
  | .coreSelfTestEnd p ok => Sys2Proof.Machine.execCoreSelfTestEnd p ok s
  | .coreReboot => Sys2Proof.Machine.execCoreReboot s
  | .stackSefi k => Sys2Proof.Machine.execStackSefi k s
  | .stackTempRead k t => Sys2Proof.Machine.execStackTempRead k t s
  | .doseRefreshChange k => Sys2Proof.Machine.execDoseRefreshChange k s
  | .settleEnd x => Sys2Proof.Machine.execSettleEnd x s
  | .conversionEnd x raw => Sys2Proof.Machine.execConversionEnd x raw s
  | .urgentTrigger written => Sys2Proof.Machine.execUrgentTrigger written s
  | .hkIncfgWrite k v => Sys2Proof.Machine.execHkIncfgWrite k v s
  | .seqEnWrite en => Sys2Proof.Machine.execSeqEnWrite en s
  | .hkBlankAssert => Sys2Proof.Machine.execHkBlankAssert s
  | .hkBlankRelease => Sys2Proof.Machine.execHkBlankRelease s
  | .blankLong => Sys2Proof.Machine.execBlankLong s
  | .hkTestGo timer => Sys2Proof.Machine.execHkTestGo timer s
  | .hkTestEnd ga gb okA okB => Sys2Proof.Machine.execHkTestEnd ga gb okA okB s
  | .slopeSubinterval charge => Sys2Proof.Machine.execSlopeSubinterval charge s
  | .hkFifoPop => Sys2Proof.Machine.execHkFifoPop s
  | .hkLastRead k => Sys2Proof.Machine.execHkLastRead k s
  | .vddSafeUp s1 s2 => Sys2Proof.Machine.execVddSafeUp s1 s2 s
  | .interlockSelfTestEnd logicOk sckOk convOk => Sys2Proof.Machine.execInterlockSelfTestEnd logicOk sckOk convOk s
  | .channelOpen a b => Sys2Proof.Machine.execChannelOpen a b s
  | .channelClosed a b => Sys2Proof.Machine.execChannelClosed a b s
  | .discrepancyTimeout => Sys2Proof.Machine.execDiscrepancyTimeout s
  | .switchReadsOpen hs ls => Sys2Proof.Machine.execSwitchReadsOpen hs ls s
  | .removalWatchEnd dscFb => Sys2Proof.Machine.execRemovalWatchEnd dscFb s
  | .slopeValue good => Sys2Proof.Machine.execSlopeValue good s
  | .rampTimeLimit => Sys2Proof.Machine.execRampTimeLimit s
  | .monitorGap => Sys2Proof.Machine.execMonitorGap s
  | .readbackMismatch which => Sys2Proof.Machine.execReadbackMismatch which s
  | .precheckStep hs ls dscFb => Sys2Proof.Machine.execPrecheckStep hs ls dscFb s
  | .resetPressRelease ms => Sys2Proof.Machine.execResetPressRelease ms s
  | .resetStuck => Sys2Proof.Machine.execResetStuck s
  | .resetStuckClear => Sys2Proof.Machine.execResetStuckClear s
  | .sckCheck cycles => Sys2Proof.Machine.execSckCheck cycles s
  | .vddSafeLow => Sys2Proof.Machine.execVddSafeLow s
  | .helmRequest bytes ip udp => Sys2Proof.Machine.execHelmRequest bytes ip udp s
  | .helmRead => Sys2Proof.Machine.execHelmRead s
  | .logRead => Sys2Proof.Machine.execLogRead s
  | .attest => Sys2Proof.Machine.execAttest s
  | .keys => Sys2Proof.Machine.execKeys s
  | .netGet => Sys2Proof.Machine.execNetGet s
  | .write ok => Sys2Proof.Machine.execWrite ok s
  | .chartChunk => Sys2Proof.Machine.execChartChunk s
  | .trimChunk => Sys2Proof.Machine.execTrimChunk s
  | .trimCommit ok => Sys2Proof.Machine.execTrimCommit ok s
  | .fwChunk => Sys2Proof.Machine.execFwChunk s
  | .fwCommit ok => Sys2Proof.Machine.execFwCommit ok s
  | .mark => Sys2Proof.Machine.execMark s
  | .enrol => Sys2Proof.Machine.execEnrol s
  | .revoke => Sys2Proof.Machine.execRevoke s
  | .subscribe => Sys2Proof.Machine.execSubscribe s
  | .net => Sys2Proof.Machine.execNet s
  | .rekey => Sys2Proof.Machine.execRekey s
  | .diag => Sys2Proof.Machine.execDiag s
  | .fuseRead => Sys2Proof.Machine.execFuseRead s
  | .roleEnd => Sys2Proof.Machine.execRoleEnd s
  | .subscriptionLapse num => Sys2Proof.Machine.execSubscriptionLapse num s
  | .eventOccurrence e d => Sys2Proof.Machine.execEventOccurrence e d s
  | .notificationSend num e => Sys2Proof.Machine.execNotificationSend num e s
  | .eventRecordWrite e => Sys2Proof.Machine.execEventRecordWrite e s
  | .logWrGo v => Sys2Proof.Machine.execLogWrGo v s
  | .logRdGo => Sys2Proof.Machine.execLogRdGo s
  | .logbookCommit ok => Sys2Proof.Machine.execLogbookCommit ok s
  | .nvmFailure written => Sys2Proof.Machine.execNvmFailure written s
  | .optimeTick => Sys2Proof.Machine.execOptimeTick s
  | .mgmtFrameReceived bytes sub => Sys2Proof.Machine.execMgmtFrameReceived bytes sub s
  | .mgmtFrameSend bytes tsReq tsId sub => Sys2Proof.Machine.execMgmtFrameSend bytes tsReq tsId sub s
  | .powerOnResetRelease bootSel stuckPol nvmOk => Sys2Proof.Machine.execPowerOnResetRelease bootSel stuckPol nvmOk s
  | .resetNAssert => Sys2Proof.Machine.execResetNAssert s
  | .resetNRelease bootSel nvmOk => Sys2Proof.Machine.execResetNRelease bootSel nvmOk s
  | .resetNFailed bootSel nvmOk => Sys2Proof.Machine.execResetNFailed bootSel nvmOk s
  | .resetNHonouredAgain => Sys2Proof.Machine.execResetNHonouredAgain s
  | .supplyOutOfRange rail => Sys2Proof.Machine.execSupplyOutOfRange rail s
  | .supplyBrownOut rail => Sys2Proof.Machine.execSupplyBrownOut rail s
  | .dieTempEvent temp => Sys2Proof.Machine.execDieTempEvent temp s
  | .tapLeaveReset => Sys2Proof.Machine.execTapLeaveReset s
  | .workerPorRelease w => Sys2Proof.Machine.execWorkerPorRelease w s
  | .workerRstN w => Sys2Proof.Machine.execWorkerRstN w s
  | .linkLossReset w => Sys2Proof.Machine.execLinkLossReset w s
  | .supplyReturn rail => Sys2Proof.Machine.execSupplyReturn rail s
  | .workerSupplyLoss w => Sys2Proof.Machine.execWorkerSupplyLoss w s
  | .mgmtLinkChange up => Sys2Proof.Machine.execMgmtLinkChange up s
  | .laneLinkUp p => Sys2Proof.Machine.execLaneLinkUp p s
  | .pfcPauseExpiry p prio => Sys2Proof.Machine.execPfcPauseExpiry p prio s
  | .stackRetrainEnd k ok => Sys2Proof.Machine.execStackRetrainEnd k ok s
  | .indexEntryRebuilt page => Sys2Proof.Machine.execIndexEntryRebuilt page s
  | .wordReloaded m a => Sys2Proof.Machine.execWordReloaded m a s
  | .testSequenceEnd port => Sys2Proof.Machine.execTestSequenceEnd port s

end Sys2Proof.Machine
end

