-- ==== Sys2Proof/Machine/Step.lean ====
section
/-!
DEFINITION. Machine/Step.lean: one step: the command at the front of the queue, or a tick of MCK when none waits.
-/
namespace Sys2Proof.Machine

/-- A step runs the command at the front of the queue. With none waiting one cycle of MCK passes (DESIGN CHOICE, log
entry 2): time, the slew, the block slots of the manager's ports and the busy pins advance (R38, R40, R245, R293). -/
def step (s : State) : Host.Outcome State Fault Refusal :=
  match s.pending with
  | [] => .next { s with chip := s.chip.mckTick }
  | c :: rest => exec c { s with pending := rest }

/-- The command a word spells is put at the front of the queue; a word that spells none changes nothing. -/
def State.withFetchWord (s : State) (nbits w : Nat) : State :=
  match decodeTableWord nbits w with
  | some c => { s with pending := c :: s.pending }
  | none => s

end Sys2Proof.Machine
end

