-- ==== Sys2Proof/Safety.lean ====
section
/-!
DEFINITION. Safety.lean: what claims call safe. The bias is a hazard: a switch output is high only in the states that
R444 gives it to, with no latched clock fault, and never with the discharge path commanded.
-/
namespace Sys2Proof

/-- No fault that a press of ILK_RST_N clears is latched (R451). -/
def Interlock.clear (i : Interlock) : Bool := !i.discFault && !i.fbFault && !i.dscFault

/-- Both switch commands are low and BIAS_RAMP_N is low. -/
def Interlock.dead (i : Interlock) : Bool := !i.enHs && !i.enLs && i.rampReq

/-- The switch commands of a precheck step (R450). -/
def stepEn (n : Nat) : Bool × Bool :=
  match n with
  | 2 => (true, false)
  | 4 => (false, true)
  | 6 => (true, true)
  | _ => (false, false)

/-- The outputs of the interlock are those that R444, R445 and R450 give its state; SCK_FAULT leaves no output high
(R452), and without VDD_SAFE the state is that of a power-up (R438). -/
def Interlock.Inv (i : Interlock) : Bool :=
  (match i.st with
    | .test => i.dead && !i.dsc
    | .locked => i.up && i.dead && !i.dsc
    | .safe => i.up && i.dead && (!i.dsc || (i.hasDsc && !i.sckFault))
    | .precheck => i.up && i.clear && !i.sckFault && !i.dsc && decide (1 ≤ i.step ∧ i.step ≤ 6) &&
        decide ((i.enHs, i.enLs) = stepEn i.step) && i.rampReq == decide (i.step < 6)
    | .on => i.up && i.clear && !i.sckFault && i.enHs && i.enLs && !i.rampReq && !i.dsc
    | .ramp => i.up && i.catB && !i.sckFault && i.enHs && i.enLs && i.rampReq && !i.dsc)

/-- The interlock after the removal of the bias at a tick (R445): both switches are commanded off, their readbacks are
watched, the discharge path follows a switch that reads open, and a removal that both readbacks confirm is complete. -/
def Interlock.gone (i : Interlock) (t : Nat) : Interlock :=
  let opened := !i.fbHs && !i.fbLs
  let fires := i.hasDsc && !i.dsc && !i.sckFault && (!i.fbHs || !i.fbLs)
  { i with
    st := .safe, enHs := false, enLs := false, rampReq := true, watchAt := some t, removed := opened, step := 0,
    dsc := i.dsc || fires, dscAt := if fires then some t else i.dscAt,
    remUs := if opened then min 65535 ((t - i.demandAt) / 640) else i.remUs }

/-- The condition of a complete removal, when both switches read open (R445, R456). -/
def Interlock.goneEv (i : Interlock) : List Nat := if i.fbHs = false ∧ i.fbLs = false then [1] else []

/-! ## How claims say what changed -/

/-- What writes of fields, in this order, make of the register word at an address. -/
def putAll (l : List (Fld × Nat)) (b : Nat) (v : Word) : Word := l.foldl (fun v p => if p.1.reg = b then p.1.put v p.2 else v) v

/-- A counter field that saturates, after `k` more (R9). -/
def satTo (f : Fld) (n k : Nat) : Nat := min f.top (n + k)

/-- The registers of a worker differ by these writes of fields and nothing else. -/
def Worker.puts (x y : Worker) (l : List (Fld × Nat)) : Prop := ∀ b, y.word b = putAll l b (x.word b)

/-- The registers of the manager differ by these writes of fields and nothing else. -/
def Chip.puts (c d : Chip) (l : List (Fld × Nat)) : Prop := ∀ b, d.word b = putAll l b (c.word b)

/-- Registers that a choice of addresses leaves out are the same. -/
def Chip.regsBut (c d : Chip) (f : Nat → Bool) : Prop := ∀ b, f b = false → d.word b = c.word b

/-- A register that an event or a Logbook record may change: the event unit's, and LOG_STAT (R479, R485, R488, R489). -/
def evtReg (b : Nat) : Bool := b / 2 ^ 24 == 0x49 || b == 0x48000000

/-- What the loop controller and the command engines may change: their own state, ports, the registers of port windows,
and events and records. -/
def Chip.loopFrame (c d : Chip) : Prop :=
  d = { c with
    regs := d.regs, hot := d.hot, ports := d.ports, eng := d.eng, pairs := d.pairs, slots := d.slots, evt := d.evt, log := d.log, freeIx := d.freeIx } ∧
  c.regsBut d (fun b => (windowOf b).isSome || evtReg b)

/-- What Meridian's own operations may change: Meridian, its registers, events and records. -/
def Chip.merFrame (c d : Chip) : Prop :=
  d = { c with regs := d.regs, hot := d.hot, mer := d.mer, evt := d.evt, log := d.log, freeIx := d.freeIx } ∧
  c.regsBut d (fun b => b / 2 ^ 24 == 0x44 || evtReg b)

/-- The PEND bit of an event (R479). -/
def Chip.pend (c : Chip) (e : Nat) : Bool := c.b (evtFld F.EVT_ROUTE_PEND e)

/-- What the last access of the register bridge leaves when a write is performed (R9). -/
def BusRes.done : BusRes := ⟨0, false, false⟩

/-- A block waits at a port in service for its slot; one out of service takes none (R183, log entry 120). -/
def Chip.queues (c d : Chip) (p : Nat) (b : Block) : Prop :=
  (d.port p).tx.queue = (c.port p).tx.queue ++ (if c.up p then [b] else [])

/-- A port's engine with room sends a command with the next SEQ, due in REPLY_TO (R213). -/
def Chip.sends (c d : Chip) (p : Nat) (o : CmdOut) : Prop :=
  (c.engine p).room o.pos = true →
    let o1 := { o with seq := (c.slot (c.seqKey p o)).seq, tries := 1, due := c.tick + c.replyTo p }
    (d.engine p).out = (c.engine p).out ++ [o1] ∧ c.queues d p o1.block

/-- A probe with the slot's next tag is outstanding and waits at its port (R263). -/
def Chip.probes (c d : Chip) (slot : Nat) (odd turning live : Bool) (tries : Nat) : Prop :=
  let p := 2 * (slot / 16) + odd.toNat
  let tag := ((c.slot slot).tag + 1) % 65536
  (d.slot slot).tag = tag ∧ (d.slot slot).lastProbe = c.tick ∧
    (d.slot slot).probe = some ⟨tag, odd, none, c.tick + c.replyTo p, tries, turning, live⟩ ∧
    c.queues d p (mkProbe (c.posOf slot) tag)

/-- The link registers of a port differ by these writes of fields and nothing else. -/
def Port.puts (p q : Port) (wk : Bool) (l : List (Fld × Nat)) : Prop := ∀ b, q.word wk b = putAll l b (p.word wk b)

/-- One pixel comes out as `q`, and every other is the same. -/
def Worker.pixelIs (x y : Worker) (a : Nat) (q : Pixel) : Prop := ∀ b, y.px b = if b = a then q else x.px b

/-- One tile comes out as `q`, and every other is the same. -/
def Worker.tileIs (x y : Worker) (t : Nat) (q : Tile) : Prop := ∀ u, y.tile u = if u = t then q else x.tile u

/-- A flag that hardware sets makes a monitor report pending: it rises, and WK_FLAG_EN enables it (R163). -/
def Worker.reports (x : Worker) (f : Fld) : Bool := !x.b f && bitOf (x.g F.WK_FLAG_EN_FLAG_EN) f.lo

/-- CAL_VALID of a tile (R111). -/
def Worker.calValid (x : Worker) (u : Nat) : Bool :=
  if u < 32 then bitOf (x.g F.TC_VALID_LO_CAL_VALID) u else bitOf (x.g F.TC_VALID_HI_CAL_VALID) (u - 32)

/-- The pixel once it rests (R66, R67, R69, R87): an idle one takes the configuration word `v` into its latch and goes to
the fixed range, or to RANGE_FLOOR from below it, which settles for 16 cycles. -/
def Pixel.rested (q : Pixel) (v : Word) (n : Nat) : Pixel :=
  let r := if cfgAuto v then max q.range (cfgFloor v) else cfgStart v
  if q.low ∨ q.pulse.isSome then q
  else if r = q.range then { q with latch := v }
  else { q with latch := v, range := r, down := 0, relaxFrom := n, relaxWait := false, settleEnd := some (n + 16) }

/-- A signal reaches a threshold at phase step `p` of cycle `n`, in a tile that collects `pol` (R59, R70, R71, R73, R77,
R78, R88). -/
def Pixel.lifts (q : Pixel) (pol : Bool) (n p : Nat) (thr : Int) (g : Signal) : Bool :=
  match g with
  | .crossing => true
  | .charge m hole => hole == pol && decide (thr ≤ m)
  | .injected => q.inj.any (fun d => !(decide (d.when = n ∧ p < d.ph)) && !(d.ramp && decide (d.when + 1280 < n)) && decide (thr ≤ d.hi))

/-- The least charge that a signal can be (R65, R88). -/
def Pixel.least (q : Pixel) (g : Signal) : Nat :=
  match g with
  | .crossing => 0
  | .charge m _ => m
  | .injected => (q.inj.map (·.lo)).getD 0

/-- The phase steps since the rise of a pulse's low discriminator (R103). -/
def Pulse.since (pu : Pulse) (c p : Nat) : Nat := (16 * c + p + 2 ^ 52 - (16 * pu.c + pu.p)) % 2 ^ 52

/-- No tile changes. -/
def Worker.tileSame (x y : Worker) : Prop := ∀ u, y.tile u = x.tile u

/-- No record: tiles, uplink and marks are the same, and registers but for the writes `l`. -/
def Worker.tookNone (x y : Worker) (l : List (Fld × Nat)) : Prop := x.tileSame y ∧ x.puts y l ∧ y.out = x.out ∧ y.marks = x.marks ∧ y.hot = x.hot

/-- A record enters tile `t` at time `n` (R135, R137, R138, R145): the FIFO while streaming, the ring in marked mode, or
nothing when the FIFO stays full after the arbiter's move of the cycle. `l` lists what else is written. -/
def Worker.took (x y : Worker) (n t : Nat) (r : Hit) (l : List (Fld × Nat)) : Prop :=
  let z := x.moveFirst t n
  let len := (z.tile t).fifo.length
  let hwm := F.TILE_STAT_FIFO_HWM.ix 4 t
  let ovf := F.TILE_STAT_OVF_CNT.ix 4 t
  let top := fun (k : Worker) => (hwm, max (k.g hwm) (len + 1))
  if 256 ≤ len then
    z.tileSame y ∧ y.marks = z.marks ∧ y.out = { z.out with monitor := z.out.monitor || z.reports F.WK_FLAGS_FIFO_OVF } ∧
    z.puts y ([(ovf, satTo ovf (z.g ovf) 1), (F.WK_DROP_FIFO_LOST, satTo F.WK_DROP_FIFO_LOST (z.g F.WK_DROP_FIFO_LOST) 1),
      (F.WK_FLAGS_FIFO_OVF, 1)] ++ l)
  else if z.marked = false then
    z.tileIs y t { z.tile t with fifo := (z.tile t).fifo ++ [⟨r, n⟩] } ∧ z.puts y (top z :: l) ∧ y.out = z.out ∧ y.marks = z.marks
  else
    let k := z.copyFirst t n
    let q := k.tile t
    let ent : RingEnt := ⟨r, false, n, q.nextIx⟩
    (q.ring.length < 1024 →
      k.tileIs y t { q with ring := q.ring ++ [ent], nextIx := q.nextIx + 1 } ∧ k.puts y (top k :: l) ∧ y.out = k.out ∧ y.marks = k.marks) ∧
    ∀ (e : RingEnt) (rest : List RingEnt), 1024 ≤ q.ring.length → q.ring = e :: rest →
      let early : Bool := decide (n < e.t0 + 32768)
      k.tileIs y t { q with ring := rest ++ [ent], nextIx := q.nextIx + 1, ovwT := some (match q.ovwT with
        | some o => later48 o e.hit.cnt
        | none => e.hit.cnt) } ∧
      k.puts y (top k :: (if early then [(F.WK_FLAGS_RING_OVW, 1), (ovf, satTo ovf (k.g ovf) 1)] else []) ++ l) ∧
      y.out = { k.out with monitor := k.out.monitor || (early && k.reports F.WK_FLAGS_RING_OVW) } ∧
      y.marks = { k.marks with serving := k.marks.serving.map (fun sv =>
        if sv.toCopy.contains (t, e.ix) then { sv with partialTiles := sv.partialTiles ||| (1 <<< t) } else sv) }

/-- The state of the code-density unit as a round starts at tile 0 (R112). -/
def WCal.round (c : WCal) : WCal := { c with hits := 0, hist := [], px := 0, turn := 1, inTurn := true, fgDone := false }

/-- What the code-density unit does as it leaves its tile (R112, R127): the fields of TC_STAT it writes, and its own state.
It goes on to a tile with an uncorrectable word, or to the next in turn; when tile 63 has had its turn the round counts, and
a foreground pass ends. -/
def Worker.nextPass (x : Worker) : List (Fld × Nat) × WCal :=
  let last := x.cal.inTurn ∧ x.g F.TC_STAT_CAL_TILE = 63
  let passes := if last then [(F.TC_STAT_CAL_PASSES, x.g F.TC_STAT_CAL_PASSES + 1)] else []
  if last ∧ x.b F.TC_STAT_FG_BUSY then (passes ++ [(F.TC_STAT_CAL_BUSY, 0)], { x.cal with fgDone := true })
  else match x.cal.urgent with
    | u :: rest => (passes ++ [(F.TC_STAT_CAL_TILE, u)], { x.cal with urgent := rest, inTurn := false, hits := 0, hist := [], px := 0 })
    | [] =>
      let t := x.cal.turn % 64
      (passes ++ [(F.TC_STAT_CAL_TILE, t)], { x.cal with turn := t + 1, inTurn := true, hits := 0, hist := [], px := 0 })

/-- A finding tells of an uncorrectable word. -/
def Finding.ue (f : Finding) : Bool :=
  match f with
  | .uncorrectable _ => true
  | _ => false

/-- The bits a finding has flipped in the stored word. -/
def Finding.flips (f : Finding) : Nat :=
  match f with
  | .uncorrectable v => v.toNat
  | _ => 0

/-- What the check of bin word `b` of bank `bank` of tile `t` and that of offset word `a` leave (R126, R127, R129): corrected
words count in CE_CNT, uncorrectable ones in UE_CNT with TBL_UE and TC_MEM, keep the stored bits and are marked bad; a bad
bin word of the active bank clears CAL_VALID of its tile, which is calibrated next and without the CAL_DMAX check. `l` lists
what else is written. -/
def Worker.checked (x y : Worker) (bank : Bool) (t b : Nat) (f : Finding) (a : Nat) (g : Finding) (l : List (Fld × Nat)) : Prop :=
  let ce := [f, g].count .corrected
  let ue := f.ue.toNat + g.ue.toNat
  let inUse := f.ue && (x.tile t).bank == bank
  let k := binKey bank t b
  let tab : WTables := { x.tab with
    bins := if f.ue then AMap.set binDefault x.tab.bins k (lowBits 12 (Nat.xor (AMap.get binDefault x.tab.bins k) (lowBits 12 f.flips))) else x.tab.bins,
    badBins := if f.ue then AMap.set (always false) x.tab.badBins k true else x.tab.badBins,
    ofs := if g.ue then AMap.set (always 0) x.tab.ofs a (lowBits 14 (Nat.xor (AMap.get (always 0) x.tab.ofs a) (lowBits 14 g.flips))) else x.tab.ofs,
    badOfs := if g.ue then AMap.set (always false) x.tab.badOfs a true else x.tab.badOfs }
  y.tab = tab ∧ y.out = { x.out with monitor := x.out.monitor || (decide (ue ≠ 0) && x.reports F.WK_FLAGS_TC_MEM) } ∧
  y.cal = { x.cal with urgent := if inUse && !x.cal.urgent.contains t then x.cal.urgent ++ [t] else x.cal.urgent } ∧
  x.tileIs y t { x.tile t with noDmax := (x.tile t).noDmax || inUse } ∧
  (∀ u, u < 64 → y.calValid u = (x.calValid u && !(inUse && u == t))) ∧
  ∀ r, r ≠ 0x20D → r ≠ 0x20E → y.word r = putAll ([(F.TC_ECC_CE_CNT, satTo F.TC_ECC_CE_CNT (x.g F.TC_ECC_CE_CNT) ce),
    (F.TC_ECC_UE_CNT, satTo F.TC_ECC_UE_CNT (x.g F.TC_ECC_UE_CNT) ue)] ++
    (if ue = 0 then [] else [(F.TC_STAT_TBL_UE, 1), (F.WK_FLAGS_TC_MEM, 1)]) ++ l) r (x.word r)

/-- The commands of the bias interlock: its inputs, its supply and its clock, and the values of the bias-slope channel. -/
def ofInterlock (i : Instr) : Bool :=
  match i with
  | .vddSafeUp _ _ | .interlockSelfTestEnd _ _ _ | .channelOpen _ _ | .channelClosed _ _ | .discrepancyTimeout | .switchReadsOpen _ _
  | .removalWatchEnd _ | .slopeValue _ | .rampTimeLimit | .monitorGap | .readbackMismatch _ | .precheckStep _ _ _ | .resetPressRelease _
  | .resetStuck | .resetStuckClear | .sckCheck _ | .vddSafeLow => true
  | .supplyBrownOut rail => rail == 10
  | _ => false

/-- The commands of supplies, of resets, of the die and of the operating time (R484), which act whether or not the manager
is held in reset. -/
def ofPower (i : Instr) : Bool :=
  match i with
  | .powerOnResetRelease _ _ _ | .resetNAssert | .resetNRelease _ _ | .resetNFailed _ _ | .resetNHonouredAgain | .supplyOutOfRange _
  | .supplyBrownOut _ | .dieTempEvent _ | .tapLeaveReset | .workerPorRelease _ | .workerRstN _ | .linkLossReset _ | .supplyReturn _
  | .workerSupplyLoss _ | .optimeTick => true
  | _ => false

/-- The read or write addresses a place inside a block that holds no register, and no window onto tables or groups. -/
def noRegister (a : Nat) : Bool :=
  inBlocks a && (windowOf a).isNone && (mgrSpecAt a).isNone && !(decide (0x41000100 ≤ a) && decide (a < 0x41000500))

/-- What an uncorrectable read of a word leaves (R388): it is counted, reported as event 177, and poisoned (R387). -/
def Chip.ueAt (c d : Chip) (m a : Nat) : Prop :=
  let f := memFld F.INT_MEM1_UE_CNT m
  d.g f = satTo f (c.g f) 1 ∧ d.g F.INT_STAT_UE = 1 ∧ d.pend 177 = true ∧
    d.eccAt m a = { c.eccAt m a with k := Nat.xor (eccCheck m (c.eccAt m a).d) (poisonMask m) }

/-- The blocks waiting at a manager's port are gone once it is out of service (R183; log entry 120). -/
def Port.emptied (q : Port) : Prop := q.segUp false = false → q.tx.queue = [] ∧ q.tx.pass = []

/-- A port with the blocks waiting at it as they were before. -/
def Port.withQueues (q p : Port) : Port := { q with tx := { q.tx with queue := p.tx.queue, pass := p.tx.pass } }

namespace Machine

/-- The worker of a slot has supply and is out of reset (R499). -/
def State.alive (s : State) (w : Nat) : Prop := (s.chip.worker w).ctl.powered = true ∧ (s.chip.worker w).ctl.inReset = false

/-- Two states differ in the worker of slot `w` at most. -/
def State.onlyWorker (s t : State) (w : Nat) : Prop :=
  t.saf = s.saf ∧ t.pending = s.pending ∧ t.chip = { s.chip with workers := t.chip.workers } ∧
    ∀ k, k ≠ w → t.chip.worker k = s.chip.worker k

/-- A command is answered by a next state that differs in the worker of slot `w` at most, which comes out as `P` says. -/
def State.workerDoes (s : State) (c : Instr) (w : Nat) (P : Worker → Prop) : Prop :=
  ∃ t, exec c s = .next t ∧ s.onlyWorker t w ∧ P (t.chip.worker w)

/-- Two states differ in the manager and its workers at most: the interlock and the queue are the same. -/
def State.onlyChip (s t : State) : Prop := t.saf = s.saf ∧ t.pending = s.pending

/-- A command is answered by a next state with the interlock and the queue as they were, and the chip as `P` says. -/
def State.managerDoes (s : State) (c : Instr) (P : Chip → Prop) : Prop := ∃ t, exec c s = .next t ∧ s.onlyChip t ∧ P t.chip

/-- A command is answered by a next state with the interlock as `j`, and the manager, from `base` on, with the events of
the conditions raised while it runs (R456); a demand leaves the Meridian time (R454). -/
def State.interlockDoes (s : State) (c : Instr) (base : Chip) (l : List Nat) (j : Interlock) : Prop :=
  exec c s = .next { s with
    saf := if base.live = true ∧ 0 ∈ l then { j with demSec := secOf base.sub % 4294967296, demNs := nsOf base.sub } else j
    chip := if base.live = true then l.foldl (fun d n => d.event (224 + n) 0) base else base }

/-- The port a reference names. -/
def State.thePort (s : State) (r : PortRef) : Port :=
  match r with
  | .mgr p => s.chip.port p
  | .worker k west => (s.chip.worker k).port west

/-- The reference names a worker's port. -/
def ofWorker (r : PortRef) : Bool :=
  match r with
  | .mgr _ => false
  | .worker _ _ => true

/-- The port's chip runs: the manager out of reset, or the worker with supply and out of reset. -/
def State.portLive (s : State) (r : PortRef) : Prop :=
  match r with
  | .mgr _ => s.chip.live = true
  | .worker k _ => s.alive k

/-- A command is answered by a next state that differs in one port, which comes out as `P` says, and in what that port's
change reports: events of the manager (R479), or the link flag of the worker (R185) and the times of first lock (R209). A
manager's port keeps its waiting blocks while it is in service. -/
def State.portDoes (s : State) (c : Instr) (r : PortRef) (P : Port → Prop) : Prop :=
  match r with
  | .mgr p => s.managerDoes c fun d =>
      d = { (portEvents false (s.chip.port p) (d.port p)).foldl (Chip.portEvent p) s.chip with ports := d.ports } ∧
      (∀ q, q ≠ p → d.port q = s.chip.port q) ∧ (d.port p).emptied ∧
      P (if (d.port p).segUp false = true then d.port p else (d.port p).withQueues (s.chip.port p))
  | .worker k west => s.workerDoes c k fun y =>
      let x := s.chip.worker k
      y = { x.linkFlags west (portEvents true (x.port west) (y.port west)) with
        east := y.east, west := y.west,
        ctl := { x.ctl with lockEast := firstLock x.ctl.lockEast y.east s.chip.tick, lockWest := firstLock x.ctl.lockWest y.west s.chip.tick } } ∧
      y.port (!west) = x.port (!west) ∧ P (y.port west)

/-- The interlock is as its state says, and every condition it raised has crossed into HCK (R41, R456). -/
def State.Inv (s : State) : Prop := s.saf.Inv = true ∧ s.saf.raised = []

end Machine
end Sys2Proof
end

