-- ==== Sys2Proof/Certificates/Slice0/Obligations.lean ====
section
/-!
DEFINITION. Certificates/Slice0/Obligations.lean: the statements for the provers. `workerDoes`, `managerDoes` and
`interlockDoes` say that a command is answered by a next state, and what that state is; `puts` says which register words
change, and how.
-/
open Sys2Proof Sys2Proof.Machine

/-- A rise of the low discriminator starts a pulse or is ignored; validation captures its time once and the window count
sights. Cites: 02_worker_pixel_front_end; 03_worker_time_capture; 04_worker_readout_and_sightings. -/
def Obligations.HitAndValidation : Prop :=
  (
    ∀ (s : State) (w a p v : Nat) (g : Signal), s.alive w →
      let x := s.chip.worker w
      let n := s.chip.tick
      let q := x.px a
      let t := tileOf a
      let made := g = Signal.injected ∧ q.inj.any (·.spent) = true
      let takes := x.forcedLow a = false ∧ q.low = false ∧ q.lifts (x.tile t).polNow n p (x.lowThr n a q.range) g = true ∧ ¬ made
      let inj := if g = Signal.injected then q.inj.map (fun d => { d with spent := true }) else q.inj
      let q1 := { q with low := true, relaxFrom := n, inj := inj }
      let b := 50 * p + v
      (takes → q.pulse = none → q.settleEnd = none → x.accepts t = true → s.workerDoes (.leadingEdge w a p v g) w fun y =>
        y = { x with pixels := y.pixels } ∧
        x.pixelIs y a { q1 with pulse := some {
          c := x.coarse n, p := p, v := v, centre := if x.b F.TC_CTL_BIN_EN then x.centre t b else 4 * b + 2,
          range := q.range, dt := none, ovr := surelyOver q.range (q.least g), sat := false, formed := false,
          silent := !(x.running && x.b F.TC_STAT_INIT_DONE), pulser := false } }) ∧
      (takes → q.pulse ≠ none → s.workerDoes (.leadingEdge w a p v g) w fun y =>
        y = { x with pixels := y.pixels, regs := y.regs } ∧ x.pixelIs y a q1 ∧
        x.puts y [(F.TC_LOST_LOST, x.g F.TC_LOST_LOST + 1)]) ∧
      (takes → q.pulse = none → (q.settleEnd ≠ none ∨ x.accepts t = false) → s.workerDoes (.leadingEdge w a p v g) w fun y =>
        y = { x with pixels := y.pixels } ∧ x.pixelIs y a { q1 with unarmed := true }) ∧
      (¬ takes → s.workerDoes (.leadingEdge w a p v g) w fun y => y = x) ∧
      ((x.tile t).thrWas = [] →
        let lo := F.TILE_THR_THR_LO.of (x.word (0x300 + 4 * t))
        let hi := max (F.TILE_THR_THR_HI.of (x.word (0x300 + 4 * t))) (lo + 8)
        let unit : Int := (rangeFull q.range / 4096 : Nat)
        x.lowThr n a q.range = (4 * lo + F.PIX_TRIM_LO.of q.latch - 32) * unit ∧
        x.highThr n a q.range = (4 * hi + F.PIX_TRIM_HI.of q.latch - 32) * unit)) ∧
  (
    ∀ (s : State) (w a t p : Nat) (g : Signal) (pu : Pulse), s.alive w →
      let x := s.chip.worker w
      let n := s.chip.tick
      let q := x.px a
      let counted := fun (z y : Worker) (u : Nat) =>
        let sw := z.g (F.TILE_SGT_SW.ix 4 u)
        let ev := (z.tile u).events
        let before := (ev.filter (fun e => decide (e < n ∧ n ≤ e + sw + 1))).length
        let now := (ev.filter (fun e => decide (e ≤ n ∧ n ≤ e + sw))).length + 1
        let cnt := F.TILE_STAT_SGT_CNT.ix 4 u
        z.tileIs y u { z.tile u with events := z.windowEvents u n ++ [n] } ∧
        if before < z.g (F.TILE_SGT_ST.ix 4 u) ∧ z.g (F.TILE_SGT_ST.ix 4 u) = now ∧ z.b F.WK_GCTL_SGT_EN = true ∧ z.running = true then
          z.puts y [(cnt, z.g cnt + 1)] ∧ y.out = { z.out with sights := z.out.sights ++ [⟨u, n, lowBits 40 (z.coarse n)⟩] }
        else z.puts y [] ∧ y.out = z.out
      let lifts := q.lifts (x.tile (tileOf a)).polNow n p (x.highThr n a pu.range) g
      let pu1 := { pu with dt := some (min 255 (pu.since (x.coarse n) p)), ovr := pu.ovr || surelyOver pu.range (q.least g) }
      (q.inPulse = some pu → pu.dt = none → lifts = true → pu.sat = false → s.workerDoes (.validationEvent w a p g) w fun y =>
        y = { x with pixels := y.pixels, tiles := y.tiles, regs := y.regs, out := y.out } ∧
        x.pixelIs y a { q with pulse := some pu1 } ∧ counted x y (tileOf a)) ∧
      (q.inPulse = some pu → pu.dt = none → lifts = true → pu.sat = true → s.workerDoes (.validationEvent w a p g) w fun y =>
        let z := x.pulseRecord n a 4095 q.latch pu1
        y = { z with pixels := y.pixels, tiles := y.tiles, regs := y.regs, out := y.out } ∧
        x.pixelIs y a { q with pulse := some { pu1 with formed := pu.formed || !pu.silent } } ∧ counted z y (tileOf a)) ∧
      (q.inPulse = some pu → (pu.dt ≠ none ∨ lifts = false) → s.workerDoes (.validationEvent w a p g) w fun y => y = x) ∧
      (q.inPulse = none → s.workerDoes (.validationEvent w a p g) w fun y => y = x) ∧
      (s.workerDoes (.sightingWindowExpiry w t) w fun y =>
        y = { x with tiles := y.tiles } ∧ x.tileIs y t { x.tile t with events := x.windowEvents t n }))

/-- The end of a validated pulse forms its record, which enters the tile FIFO or ring or is counted as lost. Cites:
03_worker_time_capture; 04_worker_readout_and_sightings. -/
def Obligations.RecordFormed : Prop :=
  ∀ (s : State) (w a p : Nat) (ovr : Bool) (pu : Pulse), s.alive w →
    let x := s.chip.worker w
    let n := s.chip.tick
    let q := x.px a
    let tot := min 4095 (pu.since (x.coarse n) p)
    let pu1 := { pu with ovr := pu.ovr || ovr }
    let now := pu.formed || (pu.dt.isSome && !pu.silent)
    let yields := fun (tot : Nat) (y : Worker) =>
      match pu.dt with
      | none => x.tookNone y []
      | some dt =>
        if pu.formed = true ∨ pu.silent = true ∨ x.b F.WK_GSTAT_FWD_ONLY = true then x.tookNone y []
        else if AMap.get (always false) x.tab.badOfs a = true then
          x.tileSame y ∧ x.puts y [(F.TC_ECC_DROP_CNT, satTo F.TC_ECC_DROP_CNT (x.g F.TC_ECC_DROP_CNT) 1)] ∧ y.out = x.out ∧ y.marks = x.marks
        else
          let o := if x.b F.TC_CTL_OFS_EN then x.offset a else 0
          let k := if x.b F.TC_CTL_WALK_EN then x.walk4 pu.range tot dt else 0
          let time := correctedTime pu.c pu.centre o k
          x.took y n (tileOf a) (mkHit (pulseType q.latch pu1.ovr) a time tot pu.range) []
    (q.inPulse = some pu → s.workerDoes (.lowDiscFall w a p ovr) w fun y =>
      y = { x with pixels := y.pixels, tiles := y.tiles, regs := y.regs, out := y.out, marks := y.marks, hot := y.hot } ∧
      x.pixelIs y a { q with
        low := false, deadEnd := some (n + 16), pulse := some { pu1 with formed := now },
        down := if pu1.ovr then 0 else if pu.dt = none then q.down else if tot < 160 then q.down + 1 else 0 } ∧
      yields tot y) ∧
    (q.inPulse = some pu → 4095 ≤ pu.since (x.coarse n) 15 → pu.sat = false → s.workerDoes (.totSaturate w a ovr) w fun y =>
      y = { x with pixels := y.pixels, tiles := y.tiles, regs := y.regs, out := y.out, marks := y.marks, hot := y.hot } ∧
      x.pixelIs y a { q with pulse := some { pu1 with sat := true, formed := now } } ∧ yields 4095 y) ∧
    (q.inPulse = some pu → (pu.since (x.coarse n) 15 < 4095 ∨ pu.sat = true) → s.workerDoes (.totSaturate w a ovr) w fun y => y = x) ∧
    (q.inPulse = none → s.workerDoes (.totSaturate w a ovr) w fun y => y = x) ∧
    (q.inPulse = none → q.low = true → s.workerDoes (.lowDiscFall w a p ovr) w fun y =>
      y = { x with pixels := y.pixels } ∧ x.pixelIs y a (({ q with low := false, unarmed := false } : Pixel).rested (x.cfg a) n)) ∧
    (q.inPulse = none → q.low = false → s.workerDoes (.lowDiscFall w a p ovr) w fun y => y = x)

/-- At the end of a dead time, and when RELAX expires, a pixel makes at most one range step, by the order of R69. Cites:
02_worker_pixel_front_end; 03_worker_time_capture. -/
def Obligations.RangeSteps : Prop :=
  ∀ (s : State) (w a d : Nat) (pu : Pulse), s.alive w →
    let x := s.chip.worker w
    let n := s.chip.tick
    let q := x.px a
    let v := x.cfg a
    let r := if cfgAuto v = false then cfgStart v
      else if pu.ovr = true ∧ q.range < 2 then q.range + 1
      else if q.range < cfgFloor v then cfgFloor v
      else if cfgFloor v < q.range ∧ (x.downN (tileOf a) ≤ q.down ∨ q.relaxWait = true) then q.range - 1
      else q.range
    let relaxes := cfgAuto q.latch = true ∧ cfgFloor q.latch < q.range ∧ q.relaxFrom + x.relax (tileOf a) ≤ n
    (q.pulse = some pu → q.deadEnd = some d → d ≤ n → s.workerDoes (.deadTimeEnd w a) w fun y =>
      let high := q.low && !cfgMasked v
      y = { x with pixels := y.pixels } ∧
      x.pixelIs y a (({ q with
        pulse := none, deadEnd := none, latch := v, range := r, relaxWait := false,
        down := if r = q.range then q.down else 0, relaxFrom := if r = q.range then q.relaxFrom else n,
        low := high, unarmed := high } : Pixel).rested v n)) ∧
    ((q.pulse = none ∨ q.deadEnd = none ∨ q.deadEnd = some d ∧ n < d) → s.workerDoes (.deadTimeEnd w a) w fun y => y = x) ∧
    (relaxes → q.low = false → s.workerDoes (.relaxExpiry w a) w fun y =>
      y = { x with pixels := y.pixels } ∧
      x.pixelIs y a { q with range := q.range - 1, down := 0, relaxFrom := n, relaxWait := false, settleEnd := some (n + 16) }) ∧
    (relaxes → q.low = true → s.workerDoes (.relaxExpiry w a) w fun y =>
      y = { x with pixels := y.pixels } ∧ x.pixelIs y a { q with relaxWait := true }) ∧
    (¬ relaxes → s.workerDoes (.relaxExpiry w a) w fun y => y = x) ∧
    (q.settleEnd = some d → d ≤ n → s.workerDoes (.rangeSettleEnd w a) w fun y =>
      y = { x with pixels := y.pixels } ∧ x.pixelIs y a { q with settleEnd := none }) ∧
    ((q.settleEnd = none ∨ q.settleEnd = some d ∧ n < d) → s.workerDoes (.rangeSettleEnd w a) w fun y => y = x)

/-- Leakage saturation loses the pulse in progress; a strobe, or a fall of CAL_IN, puts test charge on the pixels with
INJ_EN. Cites: 02_worker_pixel_front_end; 03_worker_time_capture. -/
def Obligations.LeakageAndInjection : Prop :=
  ∀ (s : State) (w a p amp : Nat) (ovr : Bool) (pu : Pulse) (v : Word) (ph pl k : Nat), s.alive w →
    let x := s.chip.worker w
    let n := s.chip.tick
    let q := x.px a
    let pu1 := { pu with ovr := pu.ovr || ovr, silent := true }
    let tot := min 4095 (pu.since (x.coarse n) p)
    let q1 := { q with leakSat := true, low := false, unarmed := false }
    let v1 := F.TC_INJ_INJ_GO.put v 1
    let num := F.TC_INJ_INJ_NUM.of v1
    let left := x.g F.TC_INJ_LEFT_LEFT - 1
    let cap := fun (afe : Word) => match F.TILE_AFE_INJ_CAP.of afe with
      | 0 => 16
      | 1 => 160
      | 2 => 1600
      | _ => 0
    let injected := fun (y : Worker) (src ph : Nat) (ramp : Bool) (uv16 : Word → Nat) => ∀ b, y.px b =
      (let t := tileOf b
       let now := x.word (0x301 + 4 * t)
       let charge := fun (afe : Word) => if F.TILE_AFE_INJ_SRC.of afe = src then cap afe * uv16 afe / 16 else 0
       let cs := (now :: ((x.tile t).afeWas.filter (fun e => decide (n < e.2 + 640))).map (·.1)).map charge
       if F.PIX_INJ_EN.of (x.px b).latch = 0 ∨ cs.foldl max 0 = 0 then x.px b
       else { x.px b with inj := some ⟨cs.foldl min (charge now), cs.foldl max 0, n, ph, ramp, false⟩ })
    (q.inPulse = some pu → s.workerDoes (.leakSaturate w a p ovr) w fun y =>
      y = { x with pixels := y.pixels, regs := y.regs } ∧
      x.pixelIs y a { q1 with
        deadEnd := some (n + 16), pulse := some pu1,
        down := if pu1.ovr then 0 else if pu.dt = none then q.down else if tot < 160 then q.down + 1 else 0 } ∧
      x.puts y (if pu.formed then [] else [(F.TC_LOST_LOST, x.g F.TC_LOST_LOST + 1)])) ∧
    (q.inPulse = none → s.workerDoes (.leakSaturate w a p ovr) w fun y =>
      y = { x with pixels := y.pixels } ∧ x.pixelIs y a (q1.rested (x.cfg a) n)) ∧
    (s.workerDoes (.leakRecover w a) w fun y => y = { x with pixels := y.pixels } ∧ x.pixelIs y a { q with leakSat := false }) ∧
    (x.ctl.calIn = true → s.workerDoes (.calInEdge w false amp) w fun y =>
      y = { x with ctl := { x.ctl with calIn := false }, pixels := y.pixels } ∧ injected y 1 0 false (fun _ => 16 * amp)) ∧
    (x.ctl.calIn = false → s.workerDoes (.calInEdge w true amp) w fun y =>
      y = { x with ctl := { x.ctl with calIn := true }, pixels := y.pixels } ∧
      ∀ b, y.px b = if F.TILE_AFE_INJ_SRC.of (x.word (0x301 + 4 * tileOf b)) = 0 then x.px b
        else { x.px b with inj := (x.px b).inj.filter (·.ramp) }) ∧
    (s.workerDoes (.calInEdge w x.ctl.calIn amp) w fun y => y = x) ∧
    (s.workerDoes (.injectionBurst w v) w fun y =>
      y = { x with regs := y.regs, cal := { x.cal with
        burst := some (F.TC_INJ_INJ_PH.of v1, min 9 (F.TC_INJ_INJ_PLOG.of v1), num), strobeAt := some n } } ∧
      y.word 0x205 = v1 &&& 0x8FF0FFFF ∧ y.word 0x206 = F.TC_INJ_LEFT_LEFT.put (x.word 0x206) (if num = 0 then 0xFFFF else num) ∧
      ∀ b, b ≠ 0x205 → b ≠ 0x206 → y.word b = x.word b) ∧
    (x.cal.burst = some (ph, pl, k) → x.coarse n % 2 ^ (11 + pl) = 0 → x.cal.strobeAt ≠ some n → s.workerDoes (.injectionStrobe w) w fun y =>
      let ends := k ≠ 0 ∧ left = 0
      y = { x with regs := y.regs, pixels := y.pixels, cal := { x.cal with strobeAt := some n, burst := if ends then none else some (ph, pl, k) } } ∧
      injected y 0 ph true (fun afe => F.TILE_AFE_CAL_DAC.of afe * 3125) ∧
      x.puts y (if k = 0 then [] else if ends then [(F.TC_INJ_LEFT_LEFT, left), (F.TC_INJ_INJ_GO, 0)] else [(F.TC_INJ_LEFT_LEFT, left)])) ∧
    (x.cal.burst = some (ph, pl, k) → (x.coarse n % 2 ^ (11 + pl) ≠ 0 ∨ x.cal.strobeAt = some n) → s.workerDoes (.injectionStrobe w) w fun y => y = x) ∧
    (x.cal.burst = none → s.workerDoes (.injectionStrobe w) w fun y => y = x)

/-- PG powers a tile down after its pulses and up after the settle; READY follows. Cites: 02_worker_pixel_front_end. -/
def Obligations.TilePower : Prop :=
  ∀ (s : State) (w t d : Nat), s.alive w → t < 64 →
    let x := s.chip.worker w
    let n := s.chip.tick
    let q := x.tile t
    let pg := F.TILE_AFE_PG.ix 4 t
    let ready := F.TILE_AFE_READY.ix 4 t
    let was := (q.afeWas ++ [(x.word (0x301 + 4 * t), n)]).filter (fun e => decide (n < e.2 + 640))
    let wrote := fun (y : Worker) (v : Nat) =>
      y = { x with regs := y.regs, tiles := y.tiles } ∧
      ∀ b, y.word b = if b = 0x301 + 4 * t then F.TILE_AFE_PG.put (x.word b &&& 0xFFC00FFF) v else x.word b
    (s.workerDoes (.tilePowerDown w t .write) w fun y => wrote y 1 ∧
      x.tileIs y t (if x.g pg = 0 then { q with afeWas := was, power := match q.power with
        | .on => .closing
        | .settling _ => .off
        | p => p } else { q with afeWas := was })) ∧
    (s.workerDoes (.tilePowerUp w t) w fun y => wrote y 0 ∧
      x.tileIs y t (if x.g pg = 1 then (match q.power with
        | .closing => { q with afeWas := was, power := .on }
        | .off => { q with afeWas := was, power := .settling (n + 32768), polNow := x.b (F.TILE_AFE_POL.ix 4 t) }
        | _ => { q with afeWas := was }) else { q with afeWas := was })) ∧
    (q.power = .closing → x.tileQuiet t = true → s.workerDoes (.tilePowerOff w t) w fun y =>
      y = { x with regs := y.regs, tiles := y.tiles, pixels := y.pixels } ∧ x.tileIs y t { q with power := .off } ∧ x.puts y [(ready, 0)] ∧
      ∀ b, y.px b = if tileOf b = t ∧ (x.px b).low = true then
        ({ x.px b with low := false, unarmed := false } : Pixel).rested (x.cfg b) n else x.px b) ∧
    (¬ (q.power = .closing ∧ x.tileQuiet t = true) → s.workerDoes (.tilePowerOff w t) w fun y => y = x) ∧
    (q.power = .settling d → d ≤ n → s.workerDoes (.tileSettleEnd w t) w fun y =>
      y = { x with regs := y.regs, tiles := y.tiles, pixels := y.pixels } ∧ x.tileIs y t { q with power := .on } ∧ x.puts y [(ready, 1)] ∧
      ∀ b, y.px b = (let r := cfgStart (x.cfg b)
        if b ∉ tilePixels t then x.px b
        else if (x.px b).range = r then { x.px b with latch := x.cfg b }
        else { x.px b with latch := x.cfg b, range := r, down := 0, relaxFrom := n, relaxWait := false })) ∧
    (q.power = .settling d → n < d → s.workerDoes (.tileSettleEnd w t) w fun y => y = x) ∧
    ((∀ d, q.power ≠ .settling d) → s.workerDoes (.tileSettleEnd w t) w fun y => y = x)

/-- The scrubs visit each word in turn; an uncorrectable pixel word masks its pixel, and an uncorrectable table word is
marked, counted and flagged. Cites: 02_worker_pixel_front_end; 03_worker_time_capture. -/
def Obligations.WorkerScrub : Prop :=
  ∀ (s : State) (w : Nat) (f g : Finding), s.alive w →
    let x := s.chip.worker w
    let n := s.chip.tick
    let a := x.scrub.pix
    let due := x.scrub.pixAt + 1024 ≤ n
    let skips := fun (k : WordId) => x.scrub.wroteAt = n ∧ k ∈ x.scrub.wrote
    let moved : WScrub := { x.scrub with pix := (a + 1) % 16384, pixAt := n }
    let v := F.PIX_ECC_ERR.put ((x.cfg a ^^^ BitVec.ofNat 32 f.flips) &&& 0xFFFFE000) 1
    let i := x.scrub.bin
    let bank := decide (51200 ≤ i)
    let t := i % 51200 / 800
    let fb := if skips (.bin (binKey bank t (i % 800))) then .clean else f
    let fo := if skips (.ofs x.scrub.ofs) then .clean else g
    (¬ due → s.workerDoes (.pixelScrub w f) w fun y => y = x) ∧
    (due → f.ue = true → ¬ skips (.pixel a) → s.workerDoes (.pixelScrub w f) w fun y =>
      y = { x with
        regs := y.regs, pixels := y.pixels, scrub := moved, hot := y.hot,
        out := { x.out with monitor := x.out.monitor || x.reports F.WK_FLAGS_CFG_UE } } ∧
      (∀ b, y.word b = if b = 0x1000 + a then v else if b = 0x3 then F.WK_FLAGS_CFG_UE.put (x.word 0x3) 1 else x.word b) ∧
      x.pixelIs y a ((x.px a).rested v n)) ∧
    (due → (f.ue = false ∨ skips (.pixel a)) → s.workerDoes (.pixelScrub w f) w fun y => y = { x with scrub := moved }) ∧
    (n < x.scrub.tabAt + 1024 → s.workerDoes (.tableScrub w f g) w fun y => y = x) ∧
    (x.scrub.tabAt + 1024 ≤ n → s.workerDoes (.tableScrub w f g) w fun y =>
      y = { x with
        regs := y.regs, tiles := y.tiles, out := y.out, tab := y.tab, cal := y.cal, hot := y.hot,
        scrub := { x.scrub with bin := (i + 1) % 102400, ofs := (x.scrub.ofs + 1) % 16384, tabAt := n } } ∧
      x.checked y bank t (i % 800) fb x.scrub.ofs fo [])

/-- The table window reads and writes the selected word and steps INDEX; TC_CNT_LO captures the high count; SWAP_GO swaps
banks. Cites: 03_worker_time_capture. -/
def Obligations.TableAccess : Prop :=
  ∀ (s : State) (w t : Nat) (v : Word) (f : Finding), s.alive w → t < 64 →
    let x := s.chip.worker w
    let n := s.chip.tick
    let i := x.g F.TC_TBL_ADDR_INDEX
    let tbl := x.g F.TC_TBL_ADDR_TBL
    let inc := if x.b F.TC_TBL_ADDR_AUTO_INC then [(F.TC_TBL_ADDR_INDEX, i + 1)] else []
    let bin := tbl = 0 ∧ i % 1024 < 800 ∧ i / 1024 < 64
    let key := binKey (!(x.tile (i / 1024)).bank) (i / 1024) (i % 1024)
    let onIt := fun (u : Nat) => x.b F.TC_STAT_CAL_BUSY = true ∧ x.g F.TC_STAT_CAL_TILE = u
    let left := fun (y : Worker) (b : Prop) [Decidable b] =>
      x.puts y (inc ++ if b then x.nextPass.1 else []) ∧ y.cal = if b then x.nextPass.2 else x.cal
    let noted := fun (k : WordId) => ({ x.scrub with wroteAt := n, wrote := if x.scrub.wroteAt = n then x.scrub.wrote ++ [k] else [k] } : WScrub)
    ((x.readReg n 0x208 0).1.toNat = if bin then AMap.get binDefault x.tab.bins (binKey (x.tile (i / 1024)).bank (i / 1024) (i % 1024)) % 2 ^ 32
      else if tbl = 1 ∧ i < 192 then (AMap.get (always 0) x.tab.walk i).toNat
      else if tbl = 2 ∧ i < 16384 then AMap.get (always 0) x.tab.ofs i % 2 ^ 32
      else if tbl = 3 ∧ i < 800 then AMap.get (always 0) x.cal.hist i % 2 ^ 32
      else 0) ∧
    (bin → s.workerDoes (.tblDataAccess w none f) w fun y =>
      y = { x with regs := y.regs, tiles := y.tiles, out := y.out, tab := y.tab, cal := y.cal, hot := y.hot } ∧
      x.checked y (x.tile (i / 1024)).bank (i / 1024) (i % 1024) f 0 .clean inc) ∧
    (tbl = 2 → i < 16384 → s.workerDoes (.tblDataAccess w none f) w fun y =>
      y = { x with regs := y.regs, tiles := y.tiles, out := y.out, tab := y.tab, cal := y.cal, hot := y.hot } ∧
      x.checked y false 0 0 .clean i f inc) ∧
    (¬ bin → ¬ (tbl = 2 ∧ i < 16384) → s.workerDoes (.tblDataAccess w none f) w fun y =>
      y = { x with regs := y.regs, cal := y.cal } ∧ left y (tbl = 3 ∧ i < 800 ∧ f ≠ .clean ∧ x.b F.TC_STAT_CAL_BUSY = true)) ∧
    (bin → s.workerDoes (.tblDataAccess w (some v) f) w fun y =>
      y = { x with
        regs := y.regs, cal := y.cal, scrub := noted (.bin key), tab := { x.tab with bins := y.tab.bins, badBins := y.tab.badBins } } ∧
      left y (onIt (i / 1024)) ∧
      (∀ k, AMap.get binDefault y.tab.bins k = if k = key then lowBits 12 v.toNat else AMap.get binDefault x.tab.bins k) ∧
      ∀ k, AMap.get (always false) y.tab.badBins k = if k = key then false else AMap.get (always false) x.tab.badBins k) ∧
    (tbl = 1 → i < 192 → s.workerDoes (.tblDataAccess w (some v) f) w fun y =>
      y = { x with regs := y.regs, tab := { x.tab with walk := y.tab.walk } } ∧ x.puts y inc ∧
      ∀ k, AMap.get (always 0) y.tab.walk k = if k = i then v &&& 0xFFFFFFFC else AMap.get (always 0) x.tab.walk k) ∧
    (tbl = 2 → i < 16384 → s.workerDoes (.tblDataAccess w (some v) f) w fun y =>
      y = { x with regs := y.regs, scrub := noted (.ofs i), tab := { x.tab with ofs := y.tab.ofs, badOfs := y.tab.badOfs } } ∧ x.puts y inc ∧
      (∀ k, AMap.get (always 0) y.tab.ofs k = if k = i then lowBits 14 v.toNat else AMap.get (always 0) x.tab.ofs k) ∧
      ∀ k, AMap.get (always false) y.tab.badOfs k = if k = i then false else AMap.get (always false) x.tab.badOfs k) ∧
    (¬ bin → ¬ (tbl = 1 ∧ i < 192) → ¬ (tbl = 2 ∧ i < 16384) → s.workerDoes (.tblDataAccess w (some v) f) w fun y =>
      y = { x with regs := y.regs } ∧ x.puts y inc) ∧
    (s.workerDoes (.cntLoRead w) w fun y => y = { x with regs := y.regs } ∧ x.puts y [(F.TC_CNT_HI_CNT_HI, x.coarse n / 2 ^ 32)]) ∧
    (s.workerDoes (.swapGo w t) w fun y =>
      y = { x with regs := y.regs, tiles := y.tiles, cal := if onIt t then x.nextPass.2 else x.cal } ∧
      x.tileIs y t { x.tile t with bank := !(x.tile t).bank } ∧
      (∀ u, u < 64 → y.calValid u = (x.calValid u || u == t)) ∧ y.g F.TC_SWAP_TILE = t ∧ y.g F.TC_SWAP_SWAP_GO = 0 ∧
      ∀ r, r ∉ [0x209, 0x20D, 0x20E] → y.word r = putAll (if onIt t then x.nextPass.1 else []) r (x.word r)) ∧
    (x.b F.TC_STAT_INIT_DONE = true → s.workerDoes (.tableInitDone w) w fun y => y = x) ∧
    (x.b F.TC_STAT_INIT_DONE = false → s.workerDoes (.tableInitDone w) w fun y =>
      let fg := x.b F.TC_STAT_FG_BUSY
      y = { x with regs := y.regs, tab := ⟨[], [], [], [], []⟩, cal := if fg then x.cal else x.cal.round } ∧
      x.puts y ((F.TC_STAT_INIT_DONE, 1) :: if fg then [] else [(F.TC_STAT_CAL_BUSY, x.g F.TC_CTL_BGCAL_EN), (F.TC_STAT_CAL_TILE, 0)]))

/-- Pulser hits fill the histogram of the tile under calibration, and a full one gives new bin centres, accepted or
rejected. Cites: 03_worker_time_capture. -/
def Obligations.Calibration : Prop :=
  ∀ (s : State) (w p v : Nat) (bad : Bool), s.alive w →
    let x := s.chip.worker w
    let n := s.chip.tick
    let t := x.g F.TC_STAT_CAL_TILE
    let a := (16 * (t / 8) + x.cal.px / 16) * 128 + 16 * (t % 8) + x.cal.px % 16
    let q := x.px a
    let b := 50 * p + v
    let runs := x.b F.TC_STAT_CAL_BUSY = true ∧ x.cal.hits < x.calN
    let idle := q.low = false ∧ q.pulse = none
    let next : WCal := { x.cal with px := (x.cal.px + 1) % 256 }
    let centre := if x.b F.TC_CTL_BIN_EN then x.centre (tileOf a) b else 4 * b + 2
    let emits := x.b F.TC_CTL_CAL_EMIT = true ∧ cfgMasked (x.cfg a) = false ∧ (x.tile (tileOf a)).power = .on ∧ q.leakSat = false ∧
      x.running = true ∧ x.b F.TC_STAT_INIT_DONE = true
    let full := x.b F.TC_STAT_CAL_BUSY = true ∧ x.calN ≤ x.cal.hits
    let counts := (List.range 800).map (fun b => AMap.get (always 0) x.cal.hist b)
    let cen := newCentres x.calN 0 counts
    let rej := (x.tile t).rej + 1
    let settled : Worker := { x with cal := { x.cal with urgent := x.cal.urgent.erase t } }
    (runs → idle → s.workerDoes (.pulserHit w p v bad) w fun y =>
      let l := if bad then x.nextPass.1 else []
      y = { x with
        pixels := y.pixels, tiles := y.tiles, regs := y.regs, out := y.out, marks := y.marks, hot := y.hot,
        cal := if bad then ({ x with cal := next } : Worker).nextPass.2
          else { next with hits := x.cal.hits + 1, hist := AMap.upd (always 0) x.cal.hist b (fun k => (k + 1) % 2 ^ 24) } } ∧
      x.pixelIs y a { q with deadEnd := some (n + 16), pulse := some ⟨x.coarse n, p, v, centre, q.range, none, false, false, false, true, true⟩ } ∧
      if emits ∧ x.b F.WK_GSTAT_FWD_ONLY = false then
        if AMap.get (always false) x.tab.badOfs a = true then
          x.tileSame y ∧ x.puts y ((F.TC_ECC_DROP_CNT, satTo F.TC_ECC_DROP_CNT (x.g F.TC_ECC_DROP_CNT) 1) :: l) ∧ y.out = x.out ∧ y.marks = x.marks
        else
          let time := correctedTime (x.coarse n) centre (if x.b F.TC_CTL_OFS_EN then x.offset a else 0) 0
          x.took y n (tileOf a) (mkHit 2 a time 0 q.range) l
      else x.tookNone y l) ∧
    (runs → ¬ idle → s.workerDoes (.pulserHit w p v bad) w fun y => y = { x with cal := next }) ∧
    (¬ runs → s.workerDoes (.pulserHit w p v bad) w fun y => y = x) ∧
    (¬ full → s.workerDoes (.calTableComplete w bad) w fun y => y = x) ∧
    (full → s.workerDoes (.calTableComplete w true) w fun y => y = { x with regs := y.regs, cal := x.nextPass.2 } ∧ x.puts y x.nextPass.1) ∧
    (full → x.rejects t counts cen = false → s.workerDoes (.calTableComplete w false) w fun y =>
      y = { x with
        regs := y.regs, tiles := y.tiles, tab := { x.tab with bins := y.tab.bins, badBins := y.tab.badBins }, cal := settled.nextPass.2 } ∧
      x.tileIs y t { x.tile t with rej := 0, noDmax := false, bank := !(x.tile t).bank } ∧
      (∀ k, k < 800 → y.centre t k = lowBits 12 (cen.getD k 0)) ∧
      (∀ k, (∀ b, b < 800 → k ≠ binKey (!(x.tile t).bank) t b) →
        AMap.get binDefault y.tab.bins k = AMap.get binDefault x.tab.bins k ∧
        AMap.get (always false) y.tab.badBins k = AMap.get (always false) x.tab.badBins k) ∧
      (∀ u, u < 64 → y.calValid u = (x.calValid u || u == t)) ∧
      ∀ r, r ∉ [0x20D, 0x20E] → y.word r = putAll settled.nextPass.1 r (x.word r)) ∧
    (full → x.rejects t counts cen = true → s.workerDoes (.calTableComplete w false) w fun y =>
      y = { x with
        regs := y.regs, tiles := y.tiles, cal := x.nextPass.2, hot := y.hot,
        out := { x.out with monitor := x.out.monitor || (decide (rej = 3) && x.reports F.WK_FLAGS_TC_CAL) } } ∧
      x.tileIs y t { x.tile t with rej := rej } ∧
      x.puts y ((F.TC_CAL_LIM_REJ_CNT, satTo F.TC_CAL_LIM_REJ_CNT (x.g F.TC_CAL_LIM_REJ_CNT) 1) ::
        (if rej = 3 then [(F.TC_STAT_CAL_BAD, 1), (F.TC_STAT_BAD_TILE, t), (F.WK_FLAGS_TC_CAL, 1)] else []) ++ x.nextPass.1)) ∧
    (s.workerDoes (.calFg w) w fun y =>
      y = { x with regs := y.regs, cal := x.cal.round } ∧
      x.puts y [(F.TC_CTL_CAL_FG, 1), (F.TC_STAT_FG_BUSY, 1), (F.TC_STAT_CAL_BUSY, 1), (F.TC_STAT_CAL_TILE, 0)]) ∧
    (x.b F.TC_STAT_FG_BUSY = true → x.cal.fgDone = true → s.workerDoes (.fgPassEnd w) w fun y =>
      y = { x with regs := y.regs, cal := x.cal.round } ∧
      x.puts y [(F.TC_CTL_CAL_FG, 0), (F.TC_STAT_FG_BUSY, 0),
        (F.TC_STAT_CAL_BUSY, if x.b F.TC_STAT_INIT_DONE then x.g F.TC_CTL_BGCAL_EN else 0), (F.TC_STAT_CAL_TILE, 0)]) ∧
    (¬ (x.b F.TC_STAT_FG_BUSY = true ∧ x.cal.fgDone = true) → s.workerDoes (.fgPassEnd w) w fun y => y = x)

/-- The arbiter moves one record round-robin into the output queue; pair waits, time references, flags and monitor periods
come due. Cites: 04_worker_readout_and_sightings. -/
def Obligations.ReadoutQueue : Prop :=
  ∀ (s : State) (w t flag : Nat) (r : FifoEnt) (rest : List FifoEnt) (e : OqEnt), s.alive w → flag < 20 →
    let x := s.chip.worker w
    let n := s.chip.tick
    let len := x.out.oq.length + 1
    let l := x.out.oq.filter (fun e => !e.mark)
    let passed := x.pos ≠ 0 ∧ x.coarse n / 2 ^ 18 ≠ x.coarse x.out.lastRef / 2 ^ 18
    let period := x.b F.WK_GCTL_MON_EN = true ∧ x.ctl.monFrom + 2 ^ (14 + x.g F.WK_RDO_MON_PER) ≤ n
    let f : Fld := ⟨0x003, flag, flag⟩
    let turn := (List.range 64).map (fun i => (x.out.lastTile + 1 + i) % 64)
    let has := fun (u : Nat) => (x.tile u).fifo.head?.any (fun e => decide (e.t0 < n))
    let moves := len ≤ 4096 ∧ x.out.movedAt ≠ some n
    let gone := x.out.oq.length - (x.dropStale n).out.oq.length
    (moves → turn.find? has = some t → (x.tile t).fifo = r :: rest → s.workerDoes (.arbiterMove w) w fun y =>
      y = { x with regs := y.regs, tiles := y.tiles, hot := y.hot, out := { x.out with
        oq := x.out.oq ++ [⟨some r.hit, false, n⟩], pairReady := false, lastTile := t, movedAt := some n,
        monitor := x.out.monitor || (decide (len = 4096) && x.reports F.WK_FLAGS_OQ_FULL) } } ∧
      x.tileIs y t { x.tile t with fifo := rest } ∧
      x.puts y ((F.WK_OQ_OQ_HWM, max (x.g F.WK_OQ_OQ_HWM) len) :: (if len = 4096 then [(F.WK_FLAGS_OQ_FULL, 1)] else []))) ∧
    (¬ moves ∨ turn.find? has = none → s.workerDoes (.arbiterMove w) w fun y => y = x) ∧
    (l.getLast? = some e → e.t0 + 8 * x.g F.WK_RDO_PAIR_WAIT ≤ n → s.workerDoes (.pairWaitExpiry w) w fun y =>
      y = { x with out := { x.out with pairReady := true } }) ∧
    (l.getLast? = some e → n < e.t0 + 8 * x.g F.WK_RDO_PAIR_WAIT → s.workerDoes (.pairWaitExpiry w) w fun y => y = x) ∧
    (l = [] → s.workerDoes (.pairWaitExpiry w) w fun y => y = x) ∧
    (passed → s.workerDoes (.timeReferenceDue w) w fun y =>
      y = { x with out := { x.out with timeRef := some (x.out.timeRef.getD 0) } }) ∧
    (¬ passed → s.workerDoes (.timeReferenceDue w) w fun y => y = x) ∧
    (s.workerDoes (.flagRiseReport w flag) w fun y =>
      y = { x with regs := y.regs, hot := y.hot, out := { x.out with monitor := x.out.monitor || x.reports f } } ∧ x.puts y [(f, 1)]) ∧
    (period → s.workerDoes (.monitorPeriodExpiry w) w fun y =>
      y = { x with out := { x.out with monitor := true }, ctl := { x.ctl with monFrom := n } }) ∧
    (¬ period → s.workerDoes (.monitorPeriodExpiry w) w fun y => y = x) ∧
    (x.out.pkts = [] → (x.dropStale n).out.oq = x.out.oq.filter (fun e => !(!e.mark && e.hit.any (fun h => decide (491520 ≤ x.age n h))))) ∧
    (0 < gone → x.puts (x.dropStale n) [(F.WK_DROP_STALE_LOST, satTo F.WK_DROP_STALE_LOST (x.g F.WK_DROP_STALE_LOST) gone), (F.WK_FLAGS_STALE, 1)]) ∧
    (gone = 0 → x.dropStale n = x)

/-- A worker queues a mark or answers it, serves it when its window is complete, reserves the matching records and copies
them. Cites: 04_worker_readout_and_sightings. -/
def Obligations.WorkerMarks : Prop :=
  ∀ (s : State) (w : Nat) (west marked : Bool) (b : Block) (x1 : Worker) (m : WMark) (rest : List WMark) (sv : Serving) (t ix : Nat)
    (more : List (Nat × Nat)), s.alive w →
    let x := s.chip.worker w
    let n := s.chip.tick
    let got := x.takeDown n west (fun b => b.is .mark) = some (b, x1)
    let id := b.f 105 94
    let answers := fun (y : Worker) (st : Nat) => y.marks = { x1.marks with trailers := x1.marks.trailers ++ [⟨id, 0, st, west⟩] }
    let due := dist48 (m.start + m.len - 1 + 320) (x.coarse n) < 2 ^ 47
    let len := x.out.oq.length + 1
    let ent := (x.tile t).ring.find? (fun e => e.ix == ix)
    let found := fun (u : Nat) => (x.tile u).ring.filter (fun e => !e.sent && x.inWindow n sv.mark e.hit)
    let stale := ((List.range 64).map (fun u => ((found u).filter (fun e => decide (491520 ≤ x.age n e.hit))).length)).sum
    (s.workerDoes (.modeChange w marked) w fun y =>
      y = { x with regs := y.regs, tiles := y.tiles } ∧
      x.puts y [(F.WK_GCTL_MODE, marked.toNat), (F.WK_GSTAT_MODE_NOW, marked.toNat)] ∧
      ∀ u, y.tile u = if marked = true ∧ x.marked = false ∧ u < 64 then { x.tile u with ring := [], ovwT := none } else x.tile u) ∧
    (got → x1.b F.WK_GSTAT_FWD_ONLY = true → s.workerDoes (.markReceived w west) w fun y => y = { x1 with marks := y.marks } ∧ answers y 4) ∧
    (got → x1.b F.WK_GSTAT_FWD_ONLY = false → x1.marked = false → s.workerDoes (.markReceived w west) w fun y =>
      y = { x1 with marks := y.marks } ∧ answers y 3) ∧
    (got → x1.b F.WK_GSTAT_FWD_ONLY = false → x1.marked = true → 8 ≤ x1.marks.queue.length → s.workerDoes (.markReceived w west) w fun y =>
      y = { x1 with marks := y.marks, regs := y.regs, hot := y.hot, out := { x1.out with monitor := x1.out.monitor || x1.reports F.WK_FLAGS_MARK_OVF } } ∧
      answers y 2 ∧ x1.puts y [(F.WK_MARK_REFUSED_CNT, satTo F.WK_MARK_REFUSED_CNT (x1.g F.WK_MARK_REFUSED_CNT) 1), (F.WK_FLAGS_MARK_OVF, 1)]) ∧
    (got → x1.b F.WK_GSTAT_FWD_ONLY = false → x1.marked = true → x1.marks.queue.length < 8 → s.workerDoes (.markReceived w west) w fun y =>
      y = { x1 with marks := { x1.marks with
        queue := x1.marks.queue ++ [⟨id, extendStart (x1.coarse n) (b.f 93 54), b.f 53 39 + 1, west⟩] } }) ∧
    (x.takeDown n west (fun b => b.is .mark) = none → s.workerDoes (.markReceived w west) w fun y => y = x) ∧
    (x.marks.serving = none → x.marks.queue = m :: rest → due → s.workerDoes (.markServeStart w) w fun y =>
      y = { x with marks := { x.marks with queue := rest, serving := some ⟨m, 0, [], 0, 0, false⟩ } }) ∧
    (x.marks.serving ≠ none ∨ x.marks.queue = [] ∨ (x.marks.queue = m :: rest ∧ ¬ due) → s.workerDoes (.markServeStart w) w fun y => y = x) ∧
    (x.marks.serving = some sv → sv.scanned = false → s.workerDoes (.markScanEnd w) w fun y =>
      y = { x with regs := y.regs, tiles := y.tiles, hot := y.hot, out := { x.out with monitor := y.out.monitor }, marks := y.marks } ∧
      x.puts y (if stale = 0 then [] else [(F.WK_DROP_STALE_LOST, satTo F.WK_DROP_STALE_LOST (x.g F.WK_DROP_STALE_LOST) stale), (F.WK_FLAGS_STALE, 1)]) ∧
      (∀ u, y.tile u = if 64 ≤ u then x.tile u else { x.tile u with
        ring := ((x.tile u).ring.filter (fun e => !((found u).any (fun d => d.ix == e.ix && decide (491520 ≤ x.age n d.hit))))).map
          (fun e => if (found u).any (fun d => d.ix == e.ix && decide (x.age n d.hit < 491520)) then { e with sent := true } else e) }) ∧
      ∃ sv1 : Serving, y.marks = { x.marks with serving := some sv1 } ∧ sv1.mark = sv.mark ∧ sv1.part = sv.part ∧ sv1.scanned = true ∧
        sv1.left = sv1.toCopy.length ∧
        (∀ u k, (u, k) ∈ sv1.toCopy ↔ u < 64 ∧ ∃ e ∈ found u, e.ix = k ∧ x.age n e.hit < 491520) ∧
        ∀ u, u < 64 → (sv1.partialTiles.getLsbD u = true ↔ ∃ o, (x.tile u).ovwT = some o ∧ dist48 sv.mark.start o < 2 ^ 47)) ∧
    (x.marks.serving = none ∨ (x.marks.serving = some sv ∧ sv.scanned = true) → s.workerDoes (.markScanEnd w) w fun y => y = x) ∧
    (x.marks.serving = some sv → sv.toCopy = (t, ix) :: more → len ≤ 4096 → x.out.copiedAt ≠ some n → s.workerDoes (.markCopy w) w fun y =>
      y = { x with
        regs := y.regs, hot := y.hot,
        marks := { x.marks with serving := some { sv with
          toCopy := more,
          partialTiles := if ent = none then sv.partialTiles ||| (1 <<< t) else sv.partialTiles } },
        out := { x.out with
          oq := x.out.oq ++ [⟨ent.map RingEnt.hit, true, n⟩], copiedAt := some n,
          monitor := x.out.monitor || (decide (len = 4096) && x.reports F.WK_FLAGS_OQ_FULL) } } ∧
      x.puts y ((F.WK_OQ_OQ_HWM, max (x.g F.WK_OQ_OQ_HWM) len) :: (if len = 4096 then [(F.WK_FLAGS_OQ_FULL, 1)] else []))) ∧
    (x.marks.serving = none ∨ 4096 < len ∨ x.out.copiedAt = some n ∨ (x.marks.serving = some sv ∧ sv.toCopy = []) → s.workerDoes (.markCopy w) w fun y => y = x)

/-- A worker enables only when initialised, counted and not in fallback; THROTTLE sets RATE, TRIM sets trims, HWM writes
restart. Cites: 04_worker_readout_and_sightings; 06_loops_and_worker_control. -/
def Obligations.WorkerRun : Prop :=
  ∀ (s : State) (w t u : Nat) (v : Word) (west : Bool) (b : Block) (x1 : Worker) (f0 f1 f2 f3 : Finding), s.alive w → t < 64 →
    let x := s.chip.worker w
    let n := s.chip.tick
    let rate := b.f 106 99
    let code := if x.b F.TC_STAT_INIT_DONE = false then 0xA4 else if x.b F.WK_GSTAT_CNT_SET = false then 0xA5
      else if x.b F.WK_GSTAT_FWD_ONLY = true then 0xA6 else 0
    let a := bitsOf u 20 7
    let ue := F.PIX_ECC_ERR.put ((x.cfg a ^^^ BitVec.ofNat 32 f0.flips) &&& 0xFFFFE000) 1
    let trim := (if bitOf u 6 then F.PIX_TRIM_HI else F.PIX_TRIM_LO).ix 1 (bitsOf u 20 7)
    (x.running = true → s.workerDoes (.workerEnable w) w fun y => y = x) ∧
    (x.running = false → code ≠ 0 → s.workerDoes (.workerEnable w) w fun y =>
      y = { x with regs := y.regs, hot := y.hot, out := { x.out with monitor := x.out.monitor || x.reports F.WK_FLAGS_EN_REJECT } } ∧
      x.puts y [(F.WK_GSTAT_REASON, code), (F.WK_FLAGS_EN_REJECT, 1)]) ∧
    (x.running = false → code = 0 → s.workerDoes (.workerEnable w) w fun y =>
      y = { x with regs := y.regs, out := { x.out with timeRef := some (max 1 (x.out.timeRef.getD 0)), credit := 65536 } } ∧
      x.puts y [(F.WK_GCTL_EN, 1), (F.WK_GSTAT_RUNNING, 1), (F.WK_GSTAT_REASON, 0), (F.WK_TRIM_RATE_NOW, 0xFF)]) ∧
    (s.workerDoes (.workerDisable w) w fun y =>
      y = { x with regs := y.regs } ∧ x.puts y [(F.WK_GCTL_EN, 0), (F.WK_GSTAT_RUNNING, 0)]) ∧
    (x.takeDown n west (fun b => b.is .throttle) = some (b, x1) → s.workerDoes (.throttleReceived w west) w fun y =>
      y = { x1 with regs := y.regs, out := { x1.out with
        credit := if rate = 0xFF then 65536 else if rate = 0 then min 0 x1.out.credit else x1.out.credit } } ∧
      x1.puts y [(F.WK_TRIM_RATE_NOW, rate)]) ∧
    (x.takeDown n west (fun b => b.is .throttle) = none → s.workerDoes (.throttleReceived w west) w fun y => y = x) ∧
    (x.takeDown n west (fun b => b.is .trim) = some (b, x1) → s.workerDoes (.trimReceived w west [f0, f1, f2, f3]) w fun y =>
      y = (((x1.trimOne n (b.f 106 85) f0).trimOne n (b.f 84 63) f1).trimOne n (b.f 62 41) f2).trimOne n (b.f 40 19) f3) ∧
    (x.takeDown n west (fun b => b.is .trim) = none → s.workerDoes (.trimReceived w west [f0, f1, f2, f3]) w fun y => y = x) ∧
    (bitOf u 21 = false → x.trimOne n u f0 = x) ∧
    (bitOf u 21 = true → (f0.ue = true ∨ F.PIX_ECC_ERR.of (x.cfg a) = 1) → let y := x.trimOne n u f0
      let bad := if f0.ue then [(F.WK_FLAGS_CFG_UE, 1)] else []
      y = { x with regs := y.regs, hot := y.hot, pixels := y.pixels, out := { x.out with
        monitor := x.out.monitor || x.reports F.WK_FLAGS_TRIM_REJECT || (f0.ue && x.reports F.WK_FLAGS_CFG_UE) } } ∧
      (∀ r, r ≠ 0x1000 + a → y.word r = putAll (bad ++
        [(F.WK_TRIM_TRIM_REJ, satTo F.WK_TRIM_TRIM_REJ (x.g F.WK_TRIM_TRIM_REJ) 1), (F.WK_FLAGS_TRIM_REJECT, 1)]) r (x.word r)) ∧
      y.cfg a = (if f0.ue then ue else x.cfg a) ∧ x.pixelIs y a (if f0.ue then (x.px a).rested ue n else x.px a)) ∧
    (bitOf u 21 = true → f0.ue = false → F.PIX_ECC_ERR.of (x.cfg a) ≠ 1 → let y := x.trimOne n u f0
      y = { x with regs := y.regs, pixels := y.pixels, scrub := y.scrub } ∧
      x.puts y [(trim, bitsOf u 5 0), (F.WK_TRIM_TRIM_APPLIED, x.g F.WK_TRIM_TRIM_APPLIED + 1)] ∧
      x.pixelIs y a ((x.px a).rested (y.cfg a) n) ∧
      y.scrub = { x.scrub with wroteAt := n, wrote := if x.scrub.wroteAt = n then x.scrub.wrote ++ [.pixel a] else [.pixel a] }) ∧
    (s.workerDoes (.oqHwmWrite w v) w fun y => y = { x with regs := y.regs } ∧ x.puts y [(F.WK_OQ_OQ_HWM, x.out.oq.length)]) ∧
    (s.workerDoes (.slipHwmWrite w v) w fun y => y = { x with regs := y.regs } ∧ x.puts y [(F.WK_FWD_SLIP_HWM, x.out.slip.length)]) ∧
    (s.workerDoes (.fifoHwmWrite w t v) w fun y =>
      y = { x with regs := y.regs } ∧ x.puts y [(F.TILE_STAT_FIFO_HWM.ix 4 t, (x.tile t).fifo.length)])

/-- A worker's uplink slot carries what the priority table of R157 puts first; arrivals from the far side are forwarded or
wait. Cites: 04_worker_readout_and_sightings; 05_plom_links; 06_loops_and_worker_control. -/
def Obligations.UplinkPriority : Prop :=
  (
    ∀ (s : State) (w : Nat) (west : Bool) (b : Block) (l : List Block) (e : SightEnt) (es : List SightEnt) (p : OwnPkt) (r : Nat) (g : Answer) (od : OldSide),
      s.alive w →
      let x := s.chip.worker w
      let n := s.chip.tick
      let rate := x.g F.WK_TRIM_RATE_NOW
      let cr : Int := if west = x.near then
        (if rate = 0xFF then 65536 else if rate = 0 then min 0 x.out.credit else min 65536 (x.out.credit + rate)) else x.out.credit
      let back := (x.port west).segUp true = true ∧ x.out.wasOut = true ∧ (west = x.near ∨ x.ctl.both = true)
      let o : WOut := { x.out with
        credit := cr, wasOut := x.out.wasOut && !decide back, timeRef := if back then some (x.out.timeRef.getD 0) else x.out.timeRef }
      let a := o.arriving
      let x0 : Worker := { x with out := { x.out with credit := cr } }
      let x1 : Worker := { x with out := { o with arriving := none } }
      let up := (x.port west).segUp true = true
      let on := x.ctl.clock ≠ none ∧ x.pos ≠ 0
      let ser := on ∧ (west = x.near ∨ x.ctl.both = true)
      let far := on ∧ west ≠ x.near ∧ x.ctl.both = false
      let go := ser ∧ up ∧ a.any (·.is .sighting) = false
      let ready := o.sights.filter (fun e => decide (e.when + 3 ≤ n))
      let pkt := o.pkts.find? (fun p => p.west == west)
      let cut := 287 ≤ o.slip.length ∧ pkt ≠ none ∧ west = x.near
      let own := go ∧ (ready = [] ∨ 288 ≤ o.slip.length ∨ cut)
      let tight := 288 ≤ o.slip.length ∧ a.any (fun b => !b.is .idle) = true
      let low := own ∧ pkt = none
      let free := low ∧ o.fwd = none ∧ o.first = 0 ∧ ¬ tight
      let due := if o.timeRef ≠ none then o.timeRef else o.owed.bind (fun q => if q.1 = west then some q.2 else none)
      let ans := o.replies.find? (fun g => !x.ctl.both || g.west == west)
      let fwd := low ∧ ¬ (free ∧ (due ≠ none ∨ ans ≠ none))
      let slot := s.workerDoes (.uplinkSlot w west) w
      (x.ctl.clock = none → slot fun y => y = x0.modPort west (fun p => { p with tx := { p.tx with last := [], lastBlk := none } })) ∧
      (x.ctl.clock ≠ none → x.pos = 0 → slot fun y => y =
        match (x.port west).tx.queue, o.replies.find? (fun g => g.west == west) with
        | b :: l, _ => (if up then (x0.modPort west (fun p => { p with tx := { p.tx with queue := l } })).sendOn west b
          else (x0.modPort west (fun p => { p with tx := { p.tx with queue := l } })).idleOn west)
        | [], some g => if up then (({ x0 with out := { x0.out with replies := o.replies.erase g } } : Worker)).sendOn west g.blk else x0.idleOn west
        | [], none => x0.idleOn west) ∧
      (ser → up → a = some b → b.is .sighting = true → slot fun y => y = x1.sendOn west b) ∧
      (go → ready = e :: es → o.slip.length < 288 → ¬ cut → slot fun y =>
        let tiles := (e :: es).foldl (fun (m : BitVec 64) g => m ||| (1 <<< g.tile)) 0
        let late := decide (e.when + 10 < n)
        let x2 : Worker := { x1 with out := { x1.out with sights := o.sights.filter (fun e => decide (n < e.when + 3)) } }
        let z := x2.sendOn west (mkSighting x.pos tiles.toNat e.stamp)
        y = (if late then (z.sat F.WK_FWD_SGT_LATE).raise F.WK_FLAGS_SGT_LATE else z).keepArriving a) ∧
      (own → pkt = some p → slot fun y => y = (x1.packetSlot west p).keepArriving a) ∧
      (free → due = some r → slot fun y => y = ((({ x1 with out := { x1.out with
        timeRef := none, owed := if x.ctl.both = true ∧ o.timeRef ≠ none then some (!west, r) else none, lastRef := n } } : Worker)).sendOn west
          (mkTimeRef x.pos r ((x.coarse n + 5) % 2 ^ 48))).keepArriving a) ∧
      (free → due = none → ans = some g → slot fun y =>
        y = ((({ x1 with out := { x1.out with replies := o.replies.erase g } } : Worker)).sendOn west (x.stampEcho n g.blk)).keepArriving a) ∧
      (fwd → o.slip = b :: l → slot fun y => y = ((({ x1 with out := { x1.out with
        slip := l, first := o.first - 1, fwd := if o.first = 1 then none else fwdAfter o.fwd b } } : Worker)).sendOn west b).keepArriving a) ∧
      (fwd → o.slip = [] → a = some b → b.is .idle = false → slot fun y =>
        y = (({ x1 with out := { x1.out with fwd := fwdAfter o.fwd b } } : Worker)).sendOn west b) ∧
      (fwd → o.slip = [] → a.all (·.is .idle) = true → slot fun y => y =
        if o.fwd ≠ none ∨ due ≠ none ∨ ans ≠ none then x1.idleOn west
        else match (x1.dropStale n).choosePkt n west with
          | some q => (x1.dropStale n).startChosen west q
          | none => (x1.dropStale n).idleOn west) ∧
      (ser → ¬ up → slot fun y =>
        let z := x0.dropPkt west
        y = ((({ z with out := { z.out with arriving := none, sights := [], wasOut := true } } : Worker)).keepArriving a).idleOn west) ∧
      (far → x.ctl.old = some od → od.west = west → up → slot fun y => y =
        match pkt, od.blocks, od.fwd with
        | some p, _, _ => x0.packetSlot west p
        | none, b :: l, _ => { x0.sendOn west b with ctl := { x.ctl with old := some { od with blocks := l, fwd := fwdAfter od.fwd b } } }
        | none, [], some f => { x0.sendOn west (mkPktEnd f.pos true f.sent 0) with ctl := { x.ctl with old := some { od with fwd := none } } }
        | none, [], none => { x0.sendOn west (mkEpochEnd x.pos od.epoch) with ctl := { x.ctl with old := none } }) ∧
      (far → x.ctl.old = some od → (od.west ≠ west ∨ ¬ up) → slot fun y => y = x0.idleOn west) ∧
      (far → x.ctl.old = none → (x.port west).tx.queue = b :: l → slot fun y =>
        let z := x0.modPort west (fun p => { p with tx := { p.tx with queue := l } })
        y = if up then z.sendOn west b else z.idleOn west) ∧
      (far → x.ctl.old = none → (x.port west).tx.queue = [] → slot fun y => y = x0.idleOn west) ∧
      (
        let z := x.keepArriving (some b)
        if b.is .idle = true ∨ 288 ≤ x.out.slip.length then z = x
        else
          let k := x.out.slip.length + 1
          z = { x with regs := z.regs, hot := z.hot, out := { x.out with
            slip := x.out.slip ++ [b], monitor := x.out.monitor || (decide (256 < k) && x.reports F.WK_FLAGS_SLIP_HI) } } ∧
          x.puts z ((F.WK_FWD_SLIP_HWM, max (x.g F.WK_FWD_SLIP_HWM) k) :: (if 256 < k then [(F.WK_FLAGS_SLIP_HI, 1)] else []))) ∧
      (x.keepArriving none = x)) ∧
  (
    ∀ (s : State) (w : Nat) (west : Bool) (b : Block) (p : OwnPkt) (t : Trailer) (sv : Serving), s.alive w →
      let x := s.chip.worker w
      let n := s.chip.tick
      let o := x.out
      let c := (o.credit / 256).toNat
      let waits := (o.oq.filter (fun e => !e.mark && decide (e.t0 < n))).length - ((o.pkts.filter (fun p => p.kind == kindRecords)).map (·.recsLeft)).sum
      let pc := if waits % 2 = 0 ∨ o.pairReady = true ∨ x.g F.WK_RDO_PAIR_WAIT = 0 then waits else waits - 1
      let len := min (min ((pc + 1) / 2) (max 1 (x.g F.WK_RDO_BURST_MAX))) c
      let k := min 8188 sv.left
      let pkt := fun (kind len recs : Nat) (ws : List Block) (tr : Option Trailer) (serves : Bool) =>
        (⟨west, kind, len, 0, 0xFFFFFFFF, recs, 0, ws, tr, serves, x.ctl.epoch⟩ : OwnPkt)
      let next := o.monitor = false ∧ x.marks.trailers.find? (fun t => !x.ctl.both || t.west == west) = none
      let mine := x.marks.serving = some sv ∧ sv.scanned = true ∧ (x.ctl.both = false ∨ sv.mark.west = west)
      let chosen := x.choosePkt n west
      let cut := 287 ≤ o.slip.length ∧ west = x.near
      let item := (x.port (!x.near)).inbox.find? goesUp
      let taken := x.modPort (!x.near) (fun p => { p with inbox := p.inbox.eraseP goesUp })
      let offers := fun (y : Worker) (b : Block) =>
        let z := (o.arriving.map taken.slipIn).getD taken
        y = { z with out := { z.out with arriving := some b } }
      let arrival := s.workerDoes (.forwardedBlockArrival w) w
      (o.monitor = true → chosen = some (pkt kindMonitor 2 0 x.monitorWords none false)) ∧
      (o.monitor = false → x.marks.trailers.find? (fun t => !x.ctl.both || t.west == west) = some t →
        chosen = if 1 ≤ c then some (pkt kindMarkResult 1 0 [] (some t) false) else none) ∧
      (next → mine → chosen = if 1 ≤ c ∧ o.pkts.any (·.serves) = false then some (pkt kindMarkResult ((k + 1) / 2 + 1) k [] none true) else none) ∧
      (next → (x.marks.serving = none ∨ x.marks.serving = some sv ∧ (sv.scanned = false ∨ x.ctl.both = true ∧ sv.mark.west ≠ west)) →
        chosen = if len = 0 then none else some (pkt kindRecords len (min pc (2 * len)) [] none false)) ∧
      (
        let y := x.startChosen west p
        let z := x.sendOn west (mkPktStart x.pos p.kind p.len p.epoch)
        y = { z with
          out := { o with monitor := o.monitor && p.kind != kindMonitor, pkts := o.pkts.filter (fun q => q.west != west) ++ [p] },
          marks := { x.marks with trailers := (p.trailer.map x.marks.trailers.erase).getD x.marks.trailers } }) ∧
      (cut ∨ p.len ≤ p.sent → x.packetSlot west p = x.endPkt west p (decide cut)) ∧
      (¬ cut → p.sent < p.len → p.words = [] → p.recsLeft = 0 → x.packetSlot west p = x.sentData west p (x.partTrailer p) 0 0) ∧
      (¬ cut → p.sent < p.len → p.words = [] → p.recsLeft ≠ 0 →
        let got := x.nextRecords p (min 2 p.recsLeft)
        x.packetSlot west p = got.2.sentData west p (Block.data (slotBits got.1[0]? * 2 ^ 60 + slotBits got.1[1]?)) (min 2 p.recsLeft)
          (got.1.filter (fun e => e.hit.isSome)).length) ∧
      (¬ cut → p.sent < p.len → p.words.head? = some b → x.packetSlot west p = x.sentData west p b 0 0) ∧
      (p.serves = false →
        let z := x.sendOn west b
        let sent := { p with sent := p.sent + 1, crc := crcData p.crc b, recsLeft := p.recsLeft - 1, recsSent := p.recsSent + 1, words := p.words.drop 1 }
        x.sentData west p b 1 1 = { z with out := { o with
          pkts := o.pkts.filter (fun q => q.west != west) ++ [sent],
          credit := if p.kind = kindMonitor ∨ x.g F.WK_TRIM_RATE_NOW = 0xFF then o.credit else max (-4095 * 256) (o.credit - 256) } }) ∧
      (p.serves = false →
        let z := x.sendOn west (mkPktEnd x.pos false p.sent (Nat.xor p.crc 0xFFFFFFFF))
        x.endPkt west p false = { z with out := { o with pkts := o.pkts.filter (fun q => q.west != west) } }) ∧
      (p.serves = true → x.marks.serving = some sv → sv.left ≠ 0 →
        let z := x.sendOn west (mkPktEnd x.pos false p.sent (Nat.xor p.crc 0xFFFFFFFF))
        x.endPkt west p false = { z with
          out := { o with pkts := o.pkts.filter (fun q => q.west != west) }, marks := { x.marks with serving := some { sv with part := (sv.part + 1) % 16 } } }) ∧
      (p.serves = true → x.marks.serving = some sv → sv.left = 0 →
        let y := x.endPkt west p false
        y.marks = { x.marks with serving := none } ∧ y.port west = (x.port west).send true (mkPktEnd x.pos false p.sent (Nat.xor p.crc 0xFFFFFFFF)) ∧
        x.puts y ((F.WK_MARK_LAST_ID, sv.mark.id) :: if sv.partialTiles = 0 then []
          else [(F.WK_MARK_PARTIAL_CNT, satTo F.WK_MARK_PARTIAL_CNT (x.g F.WK_MARK_PARTIAL_CNT) 1), (F.WK_FLAGS_MARK_PARTIAL, 1)])) ∧
      (item = none → arrival fun y => y = x) ∧
      (item = some (.block b) → arrival fun y => if x.pos = 0 ∨ b.is .idle = true then y = taken else offers y b) ∧
      (∀ (pos kind epoch got : Nat) (st : ItemStatus) (told : Bool), item = some (.close pos kind epoch got st told) → arrival fun y =>
        if x.pos ≠ 0 ∧ told = false ∧ (st = .lenErr ∨ st = .trunc) then offers y (mkPktEnd pos true got 0) else y = taken))

/-- Loss and return of signal, NO_LOCK, back-off, test sequences and equaliser freezing act on one port and report. Cites:
05_plom_links. -/
def Obligations.LinkLevel : Prop :=
  ∀ (s : State) (r : PortRef) (eq : EqVals) (d : Nat), s.portLive r →
    let p := s.thePort r
    let wk := ofWorker r
    let n := s.chip.tick
    let near := p.g wk F.LNK_CTL_LPB_NEAR = 1
    let far := p.g wk F.LNK_STAT_FAR_ST
    let log := min 20 (max 6 (p.g wk F.LNK_EQ_CTL_FREEZE_LOG))
    let a := p.adapt wk eq.ctle eq.dfe1 eq.dfe2 eq.dfe3
    let freezes := p.locked = true ∧ p.g wk F.LNK_STAT_EQ_FROZEN = 0 ∧ 2 ^ log ≤ p.rx.idleRun
    let resumes := p.g wk F.LNK_STAT_EQ_FROZEN = 1 ∧ max 1 (p.g wk F.LNK_EQ_CTL_RESUME) ≤ p.rx.nonIdle
    let fails := min F.LNK_STAT_FAIL_RUN.top (p.g wk F.LNK_STAT_FAIL_RUN + 1)
    let starts := p.locked = true ∧ p.tx.seqDue = true ∧ far = 1
    (¬ near → s.portDoes (.lossOfSignal r) r fun q =>
      q = { p with regs := q.regs, rx := q.rx, los := true, inbox := q.inbox, hot := q.hot } ∧
      q.rx.lock = .hunt 0 ∧ q.rx.resid = [] ∧ q.rx.window = [] ∧ q.rx.huntFrom = n ∧ q.rx.passed = false ∧ q.rx.test = none ∧
      q.g wk F.LNK_STAT_LOS = 1 ∧ q.g wk F.LNK_STAT_LOCKED = 0 ∧ q.rxSt wk = 0 ∧ q.segUp wk = false ∧
      (p.locked = true → q.g wk F.LNK_STAT_LOCK_LOST = 1 ∧
        q.g wk F.LNK_CNT1_LOCK_LOSS = satTo F.LNK_CNT1_LOCK_LOSS (p.g wk F.LNK_CNT1_LOCK_LOSS) 1) ∧
      (p.rxSt wk = 2 → q.g wk F.LNK_STAT_TEST_FAIL = 1 ∧ q.g wk F.LNK_STAT_FAIL_RUN = fails ∧
        q.rx.backoff = some (n + min 1024 (2 ^ (fails - 1)) * 640000)) ∧
      (p.rxSt wk ≠ 2 → q.rx.backoff = p.rx.backoff ∧ q.g wk F.LNK_STAT_FAIL_RUN = p.g wk F.LNK_STAT_FAIL_RUN) ∧
      q.word wk 7 = (if p.g wk F.LNK_EQ_COMM_VALID = 1 then F.LNK_EQ_VALID.put (p.word wk 8) 0 else p.word wk 7) ∧
      (p.rxSt wk ≠ 3 → q.inbox = p.inbox)) ∧
    (near → s.portDoes (.lossOfSignal r) r fun q => q = { p with los := true }) ∧
    (¬ near → s.portDoes (.signalReturn r) r fun q => q = { p with regs := q.regs, los := false } ∧ p.puts q wk [(F.LNK_STAT_LOS, 0)]) ∧
    (near → s.portDoes (.signalReturn r) r fun q => q = { p with los := false }) ∧
    (p.noLockDue n = true → s.portDoes (.noLockTimeout r) r fun q =>
      q = { p with regs := q.regs, hot := q.hot } ∧ p.puts q wk [(F.LNK_STAT_NO_LOCK, 1)]) ∧
    (p.noLockDue n = false → s.portDoes (.noLockTimeout r) r fun q => q = p) ∧
    (starts → s.portDoes (.testSequenceStart r) r fun q =>
      q = { p with tx := { p.tx with seqLeft := 80000, seqGen := BitVec.allOnes 31, seqOn := true, seqDue := false } }) ∧
    (¬ starts → s.portDoes (.testSequenceStart r) r fun q => q = p) ∧
    (p.locked = false ∨ (far ≠ 1 ∧ far ≠ 2) → s.portDoes (.testSequenceAbandon r) r fun q =>
      q = { p with tx := { p.tx with seqLeft := 0, seqOn := false, seqDue := false } }) ∧
    (p.locked = true → far = 1 ∨ far = 2 → s.portDoes (.testSequenceAbandon r) r fun q => q = p) ∧
    (s.portDoes (.testSequenceEnd r) r fun q => q = { p with tx := { p.tx with seqOn := p.tx.seqOn && decide (p.tx.seqLeft ≠ 0) } }) ∧
    (p.rx.backoff = some d → d ≤ n → s.portDoes (.rejoinBackoffExpiry r) r fun q =>
      q = { p with regs := q.regs, rx := { p.rx with backoff := none, framing := q.rx.framing }, inbox := q.inbox, hot := q.hot } ∧
      q.rxSt wk = ({ p with rx := { p.rx with backoff := none } } : Port).serviceSt wk) ∧
    (p.rx.backoff = none ∨ (p.rx.backoff = some d ∧ n < d) → s.portDoes (.rejoinBackoffExpiry r) r fun q => q = p) ∧
    (freezes → s.portDoes (.eqFreeze r eq) r fun q =>
      q = { a with regs := q.regs, rx := { a.rx with nonIdle := 0 } } ∧ a.puts q wk [(F.LNK_STAT_EQ_FROZEN, 1)]) ∧
    (¬ freezes → s.portDoes (.eqFreeze r eq) r fun q => q = a) ∧
    (resumes → s.portDoes (.eqResume r) r fun q =>
      q = { p with regs := q.regs, rx := { p.rx with idleRun := 0 } } ∧ p.puts q wk [(F.LNK_STAT_EQ_FROZEN, 0)]) ∧
    (¬ resumes → s.portDoes (.eqResume r) r fun q => q = p)

/-- Writes of a worker's link registers inject errors, set test modes, hold the segment, clear counters and capture
coefficients. Cites: 05_plom_links; 06_loops_and_worker_control. -/
def Obligations.LinkRegisters : Prop :=
  ∀ (s : State) (k : Nat) (west : Bool) (v : Word) (on : Bool) (eq : EqVals), s.alive k →
    let x := s.chip.worker k
    let p := x.port west
    let n := s.chip.tick
    let r : PortRef := .worker k west
    let a := p.adapt true eq.ctle eq.dfe1 eq.dfe2 eq.dfe3
    let fails := min F.LNK_STAT_FAIL_RUN.top (p.g true F.LNK_STAT_FAIL_RUN + 1)
    let cut := p.rxSt true = 2 ∧ p.g true F.LNK_CTL_SVC_EN ≠ on.toNat
    let wait := if cut then some (n + min 1024 (2 ^ (fails - 1)) * 640000) else p.rx.backoff
    let serviced := fun (q : Port) =>
      q.g true F.LNK_CTL_SVC_EN = on.toNat ∧ q.tx = p.tx ∧ q.rx.lock = p.rx.lock ∧ q.rx.backoff = wait ∧
      (cut → q.g true F.LNK_STAT_TEST_FAIL = 1 ∧ q.g true F.LNK_STAT_FAIL_RUN = fails) ∧
      q.rxSt true = if p.g true F.LNK_CTL_SVC_EN = on.toNat then p.rxSt true
        else if p.locked = false ∨ on = false ∨ p.inTest true = true ∨ wait ≠ none then 0
        else if p.rx.passed then 3 else 1
    (s.portDoes (.errorInject r v) r fun q =>
      q = { p with regs := q.regs } ∧ (∀ b, b ≠ 6 → q.word true b = p.word true b) ∧ q.g true F.LNK_INJ_INJ_GO = 1 ∧
      ∀ f ∈ [F.LNK_INJ_INJ_KIND, F.LNK_INJ_INJ_HDR, F.LNK_INJ_INJ_LEN, F.LNK_INJ_INJ_POS], q.g true f = f.of v) ∧
    (s.portDoes (.testModeSet r v) r fun q =>
      (∀ f ∈ [F.LNK_CTL_TX_OFF, F.LNK_CTL_TEST, F.LNK_CTL_PRBS31, F.LNK_CTL_LPB_NEAR, F.LNK_CTL_LPB_FAR, F.LNK_CTL_INV_RX, F.LNK_CTL_INV_TX,
        F.LNK_CTL_SVC_EN], q.g true f = f.of v) ∧
      (F.LNK_CTL_CNT_CLR.of v = 0 → p.rxSt true = 3 → F.LNK_CTL_SVC_EN.of v = p.g true F.LNK_CTL_SVC_EN → q.inTest true = true →
        q.rxSt true = 0 ∧ q.rx.lock = .hunt 0 ∧ q.g true F.LNK_STAT_LOCK_LOST = 1) ∧
      (q.inTest true = true → p.inTest true = false → q.rxSt true = 0 ∧ q.rx.test = none)) ∧
    (s.workerDoes (.svcEnChange r on) k fun y =>
      y = { x with regs := y.regs, hot := y.hot, out := { x.out with monitor := y.out.monitor, owed := y.out.owed },
                   ctl := { x.ctl with both := y.ctl.both, clock := y.ctl.clock, lockEast := y.ctl.lockEast, lockWest := y.ctl.lockWest },
                   east := y.east, west := y.west } ∧
      y.ctl.lockEast = firstLock x.ctl.lockEast y.east n ∧ y.ctl.lockWest = firstLock x.ctl.lockWest y.west n ∧
      y.ctl.both = (decide (x.pos = 1) && y.east.segUp true && y.west.segUp true && y.east.farSide == 2 && y.west.farSide == 2) ∧
      y.port (!west) = x.port (!west) ∧ serviced (y.port west)) ∧
    (s.portDoes (.cntClr r) r fun q =>
      q.word true 2 = 0 ∧ q.word true 3 = 0 ∧ q.word true 4 = 0 ∧ q.g true F.LNK_PRBS_PRBS_ERR = 0 ∧ q.g true F.LNK_CTL_CNT_CLR = 0 ∧
      (¬ (p.rxSt true = 3 ∧ p.inTest true = true) → q = { p with regs := q.regs } ∧ ∀ b, b ∉ [0, 2, 3, 4, 5] → q.word true b = p.word true b)) ∧
    (s.portDoes (.eqCapture r eq) r fun q =>
      q = { p with regs := q.regs, hot := q.hot } ∧ q.word true 8 = F.LNK_EQ_COMM_VALID.put (a.word true 7) 1 ∧ q.g true F.LNK_EQ_CTL_CAPTURE = 0)

/-- The same writes on a manager's port, under the installer's role, over the register bridge; SVC_EN of a manager port.
Cites: 05_plom_links; 06_loops_and_worker_control; 01_system_architecture. -/
def Obligations.ManagerLinkWrites : Prop :=
  ∀ (s : State) (p : Nat) (v : Word) (on : Bool) (eq : EqVals), s.chip.live = true → p < 130 →
    let c := s.chip
    let x := c.port p
    let r : PortRef := .mgr p
    let a := x.adapt false eq.ctle eq.dfe1 eq.dfe2 eq.dfe3
    let fails := min F.LNK_STAT_FAIL_RUN.top (x.g false F.LNK_STAT_FAIL_RUN + 1)
    let cut := x.rxSt false = 2 ∧ x.g false F.LNK_CTL_SVC_EN ≠ on.toNat
    let wait := if cut then some (c.tick + min 1024 (2 ^ (fails - 1)) * 640000) else x.rx.backoff
    let others := fun (d : Chip) => (∀ q, q ≠ p → d.port q = c.port q) ∧ d.bus = ⟨0, false, false⟩ ∧ (d.port p).emptied
    (s.portDoes (.svcEnChange r on) r fun q =>
      q.g false F.LNK_CTL_SVC_EN = on.toNat ∧ q.tx = x.tx ∧ q.rx.lock = x.rx.lock ∧ q.rx.backoff = wait ∧
      (cut → q.g false F.LNK_STAT_TEST_FAIL = 1 ∧ q.g false F.LNK_STAT_FAIL_RUN = fails) ∧
      q.rxSt false = if x.g false F.LNK_CTL_SVC_EN = on.toNat then x.rxSt false
        else if x.locked = false ∨ on = false ∨ x.inTest false = true ∨ wait ≠ none then 0
        else if x.rx.passed then 3 else 1) ∧
    (c.role = .installer → s.managerDoes (.errorInject r v) fun d =>
      d = { c with ports := d.ports, bus := d.bus } ∧ others d ∧
      (∀ b, b ≠ 6 → (d.port p).word false b = x.word false b) ∧ (d.port p).g false F.LNK_INJ_INJ_GO = 1 ∧
      ∀ f ∈ [F.LNK_INJ_INJ_KIND, F.LNK_INJ_INJ_HDR, F.LNK_INJ_INJ_LEN, F.LNK_INJ_INJ_POS], (d.port p).g false f = f.of v) ∧
    (c.role = .installer → s.managerDoes (.testModeSet r v) fun d =>
      d = { c with ports := d.ports, regs := d.regs, hot := d.hot, evt := d.evt, log := d.log, bus := d.bus } ∧ others d ∧
      ∀ f ∈ [F.LNK_CTL_TX_OFF, F.LNK_CTL_TEST, F.LNK_CTL_PRBS31, F.LNK_CTL_LPB_NEAR, F.LNK_CTL_LPB_FAR, F.LNK_CTL_INV_RX, F.LNK_CTL_INV_TX,
        F.LNK_CTL_SVC_EN], (d.port p).g false f = f.of v) ∧
    (c.role = .installer → s.managerDoes (.cntClr r) fun d =>
      others d ∧ (∀ i ∈ [2, 3, 4], (d.port p).word false i = 0) ∧ (d.port p).g false F.LNK_PRBS_PRBS_ERR = 0 ∧
      (d.port p).g false F.LNK_CTL_CNT_CLR = 0 ∧ (p < 128 → p % 2 = 0 → d.word (windowBase p + 0x190) = 0)) ∧
    (c.role = .installer → s.managerDoes (.eqCapture r eq) fun d =>
      others d ∧ (d.port p).word false 8 = F.LNK_EQ_COMM_VALID.put (a.word false 7) 1 ∧ (d.port p).g false F.LNK_EQ_CTL_CAPTURE = 0)

/-- A locked receiver takes IDLE, counts a bad header and a bad control block, and runs the rejoin test; without a signal it
takes nothing. Cites: 05_plom_links. -/
def Obligations.BlockReceived : Prop :=
  ∀ (s : State) (r : PortRef) (bits : BitVec 128) (phase : Nat) (b : Block) (err : Bool) (line : LineRx) (t : RejoinTest), s.portLive r →
    let p := s.thePort r
    let wk := ofWorker r
    let cmd := Instr.blockReceived r bits phase
    let kind := match r with | .mgr m => s.chip.kindOf m | .worker k west => (s.chip.worker k).kindOf west
    let takes := fun (P : Port → Prop) => match r with
      | .mgr m => s.managerDoes cmd fun d => (∀ q, q ≠ m → d.port q = s.chip.port q) ∧ d.workers = s.chip.workers ∧ P (d.port m)
      | .worker k west => s.workerDoes cmd k fun y => (y.port (!west)).regs = ((s.chip.worker k).port (!west)).regs ∧
          y.pixels = (s.chip.worker k).pixels ∧ y.tiles = (s.chip.worker k).tiles ∧ P (y.port west)
    let still := ((lineBits bits).foldl stillRun (p.rx.lastBit, p.rx.still, false)).2.2
    let clear := p.los = false ∧ still = false ∧ p.rx.lock = .locked ∧ p.rx.resid = [] ∧ testMode (p.word wk 0) = 0 ∧ p.g wk F.LNK_CTL_LPB_NEAR = 0 ∧
      p.g wk F.LNK_CTL_LPB_FAR = 0 ∧ p.g wk F.LNK_CTL_INV_RX = 0 ∧ decodeBlock p.rx.line (lineBits bits) = (b, err, line)
    let fails := min F.LNK_STAT_FAIL_RUN.top (p.g wk F.LNK_STAT_FAIL_RUN + 1)
    let failed := fun (q : Port) => q.rxSt wk = 0 ∧ q.rx.test = none ∧ q.g wk F.LNK_STAT_TEST_FAIL = 1 ∧ q.g wk F.LNK_STAT_FAIL_RUN = fails ∧
      q.rx.backoff = some (s.chip.tick + min 1024 (2 ^ (fails - 1)) * 640000)
    let cuts := fun (q : Port) => (p.rxSt wk = 2 → failed q) ∧ (p.rxSt wk ≠ 2 → q.rxSt wk = p.rxSt wk ∧ q.rx.test = p.rx.test)
    let good := fun (q : Port) => q.rx.lock = .locked ∧ q.rx.resid = [] ∧ q.rx.line = line ∧ q.rx.window = (false :: p.rx.window).take 64
    let judged := prbsCheck true t.prbs (beBits 120 b.pay.toNat)
    (p.los = true → p.g wk F.LNK_CTL_LPB_NEAR = 0 → takes fun q => q.regs = p.regs ∧ q.inbox = p.inbox ∧ q.rx.lock = p.rx.lock) ∧
    (p.los = false → p.g wk F.LNK_CTL_LPB_NEAR = 0 → still = true → takes fun q =>
      q.los = true ∧ q.g wk F.LNK_STAT_LOS = 1 ∧ q.rx.lock = .hunt 0 ∧ q.rxSt wk = 0) ∧
    (clear → err = false → b.is .idle = true → b.checkOk = true → takes fun q =>
      good q ∧ (p.rx.framing = .idle → q.inbox = p.inbox) ∧ q.g wk F.LNK_STAT_FAR_ST = b.f 111 110 ∧
      q.rxSt wk = (if p.rxSt wk = 2 then 1 else p.rxSt wk) ∧ (p.rxSt wk = 2 → q.rx.test = none ∧ q.rx.backoff = p.rx.backoff) ∧
      q.farPos = b.pos ∧ q.farPart = b.f 104 89 ∧ q.farRev = b.f 88 81 ∧ q.farSide = b.f 80 79) ∧
    (clear → b.validHdr = false → ((true :: p.rx.window).take 64).count true < 24 → takes fun q =>
      q.inbox = p.inbox ∧ q.rx.lock = .locked ∧ q.rx.line = line ∧ q.rx.window = (true :: p.rx.window).take 64 ∧ cuts q ∧
      q.g wk F.LNK_CNT0_HDR_ERR = satTo F.LNK_CNT0_HDR_ERR (p.g wk F.LNK_CNT0_HDR_ERR) 1) ∧
    (clear → err = false → b.isCtl = true → b.type = none ∨ b.checkOk = false ∨ kind.accepts b = false → takes fun q =>
      good q ∧ cuts q ∧ q.inbox = p.inbox ∧ q.g wk F.LNK_CNT1_CTL_ERR = satTo F.LNK_CNT1_CTL_ERR (p.g wk F.LNK_CNT1_CTL_ERR) 1 ∧
      q.g wk F.LNK_STAT_CTL_ERR_F = 1) ∧
    (clear → err = false → b.isData = true → p.rxSt wk = 1 → takes fun q =>
      good q ∧ q.rxSt wk = 2 ∧ q.rx.test = some ⟨1, (prbsCheck true 0 (beBits 120 b.pay.toNat)).2⟩ ∧ q.inbox = p.inbox) ∧
    (clear → err = false → b.isData = true → p.rxSt wk = 2 → p.rx.test = some t → takes fun q =>
      good q ∧ q.inbox = p.inbox ∧
      (2 ≤ t.got → judged.1 ≠ 0 → failed q) ∧
      (t.got < 2 ∨ judged.1 = 0 → t.got + 1 ≠ 80000 → q.rxSt wk = 2 ∧ q.rx.test = some ⟨t.got + 1, judged.2⟩) ∧
      (judged.1 = 0 → t.got + 1 = 80000 → q.rxSt wk = 3 ∧ q.rx.test = none ∧ q.rx.passed = true ∧ q.g wk F.LNK_STAT_FAIL_RUN = 0))

/-- A worker takes its clock, its position and its commands from its ports, and lets go of a hold on its own. Cites:
06_loops_and_worker_control. -/
def Obligations.WorkerControl : Prop :=
  ∀ (s : State) (w : Nat) (west : Bool) (b rp : Block) (x1 : Worker) (find : Finding), s.alive w →
    let x := s.chip.worker w
    let n := s.chip.tick
    let d := b.f 89 58
    let zero := x.takeDown n west (fun b => b.is .cmd && b.pos == 0)
    let good := b.f 106 106 = 1 ∧ b.f 105 90 = 0x00B ∧ 1 ≤ d ∧ d ≤ 16
    let executes := fun (P : Worker → Prop) => ∃ t, exec (.workerCmdExecute w west find) s = .next t ∧ s.onlyChip t ∧
      t.chip = { s.chip with workers := t.chip.workers, freeIx := s.chip.freeIx + 1 } ∧
      (∀ k, k ≠ w → t.chip.worker k = s.chip.worker k) ∧ P (t.chip.worker w)
    let a := b.f 105 90
    let keeps := fun (y z : Worker) (st v : Nat) =>
      let r := mkReply z.pos st a v (b.f 57 50)
      y = { z with out := { z.out with replies := z.out.replies ++ [⟨r, west⟩] },
                   ctl := { z.ctl with cmds := (⟨b.f 57 50, b.f 106 106 == 1, a, d, r⟩ :: z.ctl.cmds).take 8 } }
    let cmd := x.takeDown n west (fun b => b.is .cmd && b.pos != 0) = some (b, x1)
    let fresh := cmd ∧ x1.storedReply b = none
    let e := x.ctl.lockEast
    let l := x.ctl.lockWest
    let due := fun (m : Option Nat) => m.any (fun t => decide (t + 8 ≤ n))
    let tx := (x.port west).tx
    (x.pos = 0 → x.ctl.clock = none → due e = true ∨ due l = true → s.workerDoes (.wckSelect w) w fun y =>
      y = { x with ctl := { x.ctl with clock := some (e.isNone || (l.isSome && decide (l.getD 0 + 8 < e.getD 0))) } }) ∧
    (x.pos ≠ 0 ∨ x.ctl.clock ≠ none ∨ (due e = false ∧ due l = false) → s.workerDoes (.wckSelect w) w fun y => y = x) ∧
    (x.pos = 0 → zero = some (b, x1) → good → s.workerDoes (.enumerationCommand w west) w fun y =>
      x1.puts y [(F.WK_POS_POS, d), (F.WK_POS_NEAR, west.toNat)] ∧ y.port (!west) = x1.port (!west) ∧
      y.port west = { x1.port west with tx := { (x1.port west).tx with queue := [] } } ∧
      y = { x1 with regs := y.regs, ctl := { x1.ctl with clock := some west, home := west }, east := y.east, west := y.west,
                    out := { x1.out with replies := x1.out.replies ++ [⟨mkReply d 0 0x00B (y.word 0x00B).toNat (b.f 57 50), west⟩] } }) ∧
    (x.pos = 0 → zero = some (b, x1) → ¬ good → s.workerDoes (.enumerationCommand w west) w fun y =>
      x1.puts y [(F.WK_FLAGS_CMD_ERR, 1)] ∧
      y = { x1 with regs := y.regs, hot := y.hot, out := { x1.out with monitor := x1.out.monitor || x1.reports F.WK_FLAGS_CMD_ERR,
                                                                       replies := x1.out.replies ++ [⟨mkReply 0 2 a d (b.f 57 50), west⟩] } }) ∧
    (x.pos ≠ 0 ∨ zero = none → s.workerDoes (.enumerationCommand w west) w fun y => y = x) ∧
    (cmd → x1.storedReply b = some rp → executes fun y => y = { x1 with out := { x1.out with replies := x1.out.replies ++ [⟨rp, west⟩] } }) ∧
    (fresh → b.f 106 106 = 1 → x1.b F.WK_GSTAT_FWD_ONLY = false ∨ a ∈ [0x001, 0x003] ∨ linkAddr a ≠ none → executes fun y =>
      keeps y (x1.writeReg n a (BitVec.ofNat 32 d)) 0 d) ∧
    (fresh → b.f 106 106 = 1 → x1.b F.WK_GSTAT_FWD_ONLY = true → a ∉ [0x001, 0x003] → linkAddr a = none → executes fun y => keeps y x1 3 d) ∧
    (fresh → b.f 106 106 = 0 → executes fun y =>
      let rd := (x1.readFinds n a find).readReg n a (s.chip.free 32).1
      keeps y rd.2 (rd.2.readErr a).toNat rd.1.toNat) ∧
    (fresh → b.f 106 106 = 0 → a = 0x000 → executes fun y => keeps y x1 0 (x1.word 0x000).toNat) ∧
    (x.takeDown n west (fun b => b.is .cmd && b.pos != 0) = none → executes fun y => y = x) ∧
    (x.ctl.lastDown + 8192 ≤ n → s.portDoes (.holdSelfRelease w west) (.worker w west) fun q =>
      q = { x.port west with regs := q.regs, rx := q.rx, inbox := q.inbox, hot := q.hot } ∧ q.g true F.LNK_CTL_SVC_EN = 1 ∧ q.rx.lock = (x.port west).rx.lock ∧
      ((x.port west).g true F.LNK_CTL_SVC_EN = 1 → q.rxSt true = (x.port west).rxSt true)) ∧
    (n < x.ctl.lastDown + 8192 → s.workerDoes (.holdSelfRelease w west) w fun y => y = x) ∧
    (s.workerDoes (.gridSlewEnd w west) w fun y =>
      y = { x with east := y.east, west := y.west } ∧ y.port (!west) = x.port (!west) ∧
      y.port west = { x.port west with tx := if tx.gridNow n = tx.gridTo then { tx with grid := tx.gridTo, gridAt := n } else tx })

/-- Beacons set, adjust or check a worker's frame; probes are echoed; P slews; a silent beacon is reported once. Cites:
07_meridian_time; 06_loops_and_worker_control. -/
def Obligations.WorkerTime : Prop :=
  ∀ (s : State) (w : Nat) (west : Bool) (b : Block) (x1 : Worker) (sub : Nat) (o : OldSide), s.alive w →
    let x := s.chip.worker w
    let n := s.chip.tick
    let got := x.takeDown n west (fun b => b.is .beacon && b.form == 0) = some (b, x1)
    let used := got ∧ x1.ctl.clock = some west
    let t : Int := x1.now n + sub
    let cnt : Int := 800 * b.f 103 56
    let adj := signedOf 20 (b.f 55 36)
    let off := circleDiff t cnt
    let heard := fun (m : WTime) => { m with lastBeacon := n, missRaised := false }
    let drift := (x1.time.expect - x1.time.slew) - off
    let stepped := fun (y : Worker) => y.out = { x1.out with timeRef := some 3, monitor := x1.out.monitor || x1.reports F.WK_FLAGS_CNT_STEP }
    let at' := (x1.now n + sub) % (800 * 2 ^ 48)
    let up : Int := if 0 < x.time.slew then 1 else -1
    (got → x1.ctl.clock ≠ some west → s.workerDoes (.beaconReceived w west sub) w fun y => y = x1) ∧
    (used → b.f 104 104 = 1 → b.pos ≠ 0x1F → x1.running = false → s.workerDoes (.beaconReceived w west sub) w fun y =>
      y = { x1 with regs := y.regs, hot := y.hot, out := y.out, time := y.time } ∧ x1.puts y [(F.WK_GSTAT_CNT_SET, 1), (F.WK_FLAGS_CNT_STEP, 1)] ∧ stepped y ∧
      y.time = heard { x1.time with frame := x1.time.frame + (cnt + adj - t), expect := adj, slew := 0, valid := true, slewFrom := n }) ∧
    (used → b.f 104 104 = 1 → b.pos = 0x1F ∨ x1.running = true → s.workerDoes (.beaconReceived w west sub) w fun y => y = x1) ∧
    (used → b.f 104 104 ≠ 1 → b.pos ≠ 0x1F → x1.b F.WK_GSTAT_CNT_SET = true → s.workerDoes (.beaconReceived w west sub) w fun y =>
      y = { x1 with time := heard { x1.time with slew := x1.time.slew + adj, expect := off + (x1.time.slew + adj), valid := true,
                                                 slewFrom := if adj = 0 then x1.time.slewFrom else n } }) ∧
    (used → b.f 104 104 ≠ 1 → b.pos ≠ 0x1F → x1.b F.WK_GSTAT_CNT_SET = false → s.workerDoes (.beaconReceived w west sub) w fun y => y = x1) ∧
    (used → b.f 104 104 ≠ 1 → b.pos = 0x1F → x1.time.valid = false ∨ drift.natAbs < 400 → s.workerDoes (.beaconReceived w west sub) w fun y =>
      y = { x1 with time := heard x1.time }) ∧
    (used → b.f 104 104 ≠ 1 → b.pos = 0x1F → x1.time.valid = true → 400 ≤ drift.natAbs → s.workerDoes (.beaconReceived w west sub) w fun y =>
      y = { x1 with regs := y.regs, hot := y.hot, out := y.out, time := y.time } ∧ x1.puts y [(F.WK_FLAGS_CNT_STEP, 1)] ∧ stepped y ∧
      y.time = heard { x1.time with frame := x1.time.frame + drift }) ∧
    (x.takeDown n west (fun b => b.is .beacon && b.form == 0) = none → s.workerDoes (.beaconReceived w west sub) w fun y => y = x) ∧
    (x.takeDown n west (fun b => b.is .beacon && b.form == 2) = some (b, x1) → s.workerDoes (.probeReceived w west sub) w fun y =>
      y = { x1 with out := { x1.out with replies := x1.out.replies ++ [⟨mkEcho x1.pos (b.f 103 88) (at' / 800) (at' % 800) 0, west⟩] } }) ∧
    (x.takeDown n west (fun b => b.is .beacon && b.form == 2) = none → s.workerDoes (.probeReceived w west sub) w fun y => y = x) ∧
    (x.time.slew ≠ 0 → x.time.slewFrom + 4096 ≤ n → s.workerDoes (.slewStep w) w fun y =>
      y = { x with time := { x.time with slew := x.time.slew - up, frame := x.time.frame + up, slewFrom := x.time.slewFrom + 4096 } }) ∧
    (x.time.slew = 0 ∨ n < x.time.slewFrom + 4096 → s.workerDoes (.slewStep w) w fun y => y = x) ∧
    (x.time.missRaised = false → x.time.lastBeacon + 2 ^ 20 ≤ n → s.workerDoes (.beaconMiss w) w fun y =>
      y = { x with regs := y.regs, hot := y.hot, time := { x.time with missRaised := true },
                   out := { x.out with monitor := x.out.monitor || x.reports F.WK_FLAGS_BEACON_MISS } } ∧ x.puts y [(F.WK_FLAGS_BEACON_MISS, 1)]) ∧
    (x.time.missRaised = true ∨ n < x.time.lastBeacon + 2 ^ 20 → s.workerDoes (.beaconMiss w) w fun y => y = x) ∧
    (x.ctl.old = some o → x.pktOn o.west = none → o.blocks = [] → o.fwd = none → (x.port o.west).segUp true = true → s.workerDoes (.epochEndSend w) w fun y =>
      y = { x with ctl := { x.ctl with old := none }, east := y.east, west := y.west } ∧
      y.port o.west = (x.port o.west).send true (mkEpochEnd x.pos o.epoch) ∧ y.port (!o.west) = x.port (!o.west)) ∧
    (x.ctl.old = none ∨ (x.ctl.old = some o ∧ (x.pktOn o.west ≠ none ∨ o.blocks ≠ [] ∨ o.fwd ≠ none ∨ (x.port o.west).segUp true = false)) →
      s.workerDoes (.epochEndSend w) w fun y => y = x)

/-- A wrong test record or a voter starts forward-only fallback, which stops the worker and answers its marks; three passes
end it. Cites: 06_loops_and_worker_control. -/
def Obligations.ForwardOnly : Prop :=
  ∀ (s : State) (w : Nat) (one : Bool), s.alive w →
    let x := s.chip.worker w
    let vote := fun (d : Bool) => if d then [(F.WK_FLAGS_VOTE_ERR, 1)] else []
    let report := fun (d : Bool) => x.out.monitor || (d && x.reports F.WK_FLAGS_VOTE_ERR)
    let fell := fun (d : Bool) (y : Worker) =>
      y = { x with regs := y.regs, hot := y.hot, tiles := y.tiles, east := y.east, west := y.west, marks := y.marks, ctl := { x.ctl with passes := 0 },
                   out := { x.out with oq := [], pkts := [], sights := [], monitor := report d || x.reports F.WK_FLAGS_SELF_FAULT } } ∧
      x.puts y (vote d ++ [(F.WK_GSTAT_FWD_ONLY, 1), (F.WK_FLAGS_SELF_FAULT, 1), (F.WK_GCTL_EN, 0), (F.WK_GSTAT_RUNNING, 0)]) ∧
      y.marks.queue = [] ∧ y.marks.serving = none ∧
      (∀ tr ∈ x.marks.trailers, tr ∈ y.marks.trailers) ∧
      (∀ m ∈ x.marks.queue, (⟨m.id, 0, 4, m.west⟩ : Trailer) ∈ y.marks.trailers) ∧
      (∀ p ∈ x.out.pkts, p.serves = false → ∀ tr, p.trailer = some tr → tr ∈ y.marks.trailers) ∧
      (∀ sv, x.marks.serving = some sv → ∃ tr ∈ y.marks.trailers, tr.id = sv.mark.id ∧ tr.status = 4 ∧ tr.west = sv.mark.west ∧
        (x.out.pkts.countP (·.serves) ≤ 1 → sv.part < 16 → tr.part = (sv.part + x.out.pkts.countP (·.serves)) % 16)) ∧
      (∀ u, u < 64 → y.tile u = { x.tile u with fifo := [], ring := [], ovwT := none }) ∧
      ∀ v, (x.pktOn v = none → y.port v = x.port v) ∧
        ∀ p, x.out.pkts.filter (fun p => p.west == v) = [p] → y.port v = (if (x.port v).segUp true then
          (x.port v).send true (mkPktEnd x.pos true p.sent (Nat.xor p.crc 0xFFFFFFFF)) else x.port v)
    let anew := fun (d : Bool) (y : Worker) =>
      y = { x with regs := y.regs, hot := y.hot, ctl := { x.ctl with passes := 0 }, out := { x.out with monitor := report d } } ∧ x.puts y (vote d)
    let n := x.ctl.passes + 1
    (x.b F.WK_GSTAT_FWD_ONLY = false → s.workerDoes (.voteFault w) w (fell false)) ∧
    (x.b F.WK_GSTAT_FWD_ONLY = false → s.workerDoes (.selfCheck w one true) w (fell one)) ∧
    (x.b F.WK_GSTAT_FWD_ONLY = true → s.workerDoes (.voteFault w) w (anew false)) ∧
    (x.b F.WK_GSTAT_FWD_ONLY = true → s.workerDoes (.selfCheck w one true) w (anew one)) ∧
    (s.workerDoes (.selfCheck w one false) w fun y =>
      y = { x with regs := y.regs, hot := y.hot, ctl := { x.ctl with passes := if x.b F.WK_GSTAT_FWD_ONLY = true ∧ 3 ≤ n then 0 else n },
                   out := { x.out with monitor := report one } } ∧
      x.puts y (vote one ++ (if x.b F.WK_GSTAT_FWD_ONLY = true ∧ 3 ≤ n then [(F.WK_GSTAT_FWD_ONLY, 0)] else [])))

/-- A pair's enumeration frees its slots, waits for service and sends positions in order; a worker's answer gives it its
slot. Cites: 06_loops_and_worker_control. -/
def Obligations.Enumeration : Prop :=
  ∀ (s : State) (n p k t : Nat) (l : List Nat) (b : Block) (c1 : Chip) (o : CmdOut), s.chip.live = true → n < 64 → p < 128 →
    let c := s.chip
    let enumCmd := fun (k : Nat) => mkOut 0 true 0x00B k (.enum k)
    let cfg := c.pairCfg n
    let ready := (cfg ≠ 3 → c.up (2 * n) = true) ∧ (cfg = 3 ∨ cfg = 4 → c.up (2 * n + 1) = true)
    let waits := cfg ≠ 0 ∧ (c.pair n).enum = .waiting t
    let listed := fun (k : Nat) => (c.chainSlots (2 * n) ++ c.chainSlots (2 * n + 1)).contains k && (wkEntry c.work k).isSome
    let able := (c.pair (p / 2)).enum = .done ∧ c.portUsed p = true ∧ ∀ q ∈ (c.engine p).out, ∀ j, q.tag ≠ .enum j
    let got := c.takeIn p (fun b => b.is .reply) = some (b, c1)
    let other := if p % 2 = 0 then p + 1 else p - 1
    let due := (c.engine p).out.find? (fun o => decide (o.due ≤ c.tick))
    (cfg = 0 → s.managerDoes (.enumeratePair n) (· = c)) ∧
    (cfg ≠ 0 → (c.pair n).enum = .idle → s.managerDoes (.enumeratePair n) fun d =>
      c.loopFrame d ∧ d.pair n = { Pair.init with enum := .waiting c.tick } ∧
      (∀ q ∈ [2 * n, 2 * n + 1], c.portUsed q = true → (d.port q).g false F.LNK_CTL_SVC_EN = 1) ∧
      (∀ f ∈ [F.PRT_LOOP_STAT_ENUM_DONE, F.PRT_LOOP_STAT_FOUND_EVEN, F.PRT_LOOP_STAT_FOUND_ODD], d.g (pairFld f n) = 0) ∧
      ∀ i, i < 16 → d.sg F.PRT_SLOT_SERVE (16 * n + i) = 3 ∧ d.sg F.PRT_SLOT_STATE (16 * n + i) = (listed (16 * n + i)).toNat ∧
        ∀ f ∈ [F.PRT_SLOT_POS, F.PRT_SLOT_NEAR, F.PRT_SLOT_EPOCH, F.PRT_SLOT_DRAIN], d.sg f (16 * n + i) = 0) ∧
    (waits → ¬ ready → c.tick < t + 1280000 → s.managerDoes (.enumeratePair n) (· = c)) ∧
    (waits → ready ∨ t + 1280000 ≤ c.tick → 1 ≤ c.chainLen (2 * n) →
      s.managerDoes (.enumeratePair n) fun d => c.loopFrame d ∧ (d.pair n).enum = .fromEven 1 ∧ c.sends d (2 * n) (enumCmd 1)) ∧
    (waits → ready ∨ t + 1280000 ≤ c.tick → c.chainLen (2 * n) = 0 → c.isLoop n = false → 1 ≤ c.chainLen (2 * n + 1) →
      s.managerDoes (.enumeratePair n) fun d => c.loopFrame d ∧ (d.pair n).enum = .fromOdd 1 0 ∧ c.sends d (2 * n + 1) (enumCmd 1)) ∧
    (¬ able ∨ c.unseenFor p = [] → s.managerDoes (.unseenReenumerate p) (· = c)) ∧
    (able → c.unseenFor p = k :: l → s.managerDoes (.unseenReenumerate p) fun d =>
      c.loopFrame d ∧ c.sends d p (enumCmd k) ∧ (if p % 2 = 1 then (d.pair (p / 2)).retryOdd = l else (d.pair (p / 2)).retryEven = l)) ∧
    (c.takeIn p (fun b => b.is .reply) = none → s.managerDoes (.replyReceived p) (· = c)) ∧
    (got → (c.engine p).out.find? (matches_ b) = none → (c.engine other).out.find? (matches_ b) = none → s.managerDoes (.replyReceived p) (· = c1)) ∧
    (got → (c.engine p).out.find? (matches_ b) = some o → o.tag = .enum k → b.f 106 104 = 0 → ∀ sl, c.slotAt p k = some sl →
      c.sg F.PRT_SLOT_STATE sl ≠ 7 → s.managerDoes (.replyReceived p) fun d =>
        c.loopFrame d ∧ d.sg F.PRT_SLOT_POS sl = k ∧ d.sg F.PRT_SLOT_NEAR sl = F.WK_POS_NEAR.of (BitVec.ofNat 32 (b.f 87 56)) ∧
        d.sg F.PRT_SLOT_EPOCH sl = 0 ∧ d.sg F.PRT_SLOT_DRAIN sl = 0) ∧
    (due = none → s.managerDoes (.replyTimeout p) (· = c)) ∧
    (due = some o → (c.pair (p / 2)).move = none → o.pos ≠ 0x1F → o.tries ≤ c.retry p → s.managerDoes (.replyTimeout p) fun d =>
      d = { c with eng := d.eng, ports := d.ports } ∧ (∀ q, q ≠ p → d.engine q = c.engine q) ∧
      d.engine p = { c.engine p with out := (c.engine p).out.map (fun y => if y = o then { o with due := c.tick + c.replyTo p, tries := o.tries + 1 } else y) } ∧
      ∃ q, q / 2 = p / 2 ∧ (∀ r, r ≠ q → d.port r = c.port r) ∧ c.queues d q o.block)

/-- GO of PRT_CMD sends its CMD, or ends at once when no segment carries it; a reply or the last time-out ends it. Cites:
06_loops_and_worker_control. -/
def Obligations.CommandEngine : Prop :=
  ∀ (s : State) (p pos sl k : Nat) (v : Word) (b : Block) (c1 : Chip) (o : CmdOut) (t : Txn), s.chip.live = true → p < 128 →
    let c := s.chip
    let f := fun (x : Fld) => portFld x p
    let ok : BusRes := ⟨0, false, false⟩
    let free := (c.engine p).txn = none ∧ c.g (f F.PRT_CMD_GO) = 0
    let enables := F.PRT_CMD_WR.of v = 1 ∧ F.PRT_CMD_ADDR.of v = 0x001
    let final := (c.engine p).txn = some t ∧ t.phase = .writing k ∧ t.todo = [] ∧ t.denied = false ∧ t.refused = false ∧
      t.bad = none ∧ (c.engine p).wait = [] ∧ o.tag = .prt ∧ o.pos ≠ 0x1F
    let ended := fun (d : Chip) => d.engine p = { c.engine p with out := (c.engine p).out.erase o, txn := none } ∧
      ∀ q, q ≠ p → d.engine q = c.engine q
    let timed := c.event 48 p
    (¬ free → s.managerDoes (.prtCmdGo p v) fun d =>
      d = { c with regs := d.regs, bus := ok } ∧ c.regsBut d (· == windowBase p + 0x100) ∧ d.g (f F.PRT_CMD_GO) = 1 ∧
      ∀ x ∈ [F.PRT_CMD_WR, F.PRT_CMD_POS, F.PRT_CMD_ADDR], d.g (f x) = x.of v) ∧
    (free → c.up p = false → ¬ enables → s.managerDoes (.prtCmdGo p v) fun d =>
      d = { c with regs := d.regs, eng := d.eng, bus := ok } ∧ (∀ q, d.engine q = c.engine q) ∧
      d.g (f F.PRT_CMD_RSLT_RESULT) = 3 ∧ d.g (f F.PRT_CMD_RSLT_STATUS) = 0 ∧ d.g (f F.PRT_CMD_RSLT_DONE) = 1 ∧ d.g (f F.PRT_CMD_GO) = 0 ∧
      c.regsBut d (fun b => b == windowBase p + 0x100 || b == windowBase p + 0x108)) ∧
    (free → (c.pair (p / 2)).move = none → F.PRT_CMD_POS.of v = pos → pos ≠ 0 → pos ≠ 0x1F → F.PRT_CMD_WR.of v = 0 → c.slotAt p pos = some sl →
      c.sg F.PRT_SLOT_STATE sl ∉ [1, 6, 7] → c.up p = true → s.managerDoes (.prtCmdGo p v) fun d =>
        c.loopFrame { d with bus := c.bus } ∧ d.bus = ok ∧ d.g (f F.PRT_CMD_RSLT_DONE) = 0 ∧ d.g (f F.PRT_CMD_GO) = 1 ∧
        (d.engine p).txn ≠ none ∧ c.sends d p (mkOut pos false (F.PRT_CMD_ADDR.of v) (c.g (f F.PRT_CMD_WDATA_WDATA)) .prt)) ∧
    (c.takeIn p (fun b => b.is .reply) = some (b, c1) → (c.engine p).out.find? (matches_ b) = some o → final → ¬ (t.wr = true ∧ t.addr = 0x001) →
      b.f 106 104 = 0 → s.managerDoes (.replyReceived p) fun d =>
        d = { c1 with regs := d.regs, eng := d.eng, slots := d.slots } ∧ ended d ∧
        c.puts d [(f F.PRT_CMD_RDATA_RDATA, b.f 87 56), (f F.PRT_CMD_RSLT_SEQ, o.seq), (f F.PRT_CMD_RSLT_TRIES, o.tries),
          (f F.PRT_CMD_RSLT_NREPLY, satTo (f F.PRT_CMD_RSLT_NREPLY) (c.g (f F.PRT_CMD_RSLT_NREPLY)) 1), (f F.PRT_CMD_RSLT_RESULT, 0),
          (f F.PRT_CMD_RSLT_STATUS, 0), (f F.PRT_CMD_RSLT_DONE, 1), (f F.PRT_CMD_GO, 0)]) ∧
    ((c.engine p).out.find? (fun o => decide (o.due ≤ c.tick)) = some o → (c.pair (p / 2)).move = none → final → c.retry p < o.tries →
      s.managerDoes (.replyTimeout p) fun d =>
        d = { timed with regs := d.regs, eng := d.eng } ∧ ended d ∧
        timed.puts d [(f F.PRT_CMD_RSLT_SEQ, o.seq), (f F.PRT_CMD_RSLT_TRIES, o.tries), (f F.PRT_CMD_RSLT_RESULT, 1),
          (f F.PRT_CMD_RSLT_STATUS, 0), (f F.PRT_CMD_RSLT_DONE, 1), (f F.PRT_CMD_GO, 0)])

/-- A planned move starts, is refused with MOVE_ERR, or ends at once; a failed segment fails over; probes, echoes and rates
follow. Cites: 06_loops_and_worker_control; 07_meridian_time. -/
def Obligations.SplitMoves : Prop :=
  ∀ (s : State) (n slot p age j t sl kTx v : Nat) (b : Block) (c1 : Chip) (q : ProbeOut) (m : MoveSt), s.chip.live = true → n < 64 → slot < 1024 → p < 128 →
    let c := s.chip
    let sp := c.split n
    let tgt := c.g (pairFld F.PRT_LOOP_MOVE_TARGET n)
    let go := pairFld F.PRT_LOOP_MOVE_GO n
    let moving := pairFld F.PRT_LOOP_STAT_MOVING n
    let done := c.b (pairFld F.PRT_LOOP_STAT_ENUM_DONE n) = true
    let ready := c.isLoop n = true ∧ done ∧ (c.pair n).move = none
    let asked := ready ∧ c.g go = 1 ∧ ((c.pair n).lastMove = 0 ∨ (c.pair n).lastMove + c.rebalInt n ≤ c.tick)
    let may := tgt ≤ c.nEven n ∧ c.nEven n ≠ 1 ∧ c.moveAllowed n sp tgt = true
    let said := (c.flag (pairFld F.PRT_LOOP_STAT_MOVE_ERR n) 66 (2 * n)).logAct (2 * n) sp tgt
    let fo : MoveSt := ⟨true, sp, j, j, true, .waitUp, t, false⟩
    let x := c.slot slot
    let silent := c.sg F.PRT_SLOT_STATE slot = 4 ∧ x.lastSeen + 6400 * max 52 (c.g (pairFld F.PRT_LOOP_TIM_LIVE_TO (slot / 16))) ≤ c.tick ∧ x.probe = none
    let odd := decide (c.sg F.PRT_SLOT_SERVE slot = 1)
    let k := c.posOf slot
    let qp := 2 * (slot / 16) + q.odd.toNat
    let h := c.segKey qp (if q.odd = true ∧ c.isLoop (slot / 16) = true then k else k - 1)
    let spent := x.probe = some q ∧ q.due ≤ c.tick ∧ c.retry qp < q.tries
    let y := c.slot sl
    let echo := c.takeIn p (fun b => b.is .beacon && b.form == 2 && b.f 104 104 == 1) = some (b, c1) ∧ c.slotAt p b.pos = some sl ∧
      y.probe = some q ∧ q.kTx = some kTx
    let side : Bool := q.odd && c.isLoop (sl / 16)
    let rt : Int := ((c.fine : Int) - age - 800 * kTx) - (800 * (b.f 29 10 : Int) - b.f 39 30)
    let balanced := c.isLoop n = true ∧ c.g (pairFld F.PRT_LOOP_CFG_POLICY n) = 1 ∧ limFlag c.work limBalance = true ∧ sp ≠ 0x1F ∧
      (c.pair n).rebalAt + c.rebalInt n ≤ c.tick
    let turnDst := if m.fromOdd then k else k - 1
    (asked → ¬ may → s.managerDoes (.plannedMove n) fun d => d = { said with regs := d.regs } ∧ said.puts d [(go, 0)]) ∧
    (asked → may → sp = tgt → s.managerDoes (.plannedMove n) fun d => d = { c with regs := d.regs } ∧ c.puts d [(go, 0)]) ∧
    (asked → may → sp ≠ tgt → s.managerDoes (.plannedMove n) fun d =>
      c.loopFrame d ∧ d.g moving = 1 ∧ (d.pair n).move = some ⟨false, sp, tgt, tgt, false, .waitUp, c.tick, true⟩ ∧
      (d.pair n).heldSegs = (c.pair n).heldSegs.erase sp) ∧
    (¬ (c.isLoop n = true ∧ done) → (c.pair n).move = none → c.g go = 1 → s.managerDoes (.plannedMove n) (· = c)) ∧
    (c.isLoop n = true → ¬ done ∨ (c.nEven n ≠ 1 ∧ c.failedSeg n = none) → s.managerDoes (.failOver n) (· = c)) ∧
    (ready → c.nEven n ≠ 1 → c.failedSeg n = some (j, t) → s.managerDoes (.failOver n) fun d =>
      c.loopFrame d ∧ d.g moving = 1 ∧ (d.pair n).move = some fo ∧ j ∈ (d.pair n).heldSegs ∧ sp ∉ (d.pair n).heldSegs ∧
      ∀ i, i < 16 → fo.holds (i + 1) = true → c.sg F.PRT_SLOT_STATE (16 * n + i) ∈ [2, 3, 4, 5] →
        d.sg F.PRT_SLOT_STATE (16 * n + i) = 6 ∧ (d.slot (16 * n + i)).saved = c.sg F.PRT_SLOT_STATE (16 * n + i)) ∧
    (ready → c.nEven n = 1 → c.onePlace n = some (t, v) → c.enumerated (16 * n) = true → c.sg F.PRT_SLOT_STATE (16 * n) ≠ 7 →
      s.managerDoes (.failOver n) fun d => c.loopFrame d ∧ d.split n = t ∧ d.sg F.PRT_SLOT_SERVE (16 * n) = v) ∧
    (¬ silent → s.managerDoes (.livenessTimeout slot) (· = c)) ∧
    (silent → s.managerDoes (.livenessTimeout slot) fun d =>
      d = { c with slots := d.slots, ports := d.ports } ∧ c.probes d slot odd false true 1 ∧ ∀ i, i ≠ slot → d.slot i = c.slot i) ∧
    (x.probe = none ∨ (x.probe = some q ∧ c.tick < q.due) → s.managerDoes (.probeTimeout slot) (· = c)) ∧
    (x.probe = some q → q.due ≤ c.tick → q.tries ≤ c.retry qp → s.managerDoes (.probeTimeout slot) fun d =>
      d = { c with slots := d.slots, ports := d.ports } ∧ c.probes d slot q.odd q.turning q.live (q.tries + 1) ∧ ∀ i, i ≠ slot → d.slot i = c.slot i) ∧
    (spent → c.sg F.PRT_SLOT_STATE slot ≠ 7 → q.turning = false → q.live = true → s.managerDoes (.probeTimeout slot) fun d =>
        d = { c with slots := d.slots, pairs := d.pairs } ∧ d.slot slot = { x with probe := none } ∧ (∀ i, i ≠ slot → d.slot i = c.slot i) ∧
        d.segFailed (slot / 16) h = true ∧ ∀ i, i ≠ slot / 16 → d.pair i = c.pair i) ∧
    (spent → c.sg F.PRT_SLOT_STATE slot = 7 → s.managerDoes (.probeTimeout slot) fun d =>
        c.loopFrame d ∧ (d.slot slot).probe = none ∧ d.sg F.PRT_SLOT_POS slot = 0 ∧ c.sends d qp (mkOut 0 true 0x00B k (.enum k))) ∧
    (spent → c.sg F.PRT_SLOT_STATE slot ≠ 7 → q.turning = true → (c.pair (slot / 16)).move = some m → m.step = .turning k →
      s.managerDoes (.probeTimeout slot) fun d => c.loopFrame { d with wake := c.wake } ∧ (d.slot slot).probe = none ∧
        (d.pair (slot / 16)).move = none ∧ d.g (pairFld F.PRT_LOOP_STAT_MOVING (slot / 16)) = 0 ∧ d.split (slot / 16) = turnDst % 32) ∧
    (c.takeIn p (fun b => b.is .beacon && b.form == 2 && b.f 104 104 == 1) = none → s.managerDoes (.echoReceived p age) (· = c)) ∧
    (echo → q.tag ≠ b.f 103 88 → s.managerDoes (.echoReceived p age) (· = c1)) ∧
    (echo → q.tag = b.f 103 88 → q.odd = decide (p % 2 = 1) → q.turning = false → c.sg F.PRT_SLOT_STATE sl ≠ 7 →
      s.managerDoes (.echoReceived p age) fun d =>
        c.loopFrame { d with mer := c.mer } ∧ (d.slot sl).probe = none ∧ (d.slot sl).lastSeen = c.tick ∧
        (d.slot sl).samples = min 255 (y.samples + 1) ∧
        (y.samples < 8 → (if side then y.rtOdd else y.rtEven) = none → (if side then (d.slot sl).rtOdd else (d.slot sl).rtEven) = some rt)) ∧
    (¬ balanced → s.managerDoes (.rebalanceCheck n) (· = c)) ∧
    (balanced → s.managerDoes (.rebalanceCheck n) fun d => c.loopFrame d ∧ (d.pair n).rebalAt = c.tick ∧ ∀ i, i < 16 → (d.slot (16 * n + i)).recs = 0)

/-- Holds are kept alive, a worker out of reach is LOST and its return is probed, drains end, and LIMITS bound trims and
masks. Cites: 06_loops_and_worker_control; 02_worker_pixel_front_end; 10_chart_bitstream. -/
def Obligations.LostWorkers : Prop :=
  ∀ (s : State) (slot a t rate idle : Nat) (odd on : Bool) (us : List (Nat × Nat)), s.chip.live = true → slot < 1024 →
    let c := s.chip
    let n := slot / 16
    let x := c.slot slot
    let k := c.posOf slot
    let state := c.sg F.PRT_SLOT_STATE slot
    let out := fun (h : Nat) => c.segFailed n h || (h == 0 && !c.up (2 * n)) || (h == c.nEven n && !c.up (2 * n + 1))
    let gone := c.isLoop n = true ∧ c.enumerated slot = true ∧ state ≠ 7 ∧ out (k - 1) = true ∧ out k = true
    let h := if odd then k else k - 1
    let node := if odd then k + 1 else k - 1
    let locked := (c.pair n).relocked.contains h || (node == 0 && (c.port (2 * n)).locked) || (node == c.nEven n + 1 && (c.port (2 * n + 1)).locked)
    let idleLost := state = 7 ∧ x.probe = none ∧ (c.pair n).move = none
    let back := idleLost ∧ (c.pair n).returning = none ∧ locked = true
    let edge := node = 0 ∨ node = c.nEven n + 1
    let served := (node = 0 → c.up (2 * n) = true) ∧ (node ≠ 0 → c.up (2 * n + 1) = true)
    let open_ := c.sg F.PRT_SLOT_DRAIN slot = 1 ∧ x.drainEnd ≤ c.tick
    let exp := pairFld F.PRT_EPOCH_STAT_DRAIN_EXP n
    let may := c.trimmable slot = true
    let masks := may ∧ limFlag c.work limMaskAuto = true ∧ a < 16384 ∧
      (if on then x.autoMask.contains a = false ∧ limNoisyRate c.work < rate ∧ x.autoMask.length < limMaskMax c.work else x.autoMask.contains a = true)
    let reads := fun (d : Chip) (adr : Nat) (tag : CmdTag) => ∀ p, c.servePort slot = some p →
      ∃ o ∈ (d.engine p).out ++ (d.engine p).wait, o.pos = k ∧ o.wr = false ∧ o.addr = adr ∧ o.tag = tag
    let off := x.autoPg.filter (fun u => (c.worker slot).g (F.TILE_AFE_PG.ix 4 u) = 1)
    let sleepy := may ∧ limFlag c.work limTilePg = true ∧ t < 64 ∧ limPgIdle c.work ≤ idle ∧ off.length < limPgMax c.work ∧ off.contains t = false
    let cycle := may ∧ limFlag c.work limTrimAuto = true ∧ ∀ at_, x.trimAt = some at_ → at_ + max 1 (limTrimInt c.work) * 640000000 ≤ c.tick
    let keeps := x.keepAt + 2048 ≤ c.tick ∧ c.holdsAt slot ≠ [] ∧ state ≠ 6 ∧ state ≠ 7
    let upd := c.trimUpdates slot us
    let blocks := (List.range ((upd.length + 3) / 4)).map (fun i => mkTrim k (((upd.drop (4 * i)).take 4).map (fun u => trimUpd u.1 false u.2.1)))
    (¬ keeps → s.managerDoes (.keepaliveRead slot) (· = c)) ∧
    (keeps → s.managerDoes (.keepaliveRead slot) fun d =>
      c.loopFrame d ∧ (d.slot slot).keepAt = c.tick ∧ ∀ adr ∈ c.holdsAt slot, reads d adr .keep) ∧
    (¬ gone → s.managerDoes (.workerLost slot) (· = c)) ∧
    (gone → s.managerDoes (.workerLost slot) fun d =>
      d.sg F.PRT_SLOT_STATE slot = 7 ∧ d.sg F.PRT_SLOT_SERVE slot = 3 ∧ d.workers = c.workers ∧ d.mer = c.mer ∧ d.hk = c.hk ∧ d.work = c.work ∧
      (k - 1) ∈ (d.pair n).heldSegs ∧ k ∈ (d.pair n).heldSegs) ∧
    (¬ idleLost ∨ ((c.pair n).returning ≠ some h ∧ ¬ back) → s.managerDoes (.lostWorkerReturn slot odd) (· = c)) ∧
    (back → s.managerDoes (.lostWorkerReturn slot odd) fun d =>
      c.loopFrame d ∧ (d.pair n).heldSegs = (c.pair n).heldSegs.erase h ∧ d.segFailed n h = false ∧ (d.pair n).returning = some h) ∧
    (idleLost → (c.pair n).returning = some h → edge → served → s.managerDoes (.lostWorkerReturn slot odd) fun d =>
      c.loopFrame d ∧ (d.slot slot).probe.isSome = true ∧ (d.slot slot).lastProbe = c.tick ∧ (d.pair n).returning = none) ∧
    (idleLost → (c.pair n).returning = some h → edge → ¬ served → s.managerDoes (.lostWorkerReturn slot odd) (· = c)) ∧
    (idleLost → (c.pair n).returning = some h → ¬ edge → s.managerDoes (.lostWorkerReturn slot odd) fun d =>
      c.loopFrame d ∧ ∀ p, c.servePort (16 * n + node - 1) = some p → ∃ o ∈ (d.engine p).out ++ (d.engine p).wait,
        o.pos = node ∧ o.wr = false ∧ o.addr = c.facing (16 * n + node - 1) h + 1 ∧ o.tag = .linkChk h) ∧
    (¬ open_ → s.managerDoes (.drainTimeout slot) (· = c)) ∧
    (open_ → s.managerDoes (.drainTimeout slot) fun d =>
      d = { c.event 76 slot with regs := d.regs } ∧ (c.event 76 slot).puts d [(slotFld F.PRT_SLOT_DRAIN slot, 0), (exp, satTo exp (c.g exp) 1)]) ∧
    (masks → s.managerDoes (.noisyPixelMask slot a on rate) fun d =>
      c.loopFrame d ∧ (d.slot slot).autoMask = (if on then x.autoMask ++ [a] else x.autoMask.erase a) ∧ reads d (0x1000 + a) (.maskRead on)) ∧
    (¬ masks → s.managerDoes (.noisyPixelMask slot a on rate) (· = c)) ∧
    (sleepy → s.managerDoes (.tilePowerDown slot t (.limits idle)) fun d =>
      c.loopFrame d ∧ (d.slot slot).autoPg = off ++ [t] ∧ reads d (0x301 + 4 * t) .pgRead) ∧
    (¬ sleepy → s.managerDoes (.tilePowerDown slot t (.limits idle)) (· = c)) ∧
    (cycle → s.managerDoes (.trimUpdateCycle slot us) fun d => c.loopFrame d ∧ (d.slot slot).trimAt = some c.tick ∧
      ∀ p, c.servePort slot = some p → c.heldBack slot = false → c.up p = true → (d.port p).tx.queue = (c.port p).tx.queue ++ blocks) ∧
    (¬ cycle → s.managerDoes (.trimUpdateCycle slot us) (· = c))

/-- A source that fails leaves fix for reckoning with its flag and events; corrections are slewed during a run and stepped
outside it. Cites: 07_meridian_time. -/
def Obligations.MeridianSources : Prop :=
  ∀ (s : State) (sub sel missed : Nat) (rising : Bool) (freq : Int) (v : Word), s.chip.live = true →
    let c := s.chip
    let m := c.mer
    let src := c.g F.MER_STAT_SRC
    let st := c.g F.MER_STAT_STATE
    let same := fun (d : Chip) => d.mer.ofs = m.ofs ∧ d.mer.slew = m.slew
    let lost := fun (d : Chip) => c.merFrame d ∧ same d ∧ d.mer.srcValid = false ∧ d.mer.goodRun = 0 ∧ d.g F.MER_STAT_SRC_FAULT = 1 ∧
      d.pend 84 = true ∧ d.g F.MER_STAT_STATE = (if st = 2 then 1 else st) ∧
      (st = 2 → d.mer.reckFrom = c.tick ∧ d.mer.lastFix = c.tick ∧ d.g F.MER_STAT_STATE_CHG = 1 ∧ d.pend 80 = true ∧ d.pend 82 = true)
    let holds := fun (cmd : Instr) (p : Prop) => (p → s.managerDoes cmd lost) ∧ (¬ p → s.managerDoes cmd (· = c))
    let d := v.toInt
    let t : Int := (c.sub + sub : Nat)
    let off := secDist (t - t % 2 + signedOf 20 (c.g F.MER_REF_DLY_REF_DLY))
    let shown := fun (x : Int) => patternOf 32 (clampInt (-(2 ^ 31 : Int)) (2 ^ 31 - 1) x)
    let refused := (c.flag F.MER_STAT_SET_REFUSED 85 0).logCtx kRefusal 0x08 0
    let active := src = 2 ∧ rising ≠ c.b F.MER_CTL_PPS_NEG
    let refs := if c.b F.MER_CTL_REF_320 then 320 else 10
    let busy := c.run = true ∨ c.b F.GBL_STAT_CHECK_BUSY = true
    let sec := c.g F.MER_SET_SEC_HI_SET_SEC * 2 ^ 32 + c.g F.MER_SET_SEC_LO_SET_SEC
    let ns := c.g F.MER_SET_NS_SET_NS
    let set := fun (a : Chip) => a.event 87 0
    let open_ := { c with freeIx := c.freeIx + 1 }
    let setTo := fun (a : Chip) (n : Nat) (e : Chip) =>
      e = { set a with
        regs := e.regs, slots := e.slots, bus := .done, mer := { m with ofs := (timeOf sec n 0 : Int) - 1600 * c.tick, slew := 0 } } ∧
      (set a).puts e ([(F.MER_SET_CTL_GO, 0), (F.MER_SET_CTL_REFUSED, 0), (F.MER_STAT_SEC_SET, 1), (F.MER_STAT_SLEW, 0)] ++
        (if src = 0 then [(F.MER_STAT_SRC, 5)] else [])) ∧
      ∀ k, e.slot k = if k < 1024 ∧ c.enumerated k = true then { c.slot k with needSet := true } else c.slot k
    holds .ppsTimeout (src = 2 ∧ m.srcValid = true ∧ m.ppsLast + 704000000 ≤ c.tick) ∧
    holds (.refInLoss missed) (src = 2 ∧ m.srcValid = true ∧ refs ≤ missed) ∧
    holds .ptpServoTimeout (src = 1 ∧ m.srcValid = true ∧ m.ptpLast + 1920000000 ≤ c.tick) ∧
    (st = 1 → 100000 * c.g F.MER_HOLD_LOST_BOUND < c.reckBound → s.managerDoes .reckoningBoundExceeded fun d =>
      c.merFrame d ∧ same d ∧ d.g F.MER_STAT_STATE = 0 ∧ d.g F.MER_STAT_STATE_CHG = 1 ∧ d.pend 80 = true ∧ d.pend 83 = true) ∧
    (st ≠ 1 ∨ c.reckBound ≤ 100000 * c.g F.MER_HOLD_LOST_BOUND → s.managerDoes .reckoningBoundExceeded (· = c)) ∧
    (¬ active → s.managerDoes (.ppsInEdge rising sub freq) (· = c)) ∧
    (active → st ≠ 2 → s.managerDoes (.ppsInEdge rising sub freq) fun e =>
      c.merFrame e ∧ e.mer.ppsLast = c.tick ∧ e.mer.srcValid = true ∧ e.g F.MER_OFFSET_OFFSET = shown off ∧
      e.g F.MER_FREQ_FREQ = (if st = 1 then c.g F.MER_FREQ_FREQ else patternOf 32 freq) ∧
      e.g F.MER_STAT_STATE = (if (off.natAbs : Int) ≤ c.fixThr ∧ 7 ≤ m.goodRun then 2 else st) ∧
      (c.run = true ∨ off.natAbs ≤ 1024000 → e.mer.slew = -off ∧ e.mer.ofs = m.ofs) ∧
      (c.run = false → 1024000 < off.natAbs → e.mer.slew = 0 ∧ e.mer.ofs = m.ofs - off)) ∧
    (active → st = 2 → m.spurs = [] → 1024000 < off.natAbs → s.managerDoes (.ppsInEdge rising sub freq) fun e =>
      c.merFrame e ∧ same e ∧ e.mer.spurs = [off] ∧ e.g F.MER_STAT_PPS_SPUR = 1 ∧ e.pend 86 = true ∧ e.g F.MER_STAT_STATE = 2) ∧
    (src ≠ 1 → s.managerDoes (.padjWrite v) fun e => e = { c with bus := .done }) ∧
    (src = 1 → s.managerDoes (.padjWrite v) fun e =>
      c.merFrame { e with bus := c.bus } ∧ e.bus = .done ∧ e.mer.ptpLast = c.tick ∧ e.mer.srcValid = true ∧ e.g F.MER_OFFSET_OFFSET = shown (-d) ∧
      (c.run = true ∨ d.natAbs ≤ 1024000 → e.mer.slew = m.slew + d ∧ e.mer.ofs = m.ofs) ∧
      (c.run = false → 1024000 < d.natAbs → e.mer.slew = m.slew ∧ e.mer.ofs = m.ofs + d)) ∧
    (s.managerDoes (.fadjWrite v) fun e =>
      let f := clampInt (-6553600) 6553600 d
      e = { c with
        regs := e.regs, bus := .done
        mer := if src = 1 ∧ st ≠ 1 then { m with freqHist := (c.tick, f) :: m.freqHist.filter (fun x => c.tick < x.1 + 64 * 640000000) } else m } ∧
      c.puts e ((F.MER_FADJ_FADJ, v.toNat) :: (if src = 1 ∧ st ≠ 1 then [(F.MER_FREQ_FREQ, patternOf 32 f)] else []))) ∧
    (c.role = .installer → sel = c.g F.MER_CTL_SRC_SEL → s.managerDoes (.sourceChange sel) fun e =>
      e = { c with regs := e.regs, bus := .done } ∧ c.puts e []) ∧
    (c.role = .installer → sel < 8 → sel ≠ c.g F.MER_CTL_SRC_SEL → s.managerDoes (.sourceChange sel) fun e =>
      c.merFrame { e with bus := c.bus } ∧ e.bus = .done ∧ same e ∧ e.g F.MER_CTL_SRC_SEL = sel ∧ e.g F.MER_STAT_SRC = (if sel ≤ 5 then sel else 0) ∧
      e.mer.srcValid = false ∧ e.mer.ppsLast = c.tick ∧ e.mer.ptpLast = c.tick ∧ e.g F.MER_STAT_STATE = 1 ∧
      (st ≠ 1 → e.mer.reckFrom = c.tick ∧ e.pend 80 = true ∧ e.pend 82 = true) ∧
      e.g F.MER_PEER_STAT_USE = if sel = 3 ∨ sel = 4 then sel - 2 else c.g F.MER_PEER_STAT_USE) ∧
    (c.role = .installer → busy → s.managerDoes .merSetGo fun e =>
      e = { refused with regs := e.regs, bus := .done } ∧
      refused.puts e [(F.MER_SET_CTL_GO, 0), (F.MER_SET_CTL_REFUSED, 1), (F.MER_STAT_SET_REFUSED, 1)]) ∧
    (c.role = .installer → ¬ busy → ns < 10 ^ 9 → s.managerDoes .merSetGo (setTo c ns)) ∧
    (c.role = .installer → ¬ busy → 10 ^ 9 ≤ ns → s.managerDoes .merSetGo fun e => ∃ n < 10 ^ 9, setTo open_ n e)

/-- Beacons leave once per 2^18 counts, probes per period, a hop without samples is stale, and the time is captured as one.
Cites: 07_meridian_time. -/
def Obligations.BeaconsAndProbes : Prop :=
  ∀ (s : State) (slot ix : Nat) (size : AccSize) (e : TxTs) (rest : List TxTs), s.chip.live = true → slot < 1024 →
    let c := s.chip
    let now := c.kcount / 2 ^ 18
    let x := c.slot slot
    let st := c.sg F.PRT_SLOT_STATE slot
    let due := (st = 3 ∨ st = 4) ∧ x.probe = none ∧ (x.tag = 0 ∨ x.lastProbe + 2 ^ (16 + min 8 (c.g F.MER_WK_CTL_PROBE_LOG)) ≤ c.tick)
    let h := c.hop ix
    let old := h.valid = true ∧ h.lastAt + 640000000 ≤ c.tick
    (now ≤ c.mer.beaconSlot ∨ c.tick < c.mer.gapEnd → s.managerDoes .periodicBeacon (· = c)) ∧
    (c.mer.beaconSlot < now → c.mer.gapEnd ≤ c.tick → s.managerDoes .periodicBeacon fun d =>
      d = { c with ports := d.ports, mer := { c.mer with beaconSlot := now } } ∧
      ∀ p, d.port p = if p < 128 ∧ c.up p = true then
          { c.port p with tx := { (c.port p).tx with queue := mkTimeBeacon 0x1F false 0 0 :: (c.port p).tx.queue } } else c.port p) ∧
    (due → s.managerDoes (.probeSend slot none) fun d =>
      d = { c with slots := d.slots, ports := d.ports } ∧ c.probes d slot (c.sg F.PRT_SLOT_SERVE slot == 1) false false 1 ∧
      ∀ k, k ≠ slot → d.slot k = c.slot k) ∧
    (¬ due → s.managerDoes (.probeSend slot none) (· = c)) ∧
    (old → s.managerDoes (.hopStale ix none) fun d =>
      d = { c with mer := { c.mer with hops := d.mer.hops } } ∧ ∀ k, d.hop k = if k = ix then { h with stale := true } else c.hop k) ∧
    (¬ old → s.managerDoes (.hopStale ix none) (· = c)) ∧
    (size ≠ .word → s.managerDoes (.merNowRead size) fun d => d = { c with bus := ⟨0, true, false⟩ }) ∧
    (size = .word → s.managerDoes (.merNowRead size) fun d =>
      d = { c with regs := d.regs, bus := ⟨BitVec.ofNat 32 (secOf c.sub / 2 ^ 32), false, false⟩ } ∧
      c.puts d [(F.MER_NOW_SEC_LO_SEC, secOf c.sub), (F.MER_NOW_NS_NS, nsOf c.sub), (F.MER_NOW_SUB_SUBNS, subnsOf c.sub)]) ∧
    (c.mer.txts = e :: rest → s.managerDoes .txtsPop fun d =>
      d = { c with regs := d.regs, bus := .done, mer := { c.mer with txts := if e.when = c.tick then e :: rest else rest } } ∧
      c.puts d [(F.MER_TXTS_POP_POP, 0)]) ∧
    (c.mer.txts = [] → s.managerDoes .txtsPop fun d => d = { c with regs := d.regs, bus := .done } ∧ c.puts d [(F.MER_TXTS_POP_POP, 0)])

/-- Peer blocks are passed on or answered by role; peer beacons discipline a subordinate, and eight that do not come end its
source. Cites: 01_system_architecture; 07_meridian_time. -/
def Obligations.PeerChain : Prop :=
  ∀ (s : State) (odd : Bool) (age k : Nat) (b : Block) (c1 : Chip) (dl freq : Int), s.chip.live = true →
    let c := s.chip
    let m := c.mer
    let p := 128 + odd.toNat
    let q := 129 - odd.toNat
    let got := c.takeIn p (fun b => !b.is .idle) = some (b, c1)
    let isProbe := b.is .beacon && b.form == 2 && b.f 104 104 == 0
    let at_ := (c.fine - age) % (800 * 2 ^ 48)
    let only := fun (e d : Chip) (i : Nat) (x : Block) => d = { e with ports := d.ports, regs := d.regs, mer := d.mer } ∧
      e.queues d i x ∧ ∀ j, j ≠ i → d.port j = e.port j
    let src := c.g F.MER_STAT_SRC
    let st := c.g F.MER_STAT_STATE
    let follows := c.hier ≠ 3 ∧ (src = 3 ∨ src = 4)
    let use := c.peerUse
    let alt := 257 - use
    let told := c.takePeer (fun b => b.is .beacon && b.form == 3) = some (b, c1)
    let sec := nearHi (secOf c.sub) (b.f 99 68) (c.b F.MER_STAT_SEC_SET)
    let off : Int := ((c.sub : Int) - age) - ((timeOf sec (b.f 67 38) (b.f 37 28) : Int) + 2 * dl)
    let late := 2 ≤ c.hier ∧ m.peerLast + 2 ^ 18 * (m.peerMiss + 1) + 2 ^ 17 ≤ c.tick
    let isEcho := fun (b : Block) => b.is .beacon && b.form == 2 && b.f 103 98 == timeHidx c.work
    let tag := Sys2Proof.at_ 15 10 (timeHidx c.work) + (m.peerTag + 1) % 1024
    let rt : Int := ((c.fine : Int) - age - 800 * k) - (800 * (b.f 29 10 : Int) - b.f 39 30)
    let delay := some ((rt + c.peerSkews) / 2)
    (c.takeIn p (fun b => !b.is .idle) = none → s.managerDoes (.peerBlockForward odd age) (· = c)) ∧
    (got → c.hier = 0 ∨ (c.hier = 1 ∧ isProbe = false) → s.managerDoes (.peerBlockForward odd age) (· = c1)) ∧
    (got → c.hier = 1 → isProbe = true → s.managerDoes (.peerBlockForward odd age) fun d =>
      only c1 d p (mkEcho b.pos (b.f 103 88) (at_ / 800) (at_ % 800) 0) ∧ d.regs = c.regs ∧ d.mer = m) ∧
    (got → 2 ≤ c.hier → s.managerDoes (.peerBlockForward odd age) fun d =>
      d = { c1 with ports := d.ports, regs := d.regs, mer := d.mer } ∧ (∀ j, j ≠ q → d.port j = c1.port j) ∧
      d.port q = (if c.up q then { c1.port q with tx := { (c1.port q).tx with pass := (c1.port q).tx.pass ++ [b] } } else c1.port q) ∧
      (b.outward = true → p = use → d.mer = { m with peerIn := m.peerIn ++ [b] } ∧
        c.puts d (if c.g F.MER_PEER_STAT_USE = 0 then [(F.MER_PEER_STAT_USE, 1 + odd.toNat)] else [])) ∧
      (b.outward = false ∨ p ≠ use → d.mer = m ∧ d.regs = c.regs)) ∧
    (c.hier < 2 ∨ (c.port use).locked = true → s.managerDoes .peerPortSwitch (· = c)) ∧
    (2 ≤ c.hier → (c.port use).locked = false → (c.port alt).locked = true → s.managerDoes .peerPortSwitch fun d =>
      c.merFrame d ∧ d.g F.MER_PEER_STAT_USE = alt - 127 ∧ d.mer.goodRun = 0 ∧ d.mer.ofs = m.ofs ∧ d.mer.slew = m.slew ∧ d.pend 91 = true ∧
      (src = 3 ∨ src = 4 → d.g F.MER_STAT_SRC = alt - 125) ∧ d.g F.MER_STAT_STATE = (if st = 2 ∧ c.hier = 2 then 1 else st)) ∧
    (2 ≤ c.hier → (c.port use).locked = false → (c.port alt).locked = false → s.managerDoes .peerPortSwitch fun d =>
      c.merFrame d ∧ d.g F.MER_PEER_STAT_USE = c.g F.MER_PEER_STAT_USE ∧ d.mer.ofs = m.ofs ∧ d.mer.slew = m.slew ∧
      d.g F.MER_STAT_STATE = if st = 2 ∧ c.hier = 2 then 1 else st) ∧
    (c.hier ≠ 1 ∨ c.tick < m.peerSent + 2 ^ 18 → s.managerDoes .peerBeaconSend (· = c)) ∧
    (c.hier = 1 → m.peerSent + 2 ^ 18 ≤ c.tick → s.managerDoes .peerBeaconSend fun d =>
      d = { c with ports := d.ports, mer := { m with peerSeq := (m.peerSeq + 1) % 256, peerSent := c.tick } } ∧
      (∀ j ∈ [128, 129], c.queues d j (mkPeerTime 0 m.peerSeq 0 0 0)) ∧ ∀ j, j < 128 → d.port j = c.port j) ∧
    (c.takePeer (fun b => b.is .beacon && b.form == 3) = none → s.managerDoes (.peerBeaconReceived age freq) (· = c)) ∧
    (told → c.peerDelay = none ∨ (c.hier ≠ 3 ∧ ¬ follows) → s.managerDoes (.peerBeaconReceived age freq) fun d =>
      d = { c1 with regs := d.regs, mer := d.mer } ∧ d.mer.peerLast = c.tick ∧ d.mer.peerMiss = 0 ∧ d.mer.ofs = m.ofs ∧ d.mer.slew = m.slew ∧
      c.puts d [(F.MER_PEER_STAT_LAST_SEQ, b.f 107 100), (F.MER_PEER_STAT_LEAD_STATE, b.f 109 108)]) ∧
    (told → c.peerDelay = some dl → c.hier = 3 → s.managerDoes (.peerBeaconReceived age freq) fun d =>
      c.merFrame d ∧ d.mer.peerLast = c.tick ∧ d.mer.peerMiss = 0 ∧ d.mer.ofs = m.ofs ∧ d.mer.slew = m.slew ∧ d.g F.MER_STAT_STATE = st ∧
      (c.fixThr < off.natAbs → d.g F.MER_STAT_SRC_FAULT = 1 ∧ d.pend 84 = true)) ∧
    (told → c.peerDelay = some dl → follows → m.peerBreaks < 7 → s.managerDoes (.peerBeaconReceived age freq) fun d =>
      c.merFrame d ∧ d.mer.peerLast = c.tick ∧ d.mer.peerMiss = 0 ∧ d.g F.MER_STAT_SEC_SET = 1 ∧
      d.g F.MER_PEER_STAT_LAST_SEQ = b.f 107 100 ∧ d.g F.MER_PEER_STAT_LEAD_STATE = b.f 109 108 ∧
      d.g F.MER_OFFSET_OFFSET = patternOf 32 (clampInt (-(2 ^ 31 : Int)) (2 ^ 31 - 1) off) ∧
      (b.f 109 108 = 0 → d.g F.MER_STAT_STATE = 0) ∧
      (c.run = true ∨ off.natAbs ≤ 1024000 → d.mer.slew = -off ∧ d.mer.ofs = m.ofs)) ∧
    (¬ late → s.managerDoes .peerBeaconMiss (· = c)) ∧
    (late → s.managerDoes .peerBeaconMiss fun d =>
      c.merFrame d ∧ d.mer.peerMiss = m.peerMiss + 1 ∧ d.mer.ofs = m.ofs ∧ d.mer.slew = m.slew ∧
      d.g F.MER_PEER_STAT_MISS_CNT = satTo F.MER_PEER_STAT_MISS_CNT (c.g F.MER_PEER_STAT_MISS_CNT) 1 ∧
      (m.peerMiss = 7 → c.hier = 2 → src = 3 ∨ src = 4 → d.mer.srcValid = false ∧ d.g F.MER_STAT_SRC_FAULT = 1 ∧
        d.g F.MER_PEER_STAT_USE = if (c.port alt).locked = true then alt - 127 else c.g F.MER_PEER_STAT_USE)) ∧
    (c.hier < 2 → s.managerDoes (.peerProbe age) (· = c)) ∧
    (2 ≤ c.hier → c.takePeer isEcho = none → s.managerDoes (.peerProbe age) fun d =>
      only { c with mer := { m with peerTag := tag, peerKtx := none } } d use (mkProbe 0 tag) ∧ d.regs = c.regs ∧
      d.mer = { m with peerTag := tag, peerKtx := none }) ∧
    (2 ≤ c.hier → c.takePeer isEcho = some (b, c1) → m.peerKtx = none ∨ m.peerTag ≠ b.f 103 88 → s.managerDoes (.peerProbe age) (· = c1)) ∧
    (2 ≤ c.hier → c.takePeer isEcho = some (b, c1) → m.peerKtx = some k → m.peerTag = b.f 103 88 → s.managerDoes (.peerProbe age) fun d =>
      d = { c1 with mer := if use = 128 then { c1.mer with peerDelay0 := delay, peerKtx := none } else { c1.mer with peerDelay1 := delay, peerKtx := none } })

/-- The pool takes a port's blocks by kind and epoch; THROTTLE is resent; shares, flushes and level registers follow their
rules. Cites: 08_ingress_queues_and_rose; 06_loops_and_worker_control. -/
def Obligations.PoolAndThrottle : Prop :=
  ∀ (s : State) (p slot g pos kind ep got : Nat) (cut : Bool) (b : Block) (rest : List RxItem) (o : OpenItem) (st : ItemStatus) (v : Word),
    s.chip.live = true → p < 128 → slot < 1024 →
    let c := s.chip
    let x := c.slot slot
    let front := c.dcq p = .block b :: rest ∧ (∀ i ∈ rest.head?, ∃ b', i = .block b')
    let started : OpenItem := ⟨slot, b.f 106 104, b.f 91 84, b.f 103 92, 0, 0, 0, 0, false, false, false, false, c.tick, []⟩
    let need := if b.f 106 104 = kindRecords then 2 * b.f 103 92 else if b.f 106 104 = kindMarkResult then 2 * (b.f 103 92 - 1) else 0
    let late := pairFld F.PRT_EPOCH_STAT_LATE_CNT (slot / 16)
    let other := fun (d : Chip) => (∀ q, q ≠ p → d.item q = c.item q ∧ d.dcq q = c.dcq q) ∧ d.dcq p = rest
    let seen := fun (d : Chip) => ∀ k, d.slot k = if k = slot then { x with lastSeen := c.tick } else c.slot k
    let bits := fun (d : Chip) (cls : Nat) => c.wake.trailers = [] →
      d.wake = { c.wake with inBits := c.wake.inBits + if (c.groupOf (8 * slot + cls)).isSome then 120 else 0 }
    let at_ := c.slotAt p b.pos = some slot
    let starts := front ∧ b.type = some .pktStart ∧ at_
    let full := fun (q : Nat) => (qParam c.work q).max ≠ 0 ∧ c.qIsFull q 3 = true
    let keeps := fun (q w : Nat) => (qParam c.work q).max ≠ 0 ∧ c.qIsFull q w = false
    let inboxed := fun (d : Chip) => ∀ q, d.port q = if q = p then { c.port p with inbox := (c.port p).inbox ++ [.block b] } else c.port q
    let n := c.extendTo 48 (b.f 102 55)
    let count := c.extendTo 40 (b.f 42 3)
    let gr := c.grp g
    let k := count / 2 ^ gr.orderLog
    let el := QElem.sight count (BitVec.ofNat 64 (b.f 106 43))
    let lateIn := fun (y : LQueue) => { y with s := max y.s count, late := y.late ++ [el], lateCnt := min 65535 (y.lateCnt + 1) }
    let inTime := fun (y : LQueue) => { y with s := max y.s count, buckets := AMap.upd (always []) y.buckets k (· ++ [el]) }
    let one := fun (y : LQueue) => if k < gr.close then lateIn y else inTime y
    let ends := pairFld F.PRT_EPOCH_STAT_EPOCH_END_CNT (slot / 16)
    let drained := b.f 106 99 = (c.sg F.PRT_SLOT_EPOCH slot + 255) % 256 ∧ c.sg F.PRT_SLOT_DRAIN slot = 1
    let resend := x.throttleAt + 2 ^ 14 ≤ c.tick ∧ (x.throttle < 0xFF ∨ x.throttleOnce = true)
    let serve := c.sg F.PRT_SLOT_SERVE slot
    let again := mkThrottle (c.posOf slot) x.throttle
    let total := AMap.get (always 0) c.que.occ p
    let occ := occPct total
    let sharing := F.QUE_OCC_SHARING.ix 4 p
    let now := c.b F.QUE_CTL_SHARE_EN &&
      (if c.b sharing then decide (c.g F.QUE_CTL_SHARE_LO ≤ occ) else decide (min 100 (c.g F.QUE_CTL_SHARE_HI) ≤ occ))
    let due := AMap.get (always 0) c.que.shareFrom p + 2 ^ 16 ≤ c.tick
    let run := (c.served p).filter (fun w => c.sg F.PRT_SLOT_STATE w = 4)
    let share := fun (w : Nat) => if now = true ∧ w ∈ run ∧ total < run.length * AMap.get (always 0) c.que.slotOcc w then min 0xFF (256 / run.length) else 0xFF
    let q := F.QUE_FLUSH_TARGET.of v
    let noItem := (∀ i, c.item i = none) ∧ ∀ i ∈ c.que.items, i.2 = none
    let emptied := fun (d : Chip) (l : Nat → Bool) => d.bus = .done ∧ (∀ i, l i = true → (d.lq i).buckets = [] ∧ (d.lq i).late = []) ∧
      (∀ i, l i = false → (d.lq i).buckets = (c.lq i).buckets ∧ (d.lq i).late = (c.lq i).late) ∧
      d.g F.QUE_FLUSH_TRUNCATED = 0 ∧ d.g F.QUE_FLUSH_TARGET = q ∧ d.rose = c.rose ∧ d.mer = c.mer ∧ d.hk = c.hk ∧ d.workers = c.workers
    let ended := fun (d : Chip) => d.g F.QUE_FLUSH_GO = 0 ∧ d.pend 107 = true
    let quiet := c.item p = some o ∧ o.flushed = true ∧ o.lastAt + 640 * max 1 (c.g F.QUE_FLUSH_FLUSH_TO) ≤ c.tick
    (c.dcq p = [] → (∀ a, s.managerDoes (.poolServe p (some a)) (· = c)) ∧ s.managerDoes (.poolServe p none) fun d => c.wake.trailers = [] → d = c) ∧
    (starts → c.epochOk slot (b.f 91 84) = true → need ≤ 32 * (qParam c.work (8 * slot)).max →
      s.managerDoes (.poolServe p none) fun d =>
        d = { c with que := { c.que with dcq := d.que.dcq, items := d.que.items }, slots := d.slots, wake := d.wake } ∧
        d.item p = some started ∧ other d ∧ seen d ∧ (b.f 106 104 ≠ kindMonitor → bits d 0)) ∧
    (starts → c.epochOk slot (b.f 91 84) = false → s.managerDoes (.poolServe p none) fun d =>
      d = { c.event 77 slot with
        regs := d.regs, que := { c.que with dcq := d.que.dcq, items := d.que.items }, slots := d.slots, wake := d.wake } ∧
      d.item p = some { started with drop := true, refused := true } ∧ other d ∧ seen d ∧ (c.wake.trailers = [] → d.wake = c.wake) ∧
      (c.event 77 slot).puts d [(late, satTo late (c.g late) 1)]) ∧
    (starts → c.epochOk slot (b.f 91 84) = true → 32 * (qParam c.work (8 * slot)).max < need → s.managerDoes (.poolServe p none) fun d =>
      d = { c.flag F.QUE_STAT_OVERSIZE 99 slot with
        que := { c.que with dcq := d.que.dcq, items := d.que.items, lq := d.que.lq }, slots := d.slots, wake := d.wake } ∧
      d.item p = some { started with drop := true, refused := true } ∧ other d ∧ seen d ∧ (c.wake.trailers = [] → d.wake = c.wake) ∧
      ∀ i, d.lq i = if i = 8 * slot then { c.lq i with oversize := min 65535 ((c.lq i).oversize + 1) } else c.lq i) ∧
    (front → b.type = some .reply → c.slotAt p b.pos = none ∨ (at_ ∧ keeps (8 * slot + 3) 3) → s.managerDoes (.poolServe p none) fun d =>
      d = { c with que := { c.que with dcq := d.que.dcq }, ports := d.ports, wake := d.wake } ∧ d.dcq p = rest ∧ inboxed d ∧
      (c.wake.trailers = [] → d.wake = c.wake)) ∧
    (front → b.type = some .reply → at_ → full (8 * slot + 3) → s.managerDoes (.poolServe p none) fun d =>
      d = { c.flag F.QUE_STAT_QFULL 98 slot with que := { c.que with dcq := d.que.dcq, lq := d.que.lq }, wake := d.wake } ∧ d.dcq p = rest ∧
      ∀ i, d.lq i = if i = 8 * slot + 3 then { c.lq i with qfull := min 65535 ((c.lq i).qfull + 1) } else c.lq i) ∧
    (front → b.type = some .beacon → b.form ≠ 1 → at_ → (qParam c.work (8 * slot + 4)).max = 0 ∨ keeps (8 * slot + 4) 3 →
      s.managerDoes (.poolServe p none) fun d =>
      d = { c with que := { c.que with dcq := d.que.dcq }, ports := d.ports, wake := d.wake } ∧ d.dcq p = rest ∧ inboxed d) ∧
    (front → b.type = some .beacon → b.form = 1 → at_ → s.managerDoes (.poolServe p none) fun d =>
      d = { c with regs := d.regs, hot := d.hot, evt := d.evt, que := { c.que with dcq := d.que.dcq, ref := d.que.ref, lq := d.que.lq },
                   slots := d.slots, wake := d.wake } ∧
      c.regsBut d (fun a => a == F.QUE_STAT_QFULL.reg || evtReg a) ∧ d.dcq p = rest ∧ seen d ∧ bits d 0 ∧
      ((qParam c.work (8 * slot + 4)).max = 0 → d.regs = c.regs ∧ d.evt = c.evt ∧ d.lq (8 * slot + 4) = c.lq (8 * slot + 4)) ∧
      (∀ k, AMap.get (always 0) d.que.ref k = if k = slot then n else AMap.get (always 0) c.que.ref k) ∧
      ∀ i, i ≠ 8 * slot + 4 → d.lq i = if i = 8 * slot ∨ i = 8 * slot + 1 then { c.lq i with s := max (c.lq i).s n } else c.lq i) ∧
    (front → b.type = some .epochEnd → at_ → s.managerDoes (.poolServe p none) fun d =>
      d = { c with que := { c.que with dcq := d.que.dcq }, regs := d.regs, wake := d.wake } ∧ d.dcq p = rest ∧
      c.puts d ((ends, satTo ends (c.g ends) 1) :: if drained then [(slotFld F.PRT_SLOT_DRAIN slot, 0)] else [])) ∧
    (front → b.type = some .sighting → at_ → c.groupOf (8 * slot + 1) = some g → keeps (8 * slot + 1) 2 → k < gr.close + 128 →
      s.managerDoes (.poolServe p none) fun d =>
        d = { c with que := d.que, regs := d.regs, wake := d.wake } ∧ d.que = { c.que with dcq := d.que.dcq, lq := d.que.lq, poolBusy := d.que.poolBusy } ∧
        c.regsBut d (· == F.QUE_POOL_MIN_MIN.reg) ∧ d.dcq p = rest ∧ bits d 1 ∧ ∀ i, d.lq i = if i = 8 * slot + 1 then one (c.lq i) else c.lq i) ∧
    (c.dcq p = [.close pos kind ep got st cut] → c.item p = some o → o.refused = false → o.flushed = false → o.n ≠ 0 → st ≠ .ok ∨ o.trunc = true →
      (c.groupOf (8 * o.slot)).isSome = true → s.managerDoes (.poolServe p none) fun d =>
        d.item p = none ∧ d.dcq p = [] ∧ (d.lq (8 * o.slot)).buckets = (c.lq (8 * o.slot)).buckets ∧ d.rose = c.rose ∧ d.workers = c.workers ∧
        (d.lq (8 * o.slot)).late = (c.lq (8 * o.slot)).late ++ [.status (if o.trunc = true then .trunc else st) o.epoch o.n o.cmin o.cmax]) ∧
    (¬ resend → s.managerDoes (.throttleResend slot) (· = c)) ∧
    (resend → s.managerDoes (.throttleResend slot) fun d =>
      d = { c with slots := d.slots, ports := d.ports, pairs := d.pairs } ∧
      (∀ k, d.slot k = if k = slot then { x with throttleAt := c.tick, throttleOnce := false } else c.slot k) ∧
      (c.heldBack slot = true → (d.pair (slot / 16)).held = (c.pair (slot / 16)).held ++ [⟨c.posOf slot, false, again⟩] ∧ d.ports = c.ports) ∧
      (c.heldBack slot = false → d.pairs = c.pairs ∧ (serve < 2 → c.queues d (2 * (slot / 16) + serve) again) ∧
        (serve = 2 → c.queues d (2 * (slot / 16)) again ∧ c.queues d (2 * (slot / 16) + 1) again))) ∧
    (¬ due → s.managerDoes (.shareInterval p) (· = c)) ∧
    (due → s.managerDoes (.shareInterval p) fun d =>
      d = { c with regs := d.regs, hot := d.hot, que := { c.que with lq := d.que.lq, shareFrom := d.que.shareFrom, occ := d.que.occ, slotOcc := d.que.slotOcc },
                   slots := d.slots, ports := d.ports, pairs := d.pairs, evt := d.evt } ∧
      c.regsBut d (fun a => a == 0x4B001200 + 4 * p || evtReg a) ∧ d.g (F.QUE_OCC_OCC.ix 4 p) = min 127 occ ∧ d.b sharing = now ∧
      AMap.get (always 0) d.que.shareFrom p = c.tick ∧ AMap.get (always 0) d.que.occ p = 0 ∧
      (∀ w ∈ c.served p, (d.lq (8 * w)).share = share w ∧ AMap.get (always 0) d.que.slotOcc w = 0) ∧
      (now = true → c.b sharing = false → d.pend 103 = true) ∧ (now = false → c.b sharing = true → d.pend 104 = true)) ∧
    (c.role = .installer → F.QUE_FLUSH_SCOPE.of v = 0 → noItem → s.managerDoes (.queFlushGo v) fun d => emptied d (· == q) ∧ ended d) ∧
    (c.role = .installer → F.QUE_FLUSH_SCOPE.of v = 1 → noItem → s.managerDoes (.queFlushGo v) fun d => emptied d (fun i => i / 8 == q % 1024) ∧ ended d) ∧
    (c.role = .installer → F.QUE_FLUSH_SCOPE.of v = 2 → noItem → s.managerDoes (.queFlushGo v) fun d =>
      emptied d (fun i => (c.members (q % 32)).contains i) ∧ ended d) ∧
    (c.role = .installer → F.QUE_FLUSH_SCOPE.of v = 0 → c.item p = some o → o.into q = true → s.managerDoes (.queFlushGo v) fun d =>
      emptied d (· == q) ∧ (d.lq q).flushing = true ∧ d.item p = some { o with flushed := true } ∧ d.g F.QUE_FLUSH_GO = 1) ∧
    (quiet → s.managerDoes (.flushTimeout p) fun d =>
      d = { c with regs := d.regs, hot := d.hot, que := { c.que with items := d.que.items, lq := d.que.lq }, evt := d.evt } ∧
      d.item p = some { o with flushed := false, drop := true, refused := true } ∧ (∀ q, q ≠ p → d.item q = c.item q) ∧
      d.g F.QUE_FLUSH_TRUNCATED = 1 ∧ d.g F.QUE_STAT_FLUSH_TRUNC = 1 ∧ d.pend 100 = true) ∧
    ((∀ o, c.item p = some o → o.flushed = false ∨ c.tick < o.lastAt + 640 * max 1 (c.g F.QUE_FLUSH_FLUSH_TO)) →
      s.managerDoes (.flushTimeout p) (· = c)) ∧
    (s.managerDoes (.dcqHwmWrite p v) fun d => d = { c with regs := d.regs, bus := .done } ∧ c.puts d [(F.QUE_DCQ_HWM.ix 4 p, c.dcqLevel p)]) ∧
    (s.managerDoes (.poolMinWrite v) fun d => d = { c with regs := d.regs, bus := .done } ∧ c.puts d [(F.QUE_POOL_MIN_MIN, c.poolFree)])

/-- A group closes its bucket when no stream holds it back; engines emit late elements and bucket ends; streams move between
engines. Cites: 08_ingress_queues_and_rose. -/
def Obligations.RoseMerging : Prop :=
  ∀ (s : State) (g q e tgt w parent n : Nat) (v : Word) (el : QElem) (l : List QElem) (oe : OutElem) (t1 p1 : Eng), s.chip.live = true → q < 8192 →
    let c := s.chip
    let gr := c.grp g
    let x := c.engOf e
    let act := gr.valid = true ∧ gr.running = true
    let lag := c.groupOf q = some g ∧ act ∧ c.streamS q < gr.lim ∧ gr.lim + 256 * gr.absentTo ≤ c.kcount
    let said := (c.flag F.RSE_STAT_ABSENT 113 (q / 8)).logAct (q / 8) 0 1
    let stalled := x.level = 2 ∧ ∃ p ∈ (c.chainOf x.group).getLast?, (c.wpage p).open_ = true ∧ p % 8 ∈ c.wake.noAlloc
    let idle := x.used = false ∨ x.out ≠ none ∨ (c.grp x.group).close ≤ x.bucket ∨ stalled
    let emits := x.used = true ∧ x.out = none ∧ x.bucket < (c.grp x.group).close ∧ x.level ≠ 2 ∧ c.rose.mig = none
    let at_ := 8 * F.RSE_MIG_SLOT.of v + F.RSE_MIG_CLS.of v
    let asked := fun (d : Chip) => d.bus = .done ∧ d.g F.RSE_MIG_GO = 0 ∧ d.g F.RSE_MIG_SLOT = F.RSE_MIG_SLOT.of v ∧ d.g F.RSE_MIG_CLS = F.RSE_MIG_CLS.of v ∧
      d.g F.RSE_MIG_TARGET = F.RSE_MIG_TARGET.of v
    let tg := c.engOf tgt
    let fresh : Eng := ⟨true, x.group, 0, x.parent, freeInputs, x.bucket, 0, false, none, 0, 0, 0, 0⟩
    let may := c.role = .installer ∧ c.rose.mig = none ∧ c.leafOf at_ = some e ∧ F.RSE_MIG_TARGET.of v = tgt ∧ tgt ≠ e ∧ tgt < 224 ∧ limEngFirst c.work ≤ tgt
    let joins := may ∧ tg.used = true ∧ tg.group = x.group ∧ tg.level = 0 ∧ tg.addInput (streamWord at_) = some t1 ∧
      (c.pathUp 4 e).find? (fun f => (c.pathUp 4 tgt).contains f) = some parent
    let opens := may ∧ tg.used = false ∧ (c.engOf x.parent).addInput (0x8000 + tgt) = some p1 ∧ fresh.addInput (streamWord at_) = some t1
    let barred := c.leafOf at_ = none ∨ c.rose.mig ≠ none ∨ (c.leafOf at_ = some e ∧ F.RSE_MIG_TARGET.of v = tgt ∧
      (tgt = e ∨ 224 ≤ tgt ∨ tgt < limEngFirst c.work ∨ (tg.used = true ∧ (tg.group ≠ x.group ∨ tg.level ≠ 0 ∨ tg.addInput (streamWord at_) = none)) ∨
        (tg.used = false ∧ (c.engOf x.parent).addInput (0x8000 + tgt) = none)))
    let started := fun (d : Chip) (h : Nat) => asked d ∧ d.g F.RSE_MIG_REFUSED = 0 ∧ d.g F.RSE_STAT_MIG_BUSY = 1 ∧
      ∃ m : Mig, d.rose.mig = some m ∧ m.q = at_ ∧ m.src = e ∧ m.dst = tgt ∧ m.group = x.group ∧ m.parent = h ∧ m.since = c.tick ∧ m.expired = false ∧
        m.bucket = max (x.bucket + 1) (t1.bucket + 1)
    let late : Bool := oe matches .hit _ _ true _ _ | .sight _ true _ _
    let hits : Nat := if oe matches .hit _ _ _ _ _ then 1 else 0
    let inner := x.used = true ∧ x.out = none ∧ x.bucket < (c.grp x.group).close ∧ c.rose.mig = none ∧ x.input < 16 ∧
      x.inputs.getD x.input noInput = w ∧ w ≠ noInput ∧ 0x8000 ≤ w ∧ (c.engOf (w % 256)).out = some oe ∧ oe.stream ≠ none ∧ w % 256 ≠ e
    (¬ act → s.managerDoes (.bucketClose g) (· = c)) ∧
    (act → gr.stopAt = none → (∀ q ∈ c.members g, gr.lim ≤ c.streamS q) → s.managerDoes (.bucketClose g) fun d =>
      d = { c with que := { c.que with lq := d.que.lq }, rose := { c.rose with groups := d.rose.groups } } ∧
      (∀ h, d.grp h = if h = g then { gr with close := gr.close + 1 } else c.grp h) ∧
      ∀ r, d.lq r = if r ∈ c.members g then { c.lq r with absent := false } else c.lq r) ∧
    (act → gr.stopAt = some n → (∀ q ∈ c.members g, gr.lim ≤ c.streamS q) → s.managerDoes (.bucketClose g) fun d =>
      let next := { gr with close := gr.close + 1 }
      d.grp g = if n < next.close * 2 ^ gr.orderLog then { next with running := false, stopAt := none } else next) ∧
    (act → q ∈ c.members g → c.streamS q < gr.lim → (c.lq q).absent = false → c.sg F.PRT_SLOT_STATE (q / 8) ∈ [4, 6] →
      c.kcount < gr.lim + 256 * gr.absentTo → s.managerDoes (.bucketClose g) fun d => d.rose = c.rose ∧ d.workers = c.workers ∧ d.mer = c.mer) ∧
    (¬ lag → c.groupOf q = some g → s.managerDoes (.absentTimeout q) (· = c)) ∧
    (c.groupOf q = none → s.managerDoes (.absentTimeout q) (· = c)) ∧
    (lag → (c.lq q).absent = true → s.managerDoes (.absentTimeout q) (· = c)) ∧
    (lag → (c.lq q).absent = false → s.managerDoes (.absentTimeout q) fun d =>
      d = { said with que := { c.que with lq := d.que.lq } } ∧
      ∀ r, d.lq r = if r = q then { c.lq q with absent := true } else c.lq r) ∧
    (idle → s.managerDoes (.engineEmit e none) (· = c)) ∧
    (emits → 16 ≤ x.input → s.managerDoes (.engineEmit e none) fun d =>
      d = { c with rose := { c.rose with engs := d.rose.engs } } ∧ ∀ f, d.engOf f = if f = e then { x with
        out := some (.bend x.bucket x.n x.late x.absent), bucket := x.bucket + 1, input := 0, inList := false, n := 0, late := 0, absent := 0,
        emits := x.emits + 1 }
      else c.engOf f) ∧
    (emits → x.input < 16 → x.inputs.getD x.input noInput = w → w < 0x8000 → w ≠ noInput → (c.lq (streamQueue w)).flushing = false → x.inList = false →
      (c.lq (streamQueue w)).late = el :: l → s.managerDoes (.engineEmit e none) fun d =>
        (d.engOf e).out = some (el.out (streamQueue w / 8) true) ∧ (d.engOf e).input = x.input ∧ (d.engOf e).bucket = x.bucket ∧ (d.engOf e).inList = false ∧
        (d.lq (streamQueue w)).late = l ∧ (d.lq (streamQueue w)).buckets = (c.lq (streamQueue w)).buckets ∧
        (∀ f, f ≠ e → d.engOf f = c.engOf f) ∧ d.workers = c.workers ∧ d.mer = c.mer ∧ d.wake = c.wake) ∧
    (emits → x.input < 16 → x.inputs.getD x.input noInput = w → w < 0x8000 → w ≠ noInput → (c.lq (streamQueue w)).flushing = false →
      x.inList = true ∨ (c.lq (streamQueue w)).late = [] → AMap.get (always []) (c.lq (streamQueue w)).buckets x.bucket = el :: l →
      s.managerDoes (.engineEmit e none) fun d =>
        (d.engOf e).out = some (el.out (streamQueue w / 8) false) ∧ (d.engOf e).input = x.input ∧ (d.engOf e).bucket = x.bucket ∧ (d.engOf e).inList = true ∧
        (d.lq (streamQueue w)).late = (c.lq (streamQueue w)).late ∧
        (∀ k, AMap.get (always []) (d.lq (streamQueue w)).buckets k = if k = x.bucket then l else AMap.get (always []) (c.lq (streamQueue w)).buckets k) ∧
        (∀ f, f ≠ e → d.engOf f = c.engOf f) ∧ d.workers = c.workers ∧ d.mer = c.mer ∧ d.wake = c.wake) ∧
    (inner → x.level ≠ 2 → s.managerDoes (.engineEmit e none) fun d => d = { c with rose := { c.rose with engs := d.rose.engs } } ∧
      ∀ f, d.engOf f = if f = e then { x with out := some oe, n := x.n + hits, late := x.late + late.toNat, emits := x.emits + 1 }
        else if f = w % 256 then { c.engOf f with out := none } else c.engOf f) ∧
    (inner → x.level = 2 → ¬ stalled → s.managerDoes (.engineEmit e none) fun d =>
      (d.engOf e).out = none ∧ (d.engOf (w % 256)).out = none ∧ (d.grp x.group).recs = (c.grp x.group).recs + hits ∧
      (d.grp x.group).glate = (if late then min (2 ^ 32 - 1) ((c.grp x.group).glate + 1) else (c.grp x.group).glate) ∧
      (late = true → d.g F.RSE_STAT_LATE = 1 ∧ d.pend 112 = true) ∧ d.workers = c.workers ∧ d.que = c.que ∧ d.mer = c.mer) ∧
    (c.tick < c.rose.rateFrom + 640000 → s.managerDoes (.streamRebalance q tgt) (· = c)) ∧
    (c.rose.rateFrom + 640000 ≤ c.tick → c.groupOf q = none → s.managerDoes (.streamRebalance q tgt) fun d =>
      d = { c with regs := d.regs, rose := { c.rose with engs := d.rose.engs, groups := d.rose.groups, rateFrom := c.tick } } ∧
      ∀ f, f < 224 → d.engOf f = (if (c.engOf f).used then { c.engOf f with emits := 0 } else c.engOf f) ∧
        d.g (F.RSE_ENG_LOAD.ix 4 f) = if (c.engOf f).used then min 100 ((c.engOf f).emits * 100 / 1000000) else c.g (F.RSE_ENG_LOAD.ix 4 f)) ∧
    (c.role = .installer → barred → s.managerDoes (.rseMigGo v) fun d =>
      d = { c with regs := d.regs, hot := d.hot, evt := d.evt, bus := d.bus } ∧ asked d ∧ d.g F.RSE_MIG_REFUSED = 1 ∧ d.pend 119 = true ∧
      c.regsBut d (fun b => b == 0x41000008 || evtReg b)) ∧
    (joins → s.managerDoes (.rseMigGo v) fun d => started d parent ∧
      d = { c with regs := d.regs, rose := { c.rose with engs := d.rose.engs, epochs := d.rose.epochs, mig := d.rose.mig }, bus := d.bus } ∧
      c.regsBut d (fun b => b == 0x41000008 || b == 0x41000004) ∧ ∀ f, d.engOf f = if f = tgt then t1 else c.engOf f) ∧
    (opens → s.managerDoes (.rseMigGo v) fun d => started d x.parent ∧
      d = { c with regs := d.regs, rose := { c.rose with engs := d.rose.engs, epochs := d.rose.epochs, mig := d.rose.mig }, bus := d.bus } ∧
      c.regsBut d (fun b => b == 0x41000008 || b == 0x41000004) ∧ ∀ f, d.engOf f = if f = tgt then t1 else if f = x.parent then p1 else c.engOf f) ∧
    (∀ m, c.rose.mig = some m → m.expired = false → m.since + 640 * max 1 (c.g F.RSE_CTL_MIG_TO) ≤ c.tick → s.managerDoes .migrationTimeout fun d =>
      d = { c with rose := { c.rose with mig := some { m with expired := true } } }) ∧
    ((∀ m, c.rose.mig = some m → m.expired = true ∨ c.tick < m.since + 640 * max 1 (c.g F.RSE_CTL_MIG_TO)) → s.managerDoes .migrationTimeout (· = c))

/-- Sightings add to tile-set counts and leave after W cycles; a rule that is on fires as its condition becomes true;
MARK_OUT pulses. Cites: 08_ingress_queues_and_rose. -/
def Obligations.MarkRules : Prop :=
  ∀ (s : State) (set mask rule o : Nat) (m : AMap (List (Nat × Nat))), s.chip.live = true → mask < 16 → rule < 256 →
    let c := s.chip
    let added := (c.rose.sights.map (fun x => c.sightSets x.1 x.2)).flatMap (·.1)
    let counts := fun (d : Chip) (k : Nat) => AMap.get (always []) d.rose.counts k
    let over_ := fun (x : Option Nat) => x.filter (fun t => decide (c.tick < t))
    let r := c.rose
    let ends := some (c.tick + 9 + max 1 (c.g F.RSE_CTL_MOUT_W))
    let pulse := fun (i : Nat) (x : Option Nat) => if bitOf mask i then ends else x
    let merged := (bitOf mask 0 && r.mout0.isSome) || (bitOf mask 1 && r.mout1.isSome) || (bitOf mask 2 && r.mout2.isSome) || (bitOf mask 3 && r.mout3.isSome)
    let bump := fun (k : Nat) => (counts c k).filter (fun x => c.tick ≤ x.1 + c.setW k) ++ [(c.tick, (added.filter (· = k)).length)]
    let counted := fun (k : Nat) => if k ∈ added then bump k else counts c k
    let c1 : Chip := { c with rose := { r with sights := [], counts := m } }
    let own := ((c.terms rule o).filter (fun t => t.2.1 ≠ 3)).map (fun t => t.2.2.1)
    let becomes := mrRule c.work rule = some o ∧ c.ruleOn rule = true ∧ (∃ k ∈ added, k ∈ own) ∧ (∀ k, AMap.get (always []) m k = counted k) ∧
      c1.ruleCond rule o c.tick = true ∧ c.ruleCond rule o (c.tick - 1) = false
    let x := c.ruleSt rule
    let dead := ∃ t, x.lastMark = some t ∧ c.tick ≤ t + chartF c.work secMarkRules (o + 4) 2
    let scale := chartF c.work secMarkRules (o + 6) 2
    let fires := (x.fires + 1) % 2 ^ 32
    let skips := 1 < scale ∧ fires % scale ≠ 0
    (r.sights = [] → s.managerDoes .sightingArrival (· = c)) ∧
    (c.run = false → s.managerDoes .sightingArrival fun d =>
      d = { c with rose := { r with sights := [], counts := d.rose.counts } } ∧ ∀ k, counts d k = counted k) ∧
    (c.run = true → s.managerDoes .sightingArrival fun d =>
      d.rose.sights = [] ∧ d.workers = c.workers ∧ d.que = c.que ∧ d.mer = c.mer ∧ (∀ k, counts d k = counted k) ∧
      ∀ k, c.ruleOn k = false → d.ruleSt k = c.ruleSt k) ∧
    (c.run = true → becomes → dead → s.managerDoes .sightingArrival fun d =>
      d.ruleSt rule = { x with held := (x.held + 1) % 2 ^ 32 } ∧ d.g F.RSE_STAT_RULE_HELD = 1 ∧ d.pend 116 = true) ∧
    (c.run = true → becomes → ¬ dead → skips → s.managerDoes .sightingArrival fun d => d.ruleSt rule = { x with fires := fires }) ∧
    (c.run = true → becomes → ¬ dead → ¬ skips → s.managerDoes .sightingArrival fun d =>
      d.ruleSt rule = { x with fires := fires, lastMark := some c.tick } ∧ d.pend 120 = true) ∧
    (s.managerDoes (.tileSetExpiry set) fun d =>
      d = { c with rose := { r with counts := d.rose.counts } } ∧
      ∀ k, counts d k = if k = set then (counts c k).filter (fun x => c.tick < x.1 + c.setW set + 1) else counts c k) ∧
    (s.managerDoes (.markOutPulseEnd 0) fun d => d = { c with rose := { r with mout0 := over_ r.mout0 } }) ∧
    (s.managerDoes (.markOutPulseEnd 1) fun d => d = { c with rose := { r with mout1 := over_ r.mout1 } }) ∧
    (s.managerDoes (.markOutPulseEnd 2) fun d => d = { c with rose := { r with mout2 := over_ r.mout2 } }) ∧
    (s.managerDoes (.markOutPulseEnd 3) fun d => d = { c with rose := { r with mout3 := over_ r.mout3 } }) ∧
    (c.role = .installer → s.managerDoes (.moutTest mask) fun d =>
      d = { c with regs := d.regs, hot := d.hot, evt := d.evt, bus := .done, rose := { r with
        mout0 := pulse 0 r.mout0, mout1 := pulse 1 r.mout1, mout2 := pulse 2 r.mout2, mout3 := pulse 3 r.mout3 } } ∧
      d.g F.RSE_CTL_MOUT_TEST = 0 ∧ c.regsBut d (fun a => a == 0x41000000 || a == 0x41000004 || evtReg a) ∧
      (merged = true → d.g F.RSE_STAT_MOUT_MERGED = 1 ∧ d.pend 117 = true) ∧ (merged = false → d.evt = c.evt))

/-- A MARK_IN edge outside its gap makes a window during a run; deferred marks report; windows become ready and are
extracted. Cites: 09_wake_watches_and_egress; 01_system_architecture. -/
def Obligations.MarksAndWindows : Prop :=
  ∀ (s : State) (line age e g : Nat) (rising : Bool) (v : Word) (w : Window) (b : Block) (c1 : Chip), s.chip.live = true → line < 4 →
    let c := s.chip
    let f := fun (x : Fld) => c.g (x.ix 16 line)
    let t := c.fine - age
    let last := fun (d : Chip) (i : Nat) => AMap.get (always none) d.wake.lastIn i
    let soon := ∃ l, last c line = some l ∧ l ≤ t ∧ t ≤ l + 800 * f F.WKE_MIN0_MIN_GAP
    let wrong := rising = c.b (F.WKE_MIN0_NEG.ix 16 line)
    let took := fun (d : Chip) => ∀ i, last d i = if i = line then some t else last c i
    let m : Mark := ⟨none, 2 * ((t : Int) - signedOf 16 (f F.WKE_MIN0_IN_DLY)).toNat, f F.WKE_MIN1_PRE, f F.WKE_MIN2_POST, f F.WKE_MIN3_GROUPS⟩
    let takes := ¬ wrong ∧ ¬ soon ∧ c.run = true ∧ c.b (F.WKE_MIN0_EN.ix 16 line) = true
    let peers := fun (d : Chip) (m : Mark) =>
      let y := mkPeerMark (c.wake.markId % 4096) (secOf m.ref % 65536) (nsOf m.ref) (subnsOf m.ref) (min 100000 m.pre) (min 100000 m.post)
      c.queues d 128 y ∧ c.queues d 129 y ∧ d.wake.markId = c.wake.markId + 1
    let alone := c.windows = [] ∧ c.wake.windows.length < 4096 ∧ AMap.get (always none) c.wake.lastDone g = none ∧ (∀ k, k < 1024 → c.sg F.PRT_SLOT_STATE k ≠ 4)
    let old := c.wake
    let dm : Mark := ⟨none, timeOf (c.g F.WKE_DM_SEC_HI_SEC * 2 ^ 32 + c.g F.WKE_DM_SEC_LO_SEC) (c.g F.WKE_DM_NS_NS) 0, c.g F.WKE_DM_PRE_PRE,
      c.g F.WKE_DM_POST_POST, c.g F.WKE_DM_GROUPS_GROUPS⟩
    let own : Int := secOf c.sub
    let pm : Mark := ⟨none, timeOf (own + signedOf 16 (((b.f 98 83 : Int) - own) % 65536).toNat).toNat (b.f 82 53) (b.f 52 43), b.f 42 26, b.f 25 9,
      wakePeerGroups c.work⟩
    let fresh := fun (m : Mark) => some (⟨g, m.lo, m.hi, .waiting, false, 1, [], 0, none, c.g F.MER_STAT_STATE⟩ : Window)
    let made := fun (d : Chip) (m : Mark) => ∃ e, ∀ i, d.win i = if i = e then fresh m else none
    let may := c.role = .operator ∨ c.role = .installer
    let ended := fun (d : Chip) => d.bus = .done ∧ d.g F.WKE_DM_CTL_GO = 0 ∧ d.g F.WKE_DM_CTL_DONE = 1 ∧ d.g F.WKE_DM_CTL_TAG = F.WKE_DM_CTL_TAG.of v
    let late := fun (o : WkMark) => !o.done && !c.markHeld o.slot o.id && decide (o.sent + 640 * max 1 (c.g F.WKE_CTL_MARK_TO) ≤ c.tick)
    let only := fun (d : Chip) (x : Option Window) => ∀ i, d.win i = if i = e then x else c.win i
    let missed := fun (o : WkMark) => (c.pair (o.slot / 16)).missed.contains (o.slot, o.id)
    let close := (c.grp w.group).close
    let readies := w.st ≠ .done ∧ w.ready = none ∧ w.hi / 2 ^ (c.grp w.group).orderLog < close ∧ ∀ o ∈ w.outst, o.done = true ∨ missed o = true
    let ser := AMap.get (always 0) c.wake.winSerial w.group
    let dest := markDest c.work w.group
    (¬ takes → s.managerDoes (.markInEdge line rising age) (· = c)) ∧
    (takes → f F.WKE_MIN0_PEER = 0 ∨ c.hier ≠ 1 → c.markGroups m.groups = [] → s.managerDoes (.markInEdge line rising age) fun d =>
      d = { c with wake := { old with lastIn := d.wake.lastIn } } ∧ took d) ∧
    (takes → f F.WKE_MIN0_PEER = 0 ∨ c.hier ≠ 1 → c.markGroups m.groups = [g] → alone → s.managerDoes (.markInEdge line rising age) fun d =>
      d = { c with wake := { old with lastIn := d.wake.lastIn, windows := d.wake.windows } } ∧ took d ∧ made d m) ∧
    (takes → f F.WKE_MIN0_PEER = 1 → c.hier = 1 → c.markGroups m.groups = [] → s.managerDoes (.markInEdge line rising age) fun d =>
      took d ∧ peers d m ∧ d.windows = c.windows ∧ d.workers = c.workers ∧ d.mer = c.mer) ∧
    (may → c.kcount + 640000000 < dm.count → s.managerDoes (.deferredMark v) fun d =>
      d = { c with regs := d.regs, hot := d.hot, evt := d.evt, log := d.log, freeIx := d.freeIx, bus := d.bus } ∧ ended d ∧
      d.g F.WKE_DM_CTL_RESULT = 2 ∧ d.pend 135 = true) ∧
    (may → dm.count ≤ c.kcount + 640000000 → c.markGroups dm.groups = [] → F.WKE_DM_CTL_PEER.of v = 0 → s.managerDoes (.deferredMark v) fun d =>
      d = { c with regs := d.regs, bus := d.bus } ∧ ended d ∧ d.g F.WKE_DM_CTL_RESULT = 0 ∧ c.regsBut d (fun a => a == 0x42000078)) ∧
    (may → dm.count ≤ c.kcount + 640000000 → c.markGroups dm.groups = [] → F.WKE_DM_CTL_PEER.of v = 1 → c.hier = 1 →
      s.managerDoes (.deferredMark v) fun d => ended d ∧ d.g F.WKE_DM_CTL_RESULT = 0 ∧ peers d dm ∧ d.windows = c.windows ∧
        d.workers = c.workers ∧ d.mer = c.mer) ∧
    (may → dm.count ≤ c.kcount + 640000000 → c.markGroups dm.groups = [g] → dm.hi < c.oldestOf g → F.WKE_DM_CTL_PEER.of v = 0 →
      s.managerDoes (.deferredMark v) fun d =>
        d = { c with regs := d.regs, hot := d.hot, evt := d.evt, log := d.log, freeIx := d.freeIx, bus := d.bus } ∧ ended d ∧
        d.g F.WKE_DM_CTL_RESULT = 1 ∧ d.pend 135 = true) ∧
    (c.takePeer (fun b => b.is .mark) = none → s.managerDoes .peerMarkReceived (· = c)) ∧
    (c.takePeer (fun b => b.is .mark) = some (b, c1) → c.hier < 2 ∨ c.up c.peerUse = false → s.managerDoes .peerMarkReceived (· = c1)) ∧
    (c.takePeer (fun b => b.is .mark) = some (b, c1) → 2 ≤ c.hier → c.up c.peerUse = true → c.markGroups pm.groups = [g] → alone →
      s.managerDoes .peerMarkReceived fun d => d = { c1 with wake := { old with windows := d.wake.windows } } ∧ made d pm) ∧
    (c.win e = some w → w.outst.any late = true → s.managerDoes (.markTimeout e) fun d =>
      d = { c with wake := { old with windows := d.wake.windows } } ∧
      only d (some { w with partial_ := true, outst := w.outst.map (fun o => if late o then { o with done := true } else o) })) ∧
    (c.win e = none ∨ (c.win e = some w ∧ w.outst.any late = false) → s.managerDoes (.markTimeout e) (· = c)) ∧
    (c.win e = some w → readies → s.managerDoes (.windowReady e) fun d =>
      d = { c with wake := { old with windows := d.wake.windows, readySeq := old.readySeq + 1 } } ∧
      only d (some { w with partial_ := w.partial_ || w.outst.any missed, ready := some (old.readySeq, close) })) ∧
    (c.win e = none ∨ (c.win e = some w ∧ ¬ readies) → s.managerDoes (.windowReady e) (· = c)) ∧
    ((∀ x ∈ c.windows, x.2.ready = none) → s.managerDoes (.windowExtract none) (· = c)) ∧
    (c.windows = [(e, w)] → w.ready = some (g, age) → w.st = .waiting → dest < egNDest c.work → c.work ≠ [] → s.managerDoes (.windowExtract none) fun d =>
      d = { c with wake := { old with windows := d.wake.windows, winSerial := d.wake.winSerial }, egr := { c.egr with lanes := d.egr.lanes } } ∧
      d.win e = some { w with st := .extracting, serial := ser } ∧ AMap.get (always 0) d.wake.winSerial w.group = (ser + 1) % 2 ^ 32 ∧
      (∀ l, l ≠ c.laneOf dest → d.lane l = c.lane l) ∧
      ∃ o : EObj, (d.lane (c.laneOf dest)).objs = (c.lane (c.laneOf dest)).objs ++ [o] ∧ o.ftype = .mark ∧ o.entry = e ∧ o.lo = w.lo ∧ o.hi = w.hi ∧
        o.serial = ser ∧ o.dest = dest ∧ o.marks = w.marks ∧ o.partial_ = w.partial_ ∧ o.upTo = age)

/-- Watches start at the close pointer on the grid, close with their last bucket, are late once, and SPAN and HWM follow
their limits. Cites: 09_wake_watches_and_egress. -/
def Obligations.Watches : Prop :=
  ∀ (s : State) (g : Nat) (dest : Nat) (v : Word) (w : Watch) (l : List Watch), s.chip.live = true → g < 32 →
    let c := s.chip
    let x := c.watchSt g
    let gr := c.grp g
    let r := fun (f : Fld) => wgrpFld f g
    let span := c.g (r F.WKE_WGRP0_SPAN)
    let start := gr.close * 2 ^ gr.orderLog
    let stop := (start / span + 1) * span
    let ser := (c.g (r F.WKE_WGRP3_SERIAL) + 1) % 2 ^ 32
    let own := fun (d : Chip) => (∀ i, i ≠ g → d.watchSt i = c.watchSt i) ∧ d.wake = { c.wake with watch := d.wake.watch } ∧
      c.regsBut d (fun a => decide (0x42000100 + 32 * g ≤ a ∧ a < 0x42000120 + 32 * g))
    let shut := w.hi / 2 ^ gr.orderLog < gr.close
    let late := fun (w : Watch) => !w.lateSeen && decide (c.deadline g w.hi < c.kcount)
    let mark := fun (w : Watch) => if late w then { w with lateSeen := true } else w
    let may := c.role = .operator ∨ c.role = .installer
    let bad := v.toNat % 8 ≠ 0 ∨ v.toNat < max 640 (limSpanMin c.work) ∨ min 640000000 (limSpanMax c.work) < v.toNat
    let age := (c.oldestWatch.map (fun lo => c.kcount - lo)).getD 0
    let depth := 640 * c.wakeDepth
    let hwm := min 100 (c.g F.WKE_CTL_HWM)
    let busy := c.b F.WKE_STAT_BUSY_WAKE
    let rises := busy = false ∧ c.oldestWatch ≠ none ∧ hwm * depth ≤ 100 * age
    let falls := busy = true ∧ (c.oldestWatch = none ∨ 100 * age ≤ min hwm (c.g F.WKE_CTL_LWM) * depth)
    let hit := (c.flag F.WKE_STAT_HWM_HIT 128 0).logAct 0 0 age
    let stays := c.kcount ≤ w.hi ∨ gr.running = false ∨ gr.stopEnd.any (· ≤ w.hi + 1) = true
    let from_ := w.hi + 1
    let upto := (from_ / x.span + 1) * x.span
    let calm := x.newSpan = none ∧ x.shortened = false ∧ x.lastLate = false ∧ x.closed = [] ∧ c.emitting g = none ∧ x.span ≠ 0 ∧
      ∀ y ∈ x.open_ ++ [w], c.kcount ≤ c.deadline g y.hi
    (c.streaming g = false → s.managerDoes (.watchBuild g) (· = c)) ∧
    (x.cur = some w → stays → x.closed = [] ∨ c.emitting g ≠ none → s.managerDoes (.watchBuild g) (· = c)) ∧
    (x.cur = none → gr.running = false → x.closed = [] ∨ c.emitting g ≠ none → s.managerDoes (.watchBuild g) (· = c)) ∧
    (c.streaming g = true → x.cur = some w → ¬ stays → calm → s.managerDoes (.watchBuild g) fun d =>
      d = { c with regs := d.regs, wake := d.wake } ∧ own d ∧ d.g (r F.WKE_WGRP3_SERIAL) = ser ∧ d.g (r F.WKE_WGRP2_CUR) = x.span ∧
      d.watchSt g = { x with open_ := x.open_ ++ [w],
                             cur := some ⟨from_, upto - 1, ser, decide (upto - from_ < span), false, c.g F.MER_STAT_STATE⟩ }) ∧
    (c.streaming g = true → x.cur = none → gr.running = false → x.closed = w :: l → c.emitting g = none → watchDest c.work g = dest → dest < egNDest c.work →
      c.work ≠ [] → s.managerDoes (.watchBuild g) fun d =>
        d = { c with regs := d.regs, wake := d.wake, egr := { c.egr with lanes := d.egr.lanes } } ∧ own d ∧ d.watchSt g = { x with closed := l } ∧
        (∀ k, k ≠ c.laneOf dest → d.lane k = c.lane k) ∧
        ∃ o : EObj, (d.lane (c.laneOf dest)).objs = (c.lane (c.laneOf dest)).objs ++ [o] ∧ o.ftype = .watch ∧ o.group = g ∧ o.lo = w.lo ∧ o.hi = w.hi ∧
          o.serial = w.serial ∧ o.dest = dest ∧ o.short = w.short ∧ o.late = w.lateSeen ∧ o.upTo = w.hi / 2 ^ gr.orderLog + 1) ∧
    (c.streaming g = true → gr.running = true → x = WatchSt.init → c.emitting g = none → s.managerDoes (.watchBuild g) fun d =>
      d = { c with regs := d.regs, wake := d.wake } ∧ own d ∧ d.g (r F.WKE_WGRP3_SERIAL) = ser ∧ d.g (r F.WKE_WGRP2_CUR) = span ∧
      d.watchSt g = { x with cur := some ⟨start, stop - 1, ser, decide (stop - start < span), false, c.g F.MER_STAT_STATE⟩, span := span }) ∧
    (x.open_ = w :: l → shut → s.managerDoes (.watchClose g) fun d =>
      d = { c with regs := d.regs, wake := d.wake } ∧ own d ∧ d.watchSt g = { x with open_ := l, closed := x.closed ++ [w] }) ∧
    (x.open_ = [] ∨ (x.open_ = w :: l ∧ ¬ shut) → s.managerDoes (.watchClose g) (· = c)) ∧
    ((x.open_ ++ x.closed).any late = false → s.managerDoes (.watchDeadline g) (· = c)) ∧
    ((x.open_ ++ x.closed).any late = true → s.managerDoes (.watchDeadline g) fun d =>
      d = { c.flag F.WKE_STAT_WATCH_LATE 144 g with wake := { c.wake with watch := d.wake.watch } } ∧
      ∀ i, d.watchSt i = if i = g then { x with open_ := x.open_.map mark, closed := x.closed.map mark } else c.watchSt i) ∧
    (may → c.streaming g = false → s.managerDoes (.spanWrite g v) fun d => d = { c with bus := .done }) ∧
    (may → c.streaming g = true → bad → s.managerDoes (.spanWrite g v) fun d =>
      d = { (c.event 149 g).logCtx kRefusal 0x0100 (Sys2Proof.at_ 159 128 (0x42000100 + 32 * g) + Sys2Proof.at_ 127 64 v.toNat) with bus := .done }) ∧
    (may → c.streaming g = true → ¬ bad → s.managerDoes (.spanWrite g v) fun d =>
      d = { c.event 148 g with regs := d.regs, wake := { c.wake with watch := d.wake.watch }, bus := .done } ∧
      (c.event 148 g).puts d [(r F.WKE_WGRP0_SPAN, v.toNat)] ∧
      ∀ i, d.watchSt i = if i = g ∧ x.cur ≠ none then { x with newSpan := some (x.newSpan.getD span) } else c.watchSt i) ∧
    (rises → s.managerDoes .wakeHwm fun d => d = { hit with regs := d.regs } ∧ hit.puts d [(F.WKE_STAT_BUSY_WAKE, 1)]) ∧
    (falls → s.managerDoes .wakeHwm fun d => d = { c.event 129 0 with regs := d.regs } ∧ (c.event 129 0).puts d [(F.WKE_STAT_BUSY_WAKE, 0)]) ∧
    (¬ rises → ¬ falls → s.managerDoes .wakeHwm (· = c)) ∧
    (s.managerDoes (.factorMinWrite v) fun d =>
      d = { c with regs := d.regs, bus := .done } ∧ c.puts d [(F.WKE_FACTOR_FACTOR_MIN, c.g F.WKE_FACTOR_FACTOR)])

/-- A lane sends the next frame under its SEQ and keeps it until CONFIRM_T; PFC pauses priorities; a fault brings in the
spare. Cites: 09_wake_watches_and_egress. -/
def Obligations.EgressLanes : Prop :=
  ∀ (s : State) (l p prio enable quanta cause corr unc stop since : Nat) (f : Frame) (o : EObj) (rest : List Frame), s.chip.live = true → l < 8 → p < 9 →
      prio < 8 →
    let c := s.chip
    let ph := c.phys l
    let x := c.lane l
    let r := fun (f : Fld) => laneFld f p
    let ready := x.resend.find? (fun f => !c.paused ph (c.pcp f.dest))
    let again : Frame := { f with hdr := f.hdr.set 2 (f.hdr.getD 2 0 ||| 0x20), phys := ph, sentAt := c.tick }
    let sent := fun (d : Chip) => d.g (laneFld F.EGR_LANE1_FRAMES ph) = (c.g (laneFld F.EGR_LANE1_FRAMES ph) + 1) % 2 ^ 32 ∧ ∀ k, k ≠ l → d.lane k = c.lane k
    let resent := fun (d : Chip) => d = { c with regs := d.regs, egr := { c.egr with lanes := d.egr.lanes, wire := d.egr.wire }, freeIx := c.freeIx + 1 } ∧
      sent d ∧ d.lane l = { x with resend := x.resend.erase f, unconf := x.unconf ++ [again] } ∧
      d.g F.EGR_STAT_RESENT = satTo F.EGR_STAT_RESENT (c.g F.EGR_STAT_RESENT) 1
    let pause := fun (d : Chip) (i : Nat) => AMap.get (always none) d.egr.pause i
    let at_ := 8 * p + prio
    let paused := fun (d : Chip) (v : Option (Nat × Nat × Bool)) => d.egr = { c.egr with pause := d.egr.pause } ∧
      ∀ i, pause d i = if i = at_ then v else pause c i
    let long := (c.flag F.EGR_STAT_PFC_LONG 163 p).logAct p prio 0
    let on := (pause c at_).filter (fun y => decide (c.tick < y.1))
    let role := c.g (r F.EGR_LANE0_ROLE)
    let counted := [(r F.EGR_LANE2_FEC_CORR, satTo (r F.EGR_LANE2_FEC_CORR) (c.g (r F.EGR_LANE2_FEC_CORR)) corr),
      (r F.EGR_LANE2_FEC_UNC, satTo (r F.EGR_LANE2_FEC_UNC) (c.g (r F.EGR_LANE2_FEC_UNC)) unc)]
    let fault := role ≠ 0 ∧ cause ∈ [1, 2, 3, 4] ∧ (cause = 3 → c.g F.EGR_FAULT_FEC_UNC_LIM < unc)
    let failed := fun (d : Chip) => d.g (r F.EGR_LANE0_ROLE) = 3 ∧ d.g (r F.EGR_LANE0_CAUSE) = cause ∧ d.g F.EGR_STAT_LANE_FAULT = 1 ∧ d.pend 160 = true ∧
      (cause ≠ 3 → d.g (r F.EGR_LANE0_UP) = 0)
    let sp := c.g F.EGR_STAT_SPARE
    let covers := c.b F.EGR_STAT_SPARE_OK = true ∧ c.laneUp sp = true ∧ limFlag c.work limLaneSpare = true
    let fb := c.g F.EGR_FALLBACK_FB / 16 ^ l % 16
    let now := role = 3 ∧ c.laneUp p = true ∧ AMap.get (always 0) c.egr.upSince p + 640000000 ≤ c.tick ∧ sp = 0xF
    let dest := chartF c.work secEgress 24 1
    let mon := c.work ≠ [] ∧ dest < egNDest c.work ∧ c.g F.EGR_SYSDEST_MON_INT ≠ 0 ∧ egNMon c.work ≠ 0 ∧
      c.egr.monAt + c.g F.EGR_SYSDEST_MON_INT * 640000 ≤ c.tick
    (c.laneUp ph = false ∨ (ready = none ∧ c.pickObj l ph = none) → s.managerDoes (.frameSend l) (· = c)) ∧
    (c.laneUp ph = true → ready = some f → s.managerDoes (.frameSend l) resent) ∧
    (c.laneUp ph = true → ready = none → c.pickObj l ph = some o → s.managerDoes (.frameSend l) fun d =>
      sent d ∧ (d.lane l).seq = (x.seq + 1) % 2 ^ 32 ∧ (d.lane l).resend = x.resend ∧ d.workers = c.workers ∧ d.que = c.que ∧ d.mer = c.mer ∧
      ∃ g : Frame, (d.lane l).unconf = x.unconf ++ [g] ∧ g.seq = x.seq ∧ g.lane = l ∧ g.ftype = o.ftype ∧ g.dest = o.dest ∧ g.phys = ph ∧ g.sentAt = c.tick) ∧
    (c.laneUp ph = true → x.resend = f :: rest → s.managerDoes (.firstResentFrame l none) resent) ∧
    (c.laneUp ph = false ∨ x.resend = [] → s.managerDoes (.firstResentFrame l none) (· = c)) ∧
    (s.managerDoes (.frameConfirm l) fun d => d = { c with egr := { c.egr with lanes := d.egr.lanes } } ∧
      ∀ k, d.lane k = if k = l then { x with unconf := x.unconf.filter (fun f =>
        !(decide (f.sentAt + 640 * max 1 (c.g F.EGR_CTL_CONFIRM_T) ≤ c.tick) && c.laneUp f.phys)) } else c.lane k) ∧
    (s.managerDoes (.pfcReceived p enable quanta) fun d =>
      d = { c with regs := d.regs, egr := { c.egr with pause := d.egr.pause } } ∧
      c.puts d [(r F.EGR_LANE3_PFC_RX, satTo (r F.EGR_LANE3_PFC_RX) (c.g (r F.EGR_LANE3_PFC_RX)) 1)] ∧
      pause d at_ = (if bitOf enable prio = false then pause c at_
        else if bitsOf quanta (16 * prio + 15) (16 * prio) = 0 then none
        else some (c.tick + pauseTicks (bitsOf quanta (16 * prio + 15) (16 * prio)),
          (on.map (fun y => y.2.1)).getD c.tick, (on.map (fun y => y.2.2)).getD false)) ∧
      ∀ i, i / 8 ≠ p → pause d i = pause c i) ∧
    (pause c at_ = some (stop, since, true) ∨ pause c at_ = none ∨
      (pause c at_ = some (stop, since, false) ∧ min stop c.tick < since + 640000 * c.g F.EGR_FAULT_PFC_WD) →
      s.managerDoes (.pfcWatchdog p prio) (· = c)) ∧
    (pause c at_ = some (stop, since, false) → since + 640000 * c.g F.EGR_FAULT_PFC_WD ≤ min stop c.tick → s.managerDoes (.pfcWatchdog p prio) fun d =>
      d = { long with egr := d.egr } ∧ paused d (some (stop, since, true))) ∧
    (∀ b, pause c at_ = some (stop, since, b) → stop ≤ c.tick → s.managerDoes (.pfcPauseExpiry p prio) fun d => d = { c with egr := d.egr } ∧ paused d none) ∧
    (∀ b, pause c at_ = none ∨ (pause c at_ = some (stop, since, b) ∧ c.tick < stop) → s.managerDoes (.pfcPauseExpiry p prio) (· = c)) ∧
    (s.managerDoes (.rxFrameDiscard p) fun d => d = { c.flag F.EGR_STAT_RX_DISCARD 164 p with regs := d.regs } ∧
      (c.flag F.EGR_STAT_RX_DISCARD 164 p).puts d [(r F.EGR_LANE3_RX_DISC, satTo (r F.EGR_LANE3_RX_DISC) (c.g (r F.EGR_LANE3_RX_DISC)) 1)]) ∧
    (¬ fault → s.managerDoes (.laneFault p cause corr unc) fun d => d = { c with regs := d.regs } ∧ c.puts d counted) ∧
    (fault → role = 3 → s.managerDoes (.laneFault p cause corr unc) fun d =>
      d = { c with regs := d.regs, egr := { c.egr with upSince := d.egr.upSince } } ∧ AMap.get (always 0) d.egr.upSince p = c.tick ∧
      c.puts d (counted ++ (r F.EGR_LANE0_CAUSE, cause) :: if cause = 3 then [] else [(r F.EGR_LANE0_UP, 0)])) ∧
    (fault → role = 2 → s.managerDoes (.laneFault p cause corr unc) fun d =>
      d = { c with regs := d.regs, hot := d.hot, evt := d.evt, egr := { c.egr with upSince := d.egr.upSince } } ∧ failed d ∧ d.g F.EGR_STAT_SPARE_OK = 0 ∧
      d.g F.EGR_STAT_SPARE = 0xF ∧ d.pend 166 = true) ∧
    (fault → role = 1 → (List.range 8).find? (fun k => c.phys k = p) = some l → covers → sp ≠ p → s.managerDoes (.laneFault p cause corr unc) fun d =>
      failed d ∧ d.phys l = sp ∧ (∀ k, k < 8 → k ≠ l → d.phys k = c.phys k) ∧ d.g (laneFld F.EGR_LANE0_ROLE sp) = 1 ∧ d.g (laneFld F.EGR_LANE0_LOGICAL sp) = l ∧
      d.g F.EGR_STAT_SPARE_OK = 0 ∧ d.g F.EGR_STAT_SPARE = 0xF ∧ d.g F.EGR_STAT_TAKEOVER = 1 ∧ d.pend 161 = true ∧
      (d.lane l).unconf = x.unconf.filter (fun f => f.phys ≠ p) ∧ (∀ f ∈ x.unconf, f.phys = p → f ∈ (d.lane l).resend) ∧
      (∀ k, k ≠ l → d.lane k = c.lane k) ∧ d.workers = c.workers ∧ d.wake = c.wake) ∧
    (fault → role = 1 → (List.range 8).find? (fun k => c.phys k = p) = some l → ¬ covers → s.managerDoes (.laneFault p cause corr unc) fun d =>
      failed d ∧ d.phys l = 0xF ∧ d.g F.EGR_STAT_NO_SPARE = 1 ∧ d.pend 162 = true ∧ d.workers = c.workers ∧ d.wake = c.wake ∧
      (d.lane l).unconf = x.unconf.filter (fun f => f.phys ≠ p) ∧
      (8 ≤ fb → (d.lane l).objs = x.objs ∧ ∀ f ∈ x.resend, f ∈ (d.lane l).resend) ∧
      (fb < 8 → fb ≠ l → (d.lane l).resend = [] ∧ (d.lane l).objs = [] ∧ (d.lane fb).objs = (c.lane fb).objs ++ x.objs ∧
        (∀ f ∈ (c.lane fb).resend ++ x.resend, f ∈ (d.lane fb).resend) ∧ ∀ k, k < egNDest c.work → c.laneOf k = l → d.laneOf k = fb)) ∧
    (now → s.managerDoes (.laneRecover p) fun d => d = { c.event 165 p with regs := d.regs } ∧ (c.event 165 p).puts d
      [(r F.EGR_LANE0_ROLE, 2), (F.EGR_STAT_SPARE, p), (F.EGR_STAT_SPARE_OK, 1)]) ∧
    (¬ now → s.managerDoes (.laneRecover p) (· = c)) ∧
    (bitOf (c.g F.EGR_CTL_LANE_EN) p = false → s.managerDoes (.laneLinkUp p) (· = c)) ∧
    (bitOf (c.g F.EGR_CTL_LANE_EN) p = true → s.managerDoes (.laneLinkUp p) fun d =>
      d = { c with regs := d.regs, egr := { c.egr with upSince := d.egr.upSince } } ∧ AMap.get (always 0) d.egr.upSince p = c.tick ∧
      c.puts d ((r F.EGR_LANE0_UP, 1) :: (if role = 2 then [(F.EGR_STAT_SPARE_OK, 1)] else []))) ∧
    (¬ mon → s.managerDoes .monitorFrame (· = c)) ∧
    (mon → s.managerDoes .monitorFrame fun d => d.egr.monAt = c.tick ∧
      ∃ os : List EObj, os ≠ [] ∧ (∀ y ∈ os, y.ftype = .monitor ∧ y.dest = dest) ∧ (d.lane (c.laneOf dest)).objs = (c.lane (c.laneOf dest)).objs ++ os)

/-- A visited word is repaired, counted or poisoned; two clean passes clear a suspect; a word that does not exist stops.
Cites: 11_integrity_and_fault_handling. -/
def Obligations.ProtectedWords : Prop :=
  ∀ (s : State) (m a d' syn : Nat) (okA okB : Bool) (find : EccFind), s.chip.live = true →
    let c := s.chip
    let x := c.mem m
    let e0 := c.eccAt m a
    let e : EccErr := { e0 with d := Nat.xor e0.d find.flipD, k := Nat.xor e0.k find.flipK }
    let isAt := fun (d : Chip) (v : EccErr) => ∀ b, d.eccAt m b = if b = a then v else c.eccAt m b
    let only := fun (d : Chip) => d.int = { c.int with mems := d.int.mems } ∧ ∀ k, k ≠ m → d.mem k = c.mem k
    let pass := if isStack m then 38400000000 * min 1440 (max 1 (c.g F.INT_CTL_SCRUB_MIN)) else 640000000
    let blocked := c.b F.INT_CTL_SCRUB_EN = false ∨ m = 1 ∨ c.bypassed m = true ∨ a < x.cursor ∨ c.scrubDue m x.cursor a = true ∨
      c.tick < x.passAt + a * pass / memWords m
    let last := a + 1 = memWords m
    let passes := memFld F.INT_MEM2_PASSES m
    let count := fun (d : Chip) (f : Fld) => d.g (memFld f m) = satTo f (c.g (memFld f m)) 1
    let rest := fun (d : Chip) => d = { c with int := d.int, regs := d.regs, hot := d.hot, evt := d.evt, wake := d.wake, rose := d.rose }
    let known := wordExists m a = true ∧ find.disagree = none
    let lost := fun (d : Chip) => rest d ∧ isAt d { e with k := Nat.xor (eccCheck m e.d) (poisonMask m) } ∧ count d F.INT_MEM1_UE_CNT ∧
      d.g F.INT_STAT_UE = 1 ∧ d.pend 177 = true ∧ (m = 3 ∨ m = 4 → ∀ y ∈ roseEntries m a, y ∈ d.rose.off) ∧ (m = 2 → a / 2 ∈ d.int.rebuild)
    (wordExists m a = false → exec (.scrubWord m a find) s = .fault .noSuchWord) ∧
    (known → find.access = .fullWrite → s.managerDoes (.scrubWord m a find) fun d =>
      d = { c with int := d.int } ∧ only d ∧ isAt d EccErr.none ∧
      d.mem m = { x with errs := (d.mem m).errs, suspects := x.suspects.filter (fun y => y.1 ≠ a) }) ∧
    (wordExists m a = true → find.disagree = some (okA, okB) → x.chkOut = [] → isStack m = false → find.access = .fullWrite →
      s.managerDoes (.scrubWord m a find) fun d => isAt d EccErr.none ∧ d.pend 184 = true ∧ d.workers = c.workers ∧ d.ports = c.ports ∧
        (d.mem m).chkOut = (if okA = false then [0] else if okB = false then [1] else []) ∧
        (d.mem m).chkUse = (if okA = true ∧ okB = false then 0 else 1) ∧
        (okA = false ∨ okB = false → bitOf (d.g F.INT_STUP_CHK_DEGR) m = true ∧ d.g F.INT_STAT_DEGRADED = 1)) ∧
    (known → find.access = .scrub → blocked → s.managerDoes (.scrubWord m a find) (· = c)) ∧
    (known → find.access = .scrub → ¬ blocked → find.overtaken = false → (eccDecode m e.d e.k).1 = .clean → s.managerDoes (.scrubWord m a find) fun d =>
      d = { c with int := d.int, regs := d.regs } ∧ only d ∧ isAt d e ∧ c.puts d (if last then [(passes, c.g passes + 1)] else []) ∧
      d.mem m = { x with
        errs := (d.mem m).errs, cursor := if last then 0 else a + 1, passAt := if last then max c.tick (x.passAt + pass) else x.passAt,
        suspects := x.suspects.flatMap (fun y => if y.1 = a then (if y.2 = 0 then [(a, 1)] else []) else [y]) }) ∧
    (known → find.access = .read → find.overtaken = false → (eccDecode m e.d e.k).1 = .clean → s.managerDoes (.scrubWord m a find) fun d =>
      d = { c with int := d.int } ∧ only d ∧ isAt d e ∧ d.mem m = { x with errs := (d.mem m).errs }) ∧
    (known → find.access = .read → find.overtaken = false → eccDecode m e.d e.k = (.corrected, d', syn) → s.managerDoes (.scrubWord m a find) fun d =>
      rest d ∧ isAt d ⟨e.known, d', eccCheck m d'⟩ ∧ count d F.INT_MEM0_CE_CNT ∧ d.g F.INT_STAT_CE = 1 ∧ d.pend 176 = true ∧
      (a, 0) ∈ (d.mem m).suspects ∧ d.rose = c.rose ∧ d.wake = c.wake) ∧
    (known → find.access = .read → find.overtaken = false → (eccDecode m e.d e.k).1 = .uncorrectable → s.managerDoes (.scrubWord m a find) lost) ∧
    (known → find.access = .partialWrite → find.overtaken = false → (eccDecode m e.d e.k).1 = .uncorrectable → s.managerDoes (.scrubWord m a find) fun d =>
      lost d ∧ d.g F.INT_STAT_PART_REFUSED = 1 ∧ d.pend 182 = true)

/-- A failed test makes a lasting fault, whose entry redirects the word or retires its cell or page; rebuilt words return to
use. Cites: 11_integrity_and_fault_handling. -/
def Obligations.FaultsRemapped : Prop :=
  ∀ (s : State) (m a : Nat) (fails ue : Bool) (t : TestReq) (r : List TestReq) (l : List (Nat × Bool)), s.chip.live = true →
    let c := s.chip
    let x := c.mem m
    let only := fun (d : Chip) => d.int = { c.int with mems := d.int.mems } ∧ ∀ k, k ≠ m → d.mem k = c.mem k
    let passed := c.bypassed m = true ∨ (fails = false ∧ (t.suspect = false ∨ t.ue = true))
    let new := c.b F.INT_CTL_REMAP_EN = true ∧ ∀ y ∈ x.installs, eccUnit m y.1 ≠ eccUnit m t.addr
    let rest := fun (d : Chip) => d = { c with int := d.int, regs := d.regs, hot := d.hot, evt := d.evt }
    let early := c.bypassed m = true ∨ (m = 0 ∧ ∃ u, x.lastInstall = some u ∧ c.tick < u + 6400000)
    let used := memFld F.INT_MEM1_REMAP_USED m
    let lasting := memFld F.INT_MEM1_LASTING m
    let done : MemX := { x with installs := l, lastInstall := some c.tick }
    let full := fun (d : Chip) => d.g F.INT_STAT_REMAP_FULL = 1 ∧ d.pend 180 = true ∧ d.workers = c.workers ∧ d.ports = c.ports
    let clear := fun (d : Chip) (words : List Nat) => (∀ b, d.eccAt m b = if b ∈ words then EccErr.none else c.eccAt m b) ∧ ∀ k, k ≠ m → d.mem k = c.mem k
    let ents := roseEntries m a
    let off := (m = 3 ∨ m = 4) ∧ ∃ y ∈ ents, y ∈ c.rose.off
    (memWords m = 0 → exec (.targetedTest m fails) s = .fault .noSuchWord ∧ exec (.remapInstall m) s = .fault .noSuchWord) ∧
    (memWords m ≠ 0 → x.tests = [] → s.managerDoes (.targetedTest m fails) (· = c)) ∧
    (memWords m ≠ 0 → x.tests = t :: r → passed → s.managerDoes (.targetedTest m fails) fun d =>
      d = { c with int := d.int } ∧ only d ∧ d.mem m = { x with tests := r }) ∧
    (memWords m ≠ 0 → x.tests = t :: r → ¬ passed → s.managerDoes (.targetedTest m fails) fun d =>
      rest d ∧ (∀ k, k ≠ m → d.mem k = c.mem k) ∧ d.mem m = { x with tests := r, installs := if new then x.installs ++ [(t.addr, t.ue)] else x.installs } ∧
      d.g lasting = satTo lasting (c.g lasting) 1 ∧ d.g F.INT_STAT_LASTING = 1 ∧ d.pend 178 = true) ∧
    (memWords m ≠ 0 → x.installs = [] ∨ early → s.managerDoes (.remapInstall m) (· = c)) ∧
    (memWords m ≠ 0 → x.installs = (a, ue) :: l → ¬ early → x.remaps.length < memSpares m → s.managerDoes (.remapInstall m) fun d =>
      d = { c with int := d.int, regs := d.regs, hot := d.hot, evt := d.evt, log := d.log, freeIx := c.freeIx + 1 } ∧
      (∀ k, k ≠ m → d.mem k = c.mem k) ∧ d.mem m = { done with remaps := x.remaps ++ [eccUnit m a] } ∧
      d.g used = satTo used (c.g used) 1 ∧ d.g F.INT_STAT_REMAP = 1 ∧ d.pend 179 = true) ∧
    (memWords m ≠ 0 → x.installs = (a, ue) :: l → ¬ early → memSpares m ≤ x.remaps.length → s.managerDoes (.remapInstall m) fun d =>
      full d ∧ (m = 0 → a / 32 ∈ (d.mem m).retired) ∧ (isStack m = true → beatPage m a ∈ (d.mem m).retired) ∧
      (m ≠ 0 → isStack m = false → d.mem m = { done with worn := x.worn ++ [a] })) ∧
    (a ∉ c.int.rebuild → s.managerDoes (.indexEntryRebuilt a) (· = c)) ∧
    (a ∈ c.int.rebuild → m = 2 → s.managerDoes (.indexEntryRebuilt a) fun d => d = { c with int := d.int } ∧
      d.int.rebuild = c.int.rebuild.filter (· ≠ a) ∧ clear d [2 * a, 2 * a + 1]) ∧
    (¬ off → s.managerDoes (.wordReloaded m a) (· = c)) ∧
    (off → s.managerDoes (.wordReloaded m a) fun d => d = { c with int := d.int, rose := { c.rose with off := d.rose.off } } ∧
      d.rose.off = c.rose.off.filter (fun y => !ents.contains y) ∧ clear d [a])

/-- The standby Meridian unit takes over in cycle 12; cores checkpoint, halt, fail over after 2 s, or reboot when no shadow
is left. Cites: 11_integrity_and_fault_handling. -/
def Obligations.SpareUnits : Prop :=
  ∀ (s : State) (cause u p t : Nat), s.chip.live = true → u < 2 → p < 2 →
    let c := s.chip
    let i := c.int
    let unit := c.g F.INT_MU_ACTIVE
    let st := fun (n : Nat) => c.g (if n = 0 then F.INT_MU_A_STATE else F.INT_MU_B_STATE)
    let fld := fun (n : Nat) => if n = 0 then F.INT_MU_A_STATE else F.INT_MU_B_STATE
    let spare := st (1 - unit) = 0
    let yields := fun (why : Nat) => { c with int := { i with muAt := some (c.tick + 12, why) }, mer := { c.mer with gapEnd := c.tick + 13 } }
    let testing := fun (d : Chip) (n : Nat) => d = { c with
        regs := d.regs, int := (if n = 0 then { i with muTestA := c.tick + 640000000 } else { i with muTestB := c.tick + 640000000 }) } ∧
      c.puts d [(fld n, 2)]
    let mayTest := i.muAt = none ∧ spare
    let ended := st u = 2 ∧ (if u = 0 then i.muTestA else i.muTestB) ≤ c.tick
    let ckpt := i.coresUp = true ∧ i.ckptAt + max 50 (c.g F.INT_CKPT_CKPT_INT) * 640000 ≤ c.tick
    let act := c.g F.INT_CORE_ACTIVE_PAIR
    let cfld := fun (n : Nat) => if n = 0 then F.INT_CORE_A_STATE else F.INT_CORE_B_STATE
    let cst := fun (n : Nat) => c.g (cfld n)
    let tested := fun (j : Integ) => if p = 0 then { j with coreTestA := c.tick + 1 } else { j with coreTestB := c.tick + 1 }
    let halted := fun (d : Chip) (j : Integ) => d = { c with regs := d.regs, int := tested j } ∧ c.puts d [(cfld p, 2)]
    let due := i.failAt = some t ∧ t + 1280000000 ≤ c.tick
    let runs := fun (d : Chip) => d.g F.INT_CORE_ACTIVE_PAIR = 1 - act ∧ d.g (cfld (1 - act)) = 1 ∧ d.g F.INT_STAT_CORE_SWITCH = 1 ∧
      d.pend 194 = true ∧
      d.g F.INT_CORE_SWITCHES = satTo F.INT_CORE_SWITCHES (c.g F.INT_CORE_SWITCHES) 1
    let ctest := cst p = 2 ∧ (if p = 0 then i.coreTestA else i.coreTestB) ≠ 0
    let cend := if p = 0 then { i with coreTestA := 0 } else { i with coreTestB := 0 }
    let reboots := i.rebootAt ≠ none ∧ cst act = 2 ∧ (if act = 0 then i.coreTestA else i.coreTestB) = 0
    (i.muAt ≠ none → s.managerDoes (.muFault cause) (· = c) ∧ (c.role = .installer → s.managerDoes .muSwitchRequest fun d =>
      d = { c with regs := d.regs, bus := .done } ∧ c.puts d [(F.INT_MU_SWITCH, 0)])) ∧
    (mayTest → s.managerDoes (.muFault cause) (· = yields cause)) ∧
    (i.muAt = none → ¬ spare → s.managerDoes (.muFault cause) fun d =>
      d.int = { i with muWorn := true } ∧ d.g F.MER_STAT_STATE = 0 ∧ d.g F.INT_STAT_DEGRADED = 1 ∧ d.workers = c.workers ∧ d.ports = c.ports) ∧
    (mayTest → c.role = .installer → s.managerDoes .muSwitchRequest fun d =>
      d = { yields 7 with regs := d.regs, bus := .done } ∧ c.puts d [(F.INT_MU_SWITCH, 0)]) ∧
    (mayTest → s.managerDoes .muStandbyFault (testing · (1 - unit))) ∧
    (¬ mayTest → s.managerDoes .muStandbyFault (· = c)) ∧
    (ended → s.managerDoes (.muSelfTestEnd u true) fun d => d = { c with regs := d.regs } ∧ c.puts d [(fld u, 0)]) ∧
    (ended → s.managerDoes (.muSelfTestEnd u false) fun d => d.g (fld u) = 3 ∧ d.pend 193 = true ∧ d.g F.INT_STAT_DEGRADED = 1 ∧ d.int = i) ∧
    (¬ ended → ∀ ok, s.managerDoes (.muSelfTestEnd u ok) (· = c)) ∧
    (ckpt → s.managerDoes .checkpoint fun d => d = { c with int := { i with ckptAt := c.tick, ckptPrev := i.ckptAt } }) ∧
    (¬ ckpt → s.managerDoes .checkpoint (· = c)) ∧
    (p = act → i.coresUp = true → cst (1 - p) = 0 → s.managerDoes (.coreMismatch p) fun d =>
      d = { c with regs := d.regs, int := tested { i with coresUp := false, failAt := some c.tick }, mgt := { c.mgt with queue := [] } } ∧
      c.puts d [(cfld p, 2)]) ∧
    (p = act → i.coresUp = true → cst (1 - p) ≠ 0 → s.managerDoes (.coreMismatch p) fun d =>
      d = { c with regs := d.regs, int := tested { i with coresUp := false, rebootAt := some c.tick }, mgt := { c.mgt with queue := [] } } ∧
      c.puts d [(cfld p, 2)]) ∧
    (p ≠ act → cst p = 0 → i.failAt = none → s.managerDoes (.coreMismatch p) (halted · i)) ∧
    (p ≠ act → cst p = 0 → i.failAt ≠ none → s.managerDoes (.coreMismatch p) (halted · { i with failAt := none, rebootAt := some c.tick })) ∧
    ((p = act ∧ i.coresUp = false) ∨ (p ≠ act ∧ cst p ≠ 0) → s.managerDoes (.coreMismatch p) (· = c)) ∧
    (due → s.managerDoes .coreFailoverEnd fun d =>
      d = { c with regs := d.regs, hot := d.hot, int := { i with failAt := none, coresUp := true }, evt := d.evt, log := d.log, freeIx := c.freeIx + 1 } ∧
      runs d) ∧
    (i.failAt = none ∨ (i.failAt = some t ∧ c.tick < t + 1280000000) → s.managerDoes .coreFailoverEnd (· = c)) ∧
    (ctest → s.managerDoes (.coreSelfTestEnd p false) fun d => d.g (cfld p) = 3 ∧ d.pend 195 = true ∧ d.g F.INT_STAT_DEGRADED = 1 ∧ d.int = cend) ∧
    (ctest → i.rebootAt = none ∨ p ≠ act → s.managerDoes (.coreSelfTestEnd p true) fun d =>
      d = { c with regs := d.regs, int := cend } ∧ c.puts d [(cfld p, 0)]) ∧
    (ctest → i.rebootAt ≠ none → p = act → s.managerDoes (.coreSelfTestEnd p true) fun d => d = { c with int := cend }) ∧
    (¬ ctest → ∀ ok, s.managerDoes (.coreSelfTestEnd p ok) (· = c)) ∧
    (reboots → i.coresUp = false → s.managerDoes .coreReboot fun d => d.g (cfld act) = 1 ∧ d.int.rebootAt = none ∧ d.pend 194 = true ∧
      d.pend 196 = true ∧
      d.g F.INT_CORE_REBOOTS = satTo F.INT_CORE_REBOOTS (c.g F.INT_CORE_REBOOTS) 1 ∧ d.workers = c.workers) ∧
    (¬ reboots → s.managerDoes .coreReboot (· = c))

/-- A stack that loses function retrains and is taken out at the third failure; heat and corrected beats raise its refresh.
Cites: 11_integrity_and_fault_handling. -/
def Obligations.MemoryStacks : Prop :=
  ∀ (s : State) (k t0 : Nat) (t : Int), s.chip.live = true → k < 8 → -128 ≤ t → t < 128 →
    let c := s.chip
    let x := c.stack k
    let own := fun (d : Chip) (y : StackX) => d.int = { c.int with badStacks := d.int.badStacks } ∧ ∀ j, d.stack j = if j = k then y else c.stack j
    let out := F.INT_TEMP_OUT.ix 4 k
    let temp := F.INT_TEMP_TEMP.ix 4 k
    let ref := F.INT_TEMP_REF4.ix 4 k
    let dose := F.INT_TEMP_DOSE_REF.ix 4 k
    let hour := F.INT_TEMP_CE_HOUR.ix 4 k
    let loses := c.b out = false ∧ x.sefiAt = none
    let fails := c.tick :: x.fails.filter (fun n => decide (c.tick < n + 640000000))
    let cool := if t < 100 then some (x.coolSince.getD c.tick) else none
    let cooled := ∃ n, cool = some n ∧ n + 640000000 ≤ c.tick
    let hot := 105 < t ∨ (x.hot = true ∧ ¬ cooled)
    let beats := (x.ces.filter (fun n => decide (c.tick < n + 2304000000000))).length
    let rises := c.b dose = false ∧ c.b F.INT_CTL_ADAPT_REF = true ∧ 10000 < beats ∧ signedOf 8 (c.g temp) ≤ 105
    let falls := c.b dose = true ∧ (c.b F.INT_CTL_ADAPT_REF = false ∨ (beats < 2000 ∧ x.highUntil + 55296000000000 ≤ c.tick))
    let anyHot := fun (d : Chip) => (d.g F.INT_STAT_HOT_REF = 1 ↔ ∃ j, j < 8 ∧ d.g (F.INT_TEMP_REF4.ix 4 j) ≠ 0)
    let changed := fun (d : Chip) (v : Nat) => d = { c with regs := d.regs, hot := d.hot, evt := d.evt, log := d.log, freeIx := c.freeIx + 1 } ∧ d.g dose = v ∧
      d.g ref = (if x.hot = true ∨ v = 1 then 1 else 0) ∧ d.pend 200 = true ∧ anyHot d
    (loses → s.managerDoes (.stackSefi k) fun d =>
      d = { c with regs := d.regs, hot := d.hot, evt := d.evt, int := d.int, wake := { c.wake with noAlloc := c.wake.noAlloc ++ [k] } } ∧
      own d { x with sefiAt := some c.tick } ∧ d.g F.INT_STAT_STACK_SEFI = 1 ∧ d.pend 197 = true) ∧
    (¬ loses → s.managerDoes (.stackSefi k) (· = c)) ∧
    (x.sefiAt = none → ∀ ok, s.managerDoes (.stackRetrainEnd k ok) (· = c)) ∧
    (x.sefiAt = some t0 → s.managerDoes (.stackRetrainEnd k true) fun d =>
      d = { c with int := d.int, wake := { c.wake with noAlloc := c.wake.noAlloc.filter (· ≠ k) } } ∧ own d { x with sefiAt := none }) ∧
    (x.sefiAt = some t0 → fails.length < 3 → s.managerDoes (.stackRetrainEnd k false) fun d =>
      d = { c with int := d.int } ∧ own d { x with sefiAt := some c.tick, fails := fails }) ∧
    (x.sefiAt = some t0 → 3 ≤ fails.length → s.managerDoes (.stackRetrainEnd k false) fun d =>
      d.g out = 1 ∧ bitOf (d.g F.INT_STUP_WAKE_FAIL) k = true ∧ d.pend 198 = true ∧ d.pend 132 = true ∧ d.pend 181 = true ∧
      d.g F.INT_STAT_DEGRADED = 1 ∧ d.stack k = { x with sefiAt := none, fails := fails } ∧ d.workers = c.workers ∧ d.ports = c.ports ∧ d.nvm = c.nvm) ∧
    (c.tick < x.readAt → s.managerDoes (.stackTempRead k t) (· = c)) ∧
    (x.readAt ≤ c.tick → s.managerDoes (.stackTempRead k t) fun d =>
      d = { c with regs := d.regs, hot := d.hot, evt := d.evt, log := d.log, freeIx := d.freeIx, int := d.int } ∧
      own d { x with readAt := c.tick + 640000, coolSince := cool, hot := (d.stack k).hot } ∧ ((d.stack k).hot = true ↔ hot) ∧
      signedOf 8 (d.g temp) = t ∧ (d.g ref = 1 ↔ hot ∨ c.b dose = true) ∧ anyHot d) ∧
    (rises → s.managerDoes (.doseRefreshChange k) (changed · 1)) ∧
    (falls → s.managerDoes (.doseRefreshChange k) (changed · 0)) ∧
    (¬ rises → ¬ falls → s.managerDoes (.doseRefreshChange k) fun d => d = { c with regs := d.regs } ∧ c.puts d [(hour, beats)])

/-- The start-up self-test clears queues and Wake and ends in PASS or not; bypass stores raw words outside a run; the error
log pops. Cites: 11_integrity_and_fault_handling. -/
def Obligations.SelfTestAndBypass : Prop :=
  ∀ (s : State) (find : StupFind) (v : Word) (stup : Bool), s.chip.live = true →
    let c := s.chip
    let i := c.int
    let inst := c.role = .installer
    let may := c.role = .installer ∨ c.role = .maker
    let busy := fun (d : Chip) (b : Nat) => d.g F.INT_STUP_BUSY = b ∧ d.g F.INT_STAT_STUP_BUSY = b
    let pass := fun (d : Chip) (b : Nat) => d.g F.INT_STUP_PASS = b ∧ d.g F.INT_STAT_STUP_PASS = b
    let none_ : StupFind := ⟨[], [], 0, []⟩
    let go := F.INT_BYP_CTL_GO.of v ≠ 0
    let en := F.INT_BYP_CTL_BYP_EN.of v ≠ 0
    let wr := F.INT_BYP_CTL_WR.of v ≠ 0
    let m := F.INT_BYP_CTL_MEM.of v
    let a := c.g F.INT_BYP_ADDR_ADDR
    let k := c.g F.INT_BYP_CHK_CHK
    let e := c.eccAt m a
    let done := fun (d : Chip) (r : Nat) => d.g F.INT_BYP_RES_DONE = 1 ∧ d.g F.INT_BYP_RES_RESULT = r
    let log := match i.elog with | y :: r => if y.when = c.tick then i.elog else r | [] => []
    let head : ELogEnt := log.headD ⟨0, 0, 0, 0, 0⟩
    (inst → c.run = true ∨ i.stup ≠ none → s.managerDoes .stupGo (· = { c with bus := .done })) ∧
    (inst → c.run = false → i.stup = none → s.managerDoes .stupGo fun d => d.int.stup = some false ∧ busy d 1 ∧ pass d 0 ∧ d.bus = .done ∧
      d.que.items = [] ∧ d.que.dcq = [] ∧ d.wake.windows = [] ∧ d.wake.chain = [] ∧ d.workers = c.workers ∧ d.ports = c.ports ∧ d.nvm = c.nvm) ∧
    (i.stup = none → s.managerDoes (.startupSelfTestEnd find) (· = c)) ∧
    (i.stup = some stup → (∀ j, j < 8 → c.b (F.INT_TEMP_OUT.ix 4 j) = false) → s.managerDoes (.startupSelfTestEnd none_) fun d =>
      d = { c with regs := d.regs, hot := d.hot, evt := d.evt, int := { i with stup := none } } ∧ busy d 0 ∧ pass d 1 ∧ d.pend 201 = true ∧
      d.g F.INT_STUP_WAKE_FAIL = 0) ∧
    (i.stup = some stup → find.badStacks % 256 ≠ 0 → s.managerDoes (.startupSelfTestEnd find) fun d =>
      d.int.stup = none ∧ busy d 0 ∧ pass d 0 ∧ d.pend 202 = true ∧
      ∀ j, j < 8 → (bitOf (d.g F.INT_STUP_WAKE_FAIL) j = true ↔ bitOf find.badStacks j = true ∨ c.b (F.INT_TEMP_OUT.ix 4 j) = true)) ∧
    (may → c.run = true → go ∨ en → s.managerDoes (.bypassAccess v) fun d =>
      d = { c with regs := d.regs, log := d.log, bus := ⟨0, true, false⟩ } ∧ d.log ≠ c.log ∧
      c.puts d (if go then [(F.INT_BYP_RES_DONE, 1), (F.INT_BYP_RES_RESULT, 3)] else [])) ∧
    (may → ¬ go → c.run = false ∨ ¬ en → s.managerDoes (.bypassAccess v) fun d =>
      d = { c with regs := d.regs, bus := .done } ∧ ∀ b, d.word b = if b = 0x45000040 then v &&& 0xA0FF0000#32 else c.word b) ∧
    (may → c.run = false → go → ¬ en → s.managerDoes (.bypassAccess v) fun d => d = { c with regs := d.regs, bus := .done } ∧ done d 3) ∧
    (may → c.run = false → go → en → wr → wordExists m a = true → s.managerDoes (.bypassAccess v) fun d =>
      done d 0 ∧ d.pend 185 = true ∧ d.bus = .done ∧ d.workers = c.workers ∧ d.wake = c.wake ∧
      (∀ b, d.eccAt m b = if b = a then ⟨true, c.bypData m, if isStack m then k else k % 256⟩ else c.eccAt m b) ∧ ∀ j, j ≠ m → d.mem j = c.mem j) ∧
    (may → c.run = false → go → en → ¬ wr → wordExists m a = true → e.known = true → s.managerDoes (.bypassAccess v) fun d =>
      done d (match (eccDecode m e.d e.k).1 with
        | .clean => 0
        | .corrected => 1
        | .uncorrectable => 2) ∧
      d.g F.INT_BYP_CHK_CHK = e.k % 2 ^ 32 ∧ d.pend 185 = true ∧ d.bus = .done ∧ d.int = i) ∧
    (may → c.run = false → go → en → wordExists m a = false → s.managerDoes (.bypassAccess v) fun d => d.g F.INT_BYP_RES_DONE = 1 ∧ d.pend 185 = true ∧
      d.freeIx = c.freeIx + 1 ∧ d.bus = .done ∧ d.int = i ∧ d.workers = c.workers) ∧
    (s.managerDoes .elogPop fun d => d = { c with regs := d.regs, int := { i with elog := log }, bus := .done } ∧
      d.g F.INT_ELOG_STAT_LEVEL = min 64 log.length ∧ d.word 0x45000014 = BitVec.ofNat 32 head.w0 ∧ d.word 0x45000018 = BitVec.ofNat 32 head.w1 ∧
      d.word 0x4500001C = BitVec.ofNat 32 head.w2 ∧ d.word 0x45000020 = BitVec.ofNat 32 head.w3)

/-- A store, an erase or an activation of a Chart slot verifies, acts and ends with its reason code and events 16 and 17.
Cites: 10_chart_bitstream. -/
def Obligations.ChartSlots : Prop :=
  ∀ (s : State) (k : Nat) (ok : Bool) (why : Reason), s.chip.live = true → k < 4 → s.chip.role = .installer →
    let c := s.chip
    let len := c.g F.GBL_STG_LEN_LEN
    let img := if len ≤ 4194304 then sliceBytes c.mgt.stgChart 0 len else []
    let held := (c.chart k).image
    let ended := fun (d : Chip) (op code detail : Nat) => d.g F.GBL_CHART_CMD_GO = 0 ∧ d.g F.GBL_CHART_STAT_DONE = 1 ∧ d.g F.GBL_CHART_STAT_OP = op ∧
      d.g F.GBL_CHART_STAT_SLOT = k ∧ d.g F.GBL_CHART_STAT_LREASON = code % 256 ∧ d.g F.GBL_CHART_STAT_LDETAIL = detail % 65536 ∧
      d.pend 16 = true ∧ (code ≠ 0 → d.pend 17 = true) ∧ d.bus = .done
    let slot := fun (d : Chip) (x : ChartSlot) => d.nvm = { c.nvm with charts := d.nvm.charts } ∧ ∀ j, d.chart j = if j = k then x else c.chart j
    let rest := fun (d : Chip) => d = { c with regs := d.regs, hot := d.hot, nvm := d.nvm, evt := d.evt, log := d.log, freeIx := c.freeIx + 1, bus := .done }
    let refused := fun (d : Chip) (op code detail : Nat) => rest d ∧ d.nvm = c.nvm ∧ ended d op code detail
    let active := c.isActive k = true
    let dead := c.b F.LOG_STAT_NVM_FAIL = true
    let busy := c.run = true ∨ c.b F.GBL_STAT_CHECK_BUSY = true
    (active → s.managerDoes (.chartStore k ok) (refused · 1 0x1D k) ∧ s.managerDoes (.chartErase k ok) (refused · 3 0x1D k)) ∧
    (¬ active → dead → s.managerDoes (.chartStore k ok) (refused · 1 0x1C k) ∧ s.managerDoes (.chartErase k ok) (refused · 3 0x1C k)) ∧
    (¬ active → ¬ dead → c.verifyChart img len = some why → s.managerDoes (.chartStore k ok) (refused · 1 why.1 why.2)) ∧
    (¬ active → ¬ dead → c.verifyChart img len = none → s.managerDoes (.chartStore k true) fun d =>
      rest d ∧ ended d 1 0 0 ∧ slot d ⟨slotValid, img, 0⟩) ∧
    (¬ active → ¬ dead → c.verifyChart img len = none → s.managerDoes (.chartStore k false) fun d =>
      rest d ∧ ended d 1 0x1C k ∧ d.pend 21 = true ∧ slot d { c.chart k with state := slotBad, lreason := 0x1C }) ∧
    (¬ active → ¬ dead → s.managerDoes (.chartErase k true) fun d => rest d ∧ ended d 3 0 0 ∧ slot d ChartSlot.init) ∧
    (¬ active → ¬ dead → s.managerDoes (.chartErase k false) fun d =>
      rest d ∧ ended d 3 0x1C k ∧ d.pend 21 = true ∧ slot d { c.chart k with state := slotBad, lreason := 0x1C }) ∧
    (busy → s.managerDoes (.chartActivate k ok) (refused · 2 0x1D k)) ∧
    (¬ busy → c.verifyChart held held.length = some why → s.managerDoes (.chartActivate k ok) fun d =>
      rest d ∧ ended d 2 why.1 why.2 ∧ slot d { c.chart k with lreason := why.1 }) ∧
    (¬ busy → c.verifyChart held held.length = none → s.managerDoes (.chartActivate k true) fun d =>
      ended d 2 0 0 ∧ d.work = held ∧ d.g F.GBL_STAT_CHART_OK = 1 ∧ d.g F.GBL_STAT_ACT_SLOT = k ∧ d.g F.GBL_STAT_FELL_BACK = 0 ∧ d.pend 18 = true ∧
      d.nvm.primary = some k ∧ (c.nvm.primary ≠ some k → d.nvm.fallback ≠ some k)) ∧
    (¬ busy → c.verifyChart held held.length = none → s.managerDoes (.chartActivate k false) fun d =>
      d.work = [] ∧ d.g F.GBL_STAT_CHART_OK = 0 ∧ d.pend 18 = true ∧ d.pend 16 = true ∧ slot d { c.chart k with lreason := 0 } ∧ d.workers = c.workers)

/-- Power-up activates PRIMARY or what verifies after it; the active slot is compared hourly; RUN_EN starts a check, then
the run. Cites: 10_chart_bitstream; 14_management_roles_and_logbook; 08_ingress_queues_and_rose. -/
def Obligations.ChartAndRun : Prop :=
  (
    ∀ (s : State) (k j : Nat) (bad : List Nat) (why : Reason) (ok : Bool), s.chip.live = true → k < 4 → j < 4 → j ≠ k →
      let c := s.chip
      let still := c.b F.GBL_STAT_CHART_OK = true ∨ c.b F.MGT_STAT_RECOVERY = true ∨ c.int.coresUp = false ∨ ∀ n, n < 4 → (c.chart n).state ≠ slotValid
      let small := ∀ n, c.nvm.primary = some n ∨ c.nvm.fallback = some n → n < 4
      let works := fun (n : Nat) => (c.chart n).state = slotValid ∧ c.verifyChart (c.chart n).image (c.chart n).image.length = none ∧ n ∉ bad
      let runs := fun (d : Chip) (n : Nat) => d.work = (c.chart n).image ∧ d.g F.GBL_STAT_CHART_OK = 1 ∧ d.g F.GBL_STAT_ACT_SLOT = n ∧ d.pend 18 = true ∧
        d.nvm.primary = c.nvm.primary ∧ d.nvm.fallback = c.nvm.fallback ∧ (d.chart n).state = slotValid ∧ d.pwr.cold = false
      let a := c.g F.GBL_STAT_ACT_SLOT
      let due := c.b F.GBL_STAT_CHART_OK = true ∧ c.pwr.digestAt + 2304000000000 ≤ c.tick ∧ c.int.coresUp = true
      let seen := { c.pwr with digestAt := c.tick }
      let saved := fun (d : Chip) (x : ChartSlot) => d = { c with
          regs := d.regs, hot := d.hot, nvm := { c.nvm with charts := d.nvm.charts }, pwr := seen, evt := d.evt, log := d.log,
          freeIx := c.freeIx + 1 } ∧ ∀ n, d.chart n = if n = a then x else c.chart n
      let writes := c.b F.LOG_STAT_NVM_FAIL = false ∧ ok = true
      (small → still → s.managerDoes (.chartBootActivate bad) (· = c)) ∧
      (¬ still → c.nvm.primary = some k → works k → s.managerDoes (.chartBootActivate bad) fun d => runs d k ∧ d.g F.GBL_STAT_FELL_BACK = 0) ∧
      (¬ still → c.nvm.primary = some k → (c.chart k).state = slotValid → c.verifyChart (c.chart k).image (c.chart k).image.length = some why →
        c.nvm.fallback = some j → works j → s.managerDoes (.chartBootActivate bad) fun d =>
          runs d j ∧ d.g F.GBL_STAT_FELL_BACK = 1 ∧ d.pend 19 = true ∧ d.pend 21 = true ∧ (d.chart k).state = slotBad ∧ (d.chart k).lreason = why.1) ∧
      (¬ due → ∀ intact, s.managerDoes (.chartDigestCheck intact ok) (· = c)) ∧
      (due → s.managerDoes (.chartDigestCheck true ok) (· = { c with pwr := seen })) ∧
      (due → writes → s.managerDoes (.chartDigestCheck false ok) fun d => saved d ⟨slotValid, c.work, 0⟩ ∧ d.pend 20 = true) ∧
      (due → ¬ writes → s.managerDoes (.chartDigestCheck false ok) fun d =>
        saved d { c.chart a with state := slotBad, lreason := 0x1C } ∧ d.pend 21 = true)) ∧
  (
    ∀ (s : State) (v : Word), s.chip.live = true →
      let c := s.chip
      let may := c.role = .operator ∨ c.role = .installer
      let busy := c.b F.GBL_STAT_CHECK_BUSY = true
      let check := fun (d : Chip) (b : Nat) (at_ : Option Nat) => d = { c with regs := d.regs, pwr := { c.pwr with checkAt := at_ }, bus := .done } ∧
        c.puts d [(F.GBL_STAT_CHECK_BUSY, b)]
      let r := Check.reason c (ilkView s.saf)
      let fits := limOccLo c.work ≤ v.toNat ∧ v.toNat ≤ limOccHi c.work
      let groups := fun (d : Chip) (f : Group → Group) => ∀ g, d.grp g = if g < 32 then f (c.grp g) else c.grp g
      (may → c.run = true ∨ busy → s.managerDoes .runEnSet (· = { c with bus := .done })) ∧
      (may → c.run = false → ¬ busy → s.managerDoes .runEnSet (check · 1 (some c.tick))) ∧
      (may → busy → s.managerDoes .runEnClear (check · 0 none)) ∧
      (may → ¬ busy → c.run = false → s.managerDoes .runEnClear (· = { c with bus := .done })) ∧
      (may → ¬ busy → c.run = true → s.managerDoes .runEnClear fun d =>
        d = { c with regs := d.regs, hot := d.hot, rose := d.rose, evt := d.evt, bus := .done } ∧ d.run = false ∧ d.pend 24 = true ∧
        groups d (fun x => if x.valid = true ∧ x.running = true then { x with stopAt := some c.kcount } else x)) ∧
      (¬ busy → s.managerDoes .consistencyCheckEnd (· = c)) ∧
      (busy → r.1 = 0 → s.managerDoes .consistencyCheckEnd fun d =>
        d.run = true ∧ d.g F.GBL_STAT_CHECK_BUSY = 0 ∧ d.g F.GBL_STAT_REASON = 0 ∧ d.pend 22 = true ∧
        d.g F.INT_BYP_CTL_BYP_EN = 0 ∧ d.pwr.checkAt = none ∧
        groups d (fun x => if x.valid = true then { x with close := c.kcount / 2 ^ x.orderLog, running := true, stopAt := none } else x)) ∧
      (busy → r.1 ≠ 0 → s.managerDoes .consistencyCheckEnd fun d =>
        d = { c with regs := d.regs, hot := d.hot, pwr := { c.pwr with checkAt := none }, evt := d.evt, log := d.log, freeIx := c.freeIx + 1 } ∧ d.run = c.run ∧
        d.g F.GBL_STAT_CHECK_BUSY = 0 ∧ d.g F.GBL_STAT_REASON = r.1 % 256 ∧ d.g F.GBL_STAT_DETAIL = r.2 % 65536 ∧ d.pend 23 = true) ∧
      (may → fits → s.managerDoes (.trimTargetWrite v) fun d => d = { c with regs := d.regs, bus := .done } ∧ c.puts d [(F.GBL_TRIM_TGT_OCC_TGT, v.toNat)]) ∧
      (may → ¬ fits → s.managerDoes (.trimTargetWrite v) (· =
        { (c.event 28 0).logCtx kRefusal 0x0100 (Sys2Proof.at_ 159 128 0x40000020 + Sys2Proof.at_ 127 64 v.toNat) with bus := .done })))

/-- An uncorrectable read costs its requester a block, a list, a window, a frame, a hop or a slot word, and poisons the
word. Cites: 11_integrity_and_fault_handling; 08_ingress_queues_and_rose; 07_meridian_time. -/
def Obligations.UncorrectableReads : Prop :=
  ∀ (s : State) (p e l ix slot a q : Nat) (link : Bool) (b : Block) (r : List RxItem) (w : Window) (f : Frame) (fs : List Frame), s.chip.live = true →
    let c := s.chip
    let x := c.engOf e
    let span := 2 ^ (c.grp x.group).orderLog
    let reads := ((x.inputs.drop x.input).filter (fun w => decide (w < 0x8000))).map streamQueue
    let bucket := fun (d : Chip) (q : Nat) => AMap.get (always []) (d.lq q).buckets x.bucket
    let first := reads.find? (fun q => bucket c q ≠ [])
    let gone := if link then bucket c q else (bucket c q).take 1
    let hits := (gone.filter (fun el => match el with
      | .hit _ _ _ => true
      | _ => false)).length
    (c.dcq p = [] → s.managerDoes (.poolServe p (some a)) (· = c)) ∧
    (c.dcq p = .block b :: r → (∀ i ∈ r.head?, ∃ b', i = .block b') → s.managerDoes (.poolServe p (some a)) fun d => c.ueAt d 1 a ∧ d.dcq p = r ∧
      d.item p = (if b.isData = true ∨ b.is .pktEnd = true then (c.item p).map (fun o => { o with drop := true, trunc := true }) else c.item p) ∧
      d.g (F.QUE_DCQ_LOST.ix 4 p) = satTo (F.QUE_DCQ_LOST.ix 4 p) (c.g (F.QUE_DCQ_LOST.ix 4 p)) 1 ∧ d.g F.QUE_STAT_DCQ_DROP = 1 ∧ d.pend 97 = true ∧
      d.pend 53 = true ∧ d.workers = c.workers ∧ d.wake.windows = c.wake.windows) ∧
    (first = none → s.managerDoes (.engineEmit e (some (a, link))) (· = c)) ∧
    (first = some q → s.managerDoes (.engineEmit e (some (a, link))) fun d => c.ueAt d 0 a ∧ d.workers = c.workers ∧
      ∃ ep, bucket d q = .status .crcErr ep hits (x.bucket * span) (x.bucket * span + span - 1) :: (if link then [] else (bucket c q).drop 1)) ∧
    (c.win e = none → s.managerDoes (.windowExtract (some (e, a))) (· = c)) ∧
    (c.win e = some w → s.managerDoes (.windowExtract (some (e, a))) fun d => c.ueAt d 5 a ∧ d.win e = none ∧ d.pend 136 = true ∧
      (∀ n, n ≠ e → d.win n = c.win n) ∧ d.freeIx = c.freeIx + 1 ∧ d.workers = c.workers ∧
      ∀ n, (d.lane n).objs = (c.lane n).objs.filter (fun o => !(o.ftype == .mark && o.entry == e))) ∧
    ((c.lane l).resend = [] → s.managerDoes (.firstResentFrame l (some a)) (· = c)) ∧
    ((c.lane l).resend = f :: fs → s.managerDoes (.firstResentFrame l (some a)) fun d => c.ueAt d 6 a ∧
      (∀ n, d.lane n = if n = l then { c.lane l with resend := fs } else c.lane n) ∧ d.workers = c.workers) ∧
    (s.managerDoes (.hopStale ix (some a)) fun d => c.ueAt d 7 a ∧ (∀ n, d.hop n = if n = ix then { c.hop ix with stale := true } else c.hop n) ∧
      d.slots = c.slots) ∧
    (s.managerDoes (.probeSend slot (some a)) fun d => c.ueAt d 7 a ∧ d.mer = c.mer ∧ ∀ n, d.slot n =
      if n = slot then { c.slot slot with wofs := ((wkEntry c.work slot).map (wkWofs c.work)).getD 0, adj := 0 } else c.slot n)

/-- A conversion settles, integrates and gives its result to HK_LAST and the queue; the slope window and the reads follow.
Cites: 12_housekeeping_converter. -/
def Obligations.HkConversions : Prop :=
  ∀ (s : State) (x till k : Nat) (raw q : Int) (r : HkRes), s.chip.live = true → x < 2 → k < 40 →
    let c := s.chip
    let y := c.conv x
    let settled := y.ph = .settle till ∧ till ≤ c.tick ∧ c.hkStopped = false
    let ended := y.ph = .integ till ∧ till + 128 ≤ c.tick
    let inp := c.convInput x
    let code := clampInt (-8388608) 8388607 raw
    let range := if isHki inp = true then AMap.get (always 0) c.hk.ranges inp else 0
    let fs := fullScale inp (c.g (F.HK_INCFG_EXCIT.ix 4 inp)) range
    let seq := (AMap.get (always 0) c.hk.seqs inp + 1) % 256
    let subs := (q :: c.hk.subs).take 20
    let sum := clampInt (-8388608) 8388607 (subs.foldl (· + ·) 0)
    let skip := c.b F.HK_STAT_SLOPE_B = false ∨ 9 ∈ c.pwr.brown ∨ c.tick < c.hk.subAt + c.subTicks
    let fifo := match c.hk.fifo with | e :: l => if e.when = c.tick then c.hk.fifo else l | [] => []
    let head : HkRes := fifo.headD ⟨0, 0, 0, 0, 0, 0⟩
    let w := fun (n : Nat) => BitVec.ofNat 32 n
    let a := 0x46000200 + 16 * k
    (settled → s.managerDoes (.settleEnd x) fun d => d = { c with hk := d.hk } ∧
      d.hk = (if x = 0 then { c.hk with a := d.hk.a } else { c.hk with b := d.hk.b }) ∧
      d.conv x = { y with ph := .integ (till + 64 * c.integAck (hkSlotCyc c.work y.slot)), owed := 0 }) ∧
    ((∀ n, y.ph = .settle n → c.tick < n ∨ c.hkStopped = true) → s.managerDoes (.settleEnd x) (· = c)) ∧
    (ended → s.managerDoes (.conversionEnd x raw) fun d => d.workers = c.workers ∧ d.ports = c.ports ∧ d.nvm = c.nvm ∧
      d.g F.HK_CNT_CONV_CNT = (c.g F.HK_CNT_CONV_CNT + 1) % 65536 ∧ AMap.get (always 0) d.hk.seqs inp = seq ∧
      ∃ e : HkRes, AMap.get (always none) d.hk.last inp = some e ∧ e.w1 = patternOf 32 code ∧ e.at_ = till ∧ bitOf e.w0 31 = true ∧
        bitsOf e.w0 28 28 = x ∧ bitsOf e.w0 15 8 = seq ∧ bitsOf e.w0 5 0 = inp % 64 ∧ bitOf e.w0 25 = decide (5242880 < raw.natAbs) ∧
        (c.g (F.HK_INCFG_CURVE.ix 4 inp) = 8 → y.lead = false → c.resistive inp = false → code = raw → e.w2 = f32 (code * fs.1) (fs.2 * 4194304)) ∧
        d.hk.fifo = c.hk.fifo ++ [e] ∧ e.when = c.tick) ∧
    (c.hk.fifo.length ≤ 256 → c.hkSettle = c) ∧
    (256 < c.hk.fifo.length → c.hkSettle.hk = { c.hk with fifo := c.hk.fifo.take 256 } ∧ c.hkSettle.pend 209 = true ∧ c.hkSettle.g F.HK_STAT_FIFO_OVF = 1 ∧
      c.hkSettle.g F.HK_FIFO_STAT_OVF_CNT = satTo F.HK_FIFO_STAT_OVF_CNT (c.g F.HK_FIFO_STAT_OVF_CNT) (c.hk.fifo.length - 256)) ∧
    ((∀ n, y.ph = .integ n → c.tick < n + 128) → s.managerDoes (.conversionEnd x raw) (· = c)) ∧
    (skip → s.managerDoes (.slopeSubinterval q) (· = c)) ∧
    (¬ skip → s.managerDoes (.slopeSubinterval q) fun d =>
      d = { c with
        regs := d.regs, hk := { c.hk with subs := subs, subAt := c.tick, slope := if subs.length = 20 then some sum else c.hk.slope } } ∧
      c.puts d (if subs.length = 20 then [(F.HK_SLOPE_VALID, 1), (F.HK_SLOPE_WIN, patternOf 24 sum)] else [])) ∧
    (s.managerDoes .hkFifoPop fun d => d = { c with regs := d.regs, hk := { c.hk with fifo := fifo }, bus := .done } ∧
      d.g F.HK_FIFO_STAT_LEVEL = min 256 fifo.length ∧ d.word 0x46000024 = w head.w0 ∧ d.word 0x46000028 = w head.w1 ∧ d.word 0x4600002C = w head.w2 ∧
      d.word 0x46000030 = w head.w3) ∧
    (AMap.get (always none) c.hk.last k = none → s.managerDoes (.hkLastRead k) (· = { c with bus := ⟨c.word a, false, false⟩ })) ∧
    (AMap.get (always none) c.hk.last k = some r → s.managerDoes (.hkLastRead k) fun d =>
      d = { c with regs := d.regs, bus := ⟨c.word a, false, false⟩ } ∧
      ∀ b, d.word b = if b = a then c.word a &&& 0xBFFFFFFF#32 else if b = a + 4 then w r.w1 else if b = a + 8 then w r.w2 else if b = a + 12 then w r.w3
        else c.word b)

/-- Triggers start or queue the injected sequence; blanking, self-test, SEQ_EN and input settings act on the converters.
Cites: 12_housekeeping_converter. -/
def Obligations.HkControl : Prop :=
  ∀ (s : State) (k t : Nat) (v : Word) (ga gb : Int) (okA okB : Bool), s.chip.live = true → k < 40 →
    let c := s.chip
    let inst := c.role = .installer
    let h := c.hk
    let seqEn := c.b F.HK_CTL_SEQ_EN = true
    let busy := c.b F.HK_STAT_INJ_BUSY = true ∨ c.b F.HK_TEST_BUSY = true
    let pend := c.b F.HK_STAT_INJ_PEND = true
    let fired := { c with evt := { c.evt with trig := false } }
    let now := some (c.tick / 64)
    let took := { h with trigAt := now }
    let inj := hkSlots c.work 0 true ≠ [] ∨ hkSlots c.work 1 true ≠ []
    let allowed := inCfgOk k (F.HK_INCFG_CURVE.of v) (F.HK_INCFG_WIRING.of v) (F.HK_INCFG_EXCIT.of v) = true
    let cfg := fun (f : Fld) => f.ix 4 k
    let isIdle := fun (x : HkConv) => x.ph = .idle ∧ x.inj = false ∧ x.injGo = false
    let atFirst := fun (x : HkConv) (n : Nat) => x.inj = false ∧ ∀ i l, hkSlots c.work n false = i :: l → x.slot = i
    let quiet := fun (x : HkConv) => (∀ n, x.ph ≠ .settle n) ∧ ∀ n, x.ph = .integ n → n ≤ c.tick
    let long := h.blankLong = false ∧ t + max 1 (c.g F.HK_CTL_BLANK_MAX) * 640000 < c.tick
    let asked := fun (d : Chip) => c.puts d (if c.b F.HK_TEST_BUSY = true then [] else [(F.HK_TEST_BUSY, 1), (F.HK_TDAC_BUSY, 1)])
    let timed := c.g F.HK_TEST_TEST_INT ≠ 0 ∧ h.testAt + c.g F.HK_TEST_TEST_INT * 2304000000000 ≤ h.wrapAt
    let works := fun (x : HkConv) => (∃ n, x.ph = .settle n) ∨ ∃ n, x.ph = .integ n
    let testing := c.b F.HK_TEST_BUSY = true ∧ ¬ works h.a ∧ (¬ works h.b ∨ c.b F.HK_STAT_SLOPE_B = true)
    let passA := decide (ga.natAbs ≤ 25) && okA
    let passB := decide (gb.natAbs ≤ 25) && okB
    (c.evt.trig = false → s.managerDoes (.urgentTrigger false) (· = c)) ∧
    (c.evt.trig = true → ¬ seqEn → s.managerDoes (.urgentTrigger false) (· = fired)) ∧
    (c.evt.trig = true → h.trigAt = now → s.managerDoes (.urgentTrigger false) (· = fired)) ∧
    (c.evt.trig = true → seqEn → h.trigAt ≠ now → busy → ¬ pend → s.managerDoes (.urgentTrigger false) fun d =>
      d = { fired with regs := d.regs, hk := took } ∧ c.puts d [(F.HK_STAT_INJ_PEND, 1)]) ∧
    (c.evt.trig = true → seqEn → h.trigAt ≠ now → busy → pend → s.managerDoes (.urgentTrigger false) fun d => d.hk = took ∧ d.g F.HK_STAT_OVERRUN = 1 ∧ d.pend 208 = true ∧
      d.g F.HK_INJ_OVERRUN_CNT = satTo F.HK_INJ_OVERRUN_CNT (c.g F.HK_INJ_OVERRUN_CNT) 1) ∧
    (c.evt.trig = true → seqEn → h.trigAt ≠ now → ¬ busy → inj → s.managerDoes (.urgentTrigger false) fun d => d.g F.HK_STAT_INJ_BUSY = 1 ∧ d.pend 216 = true) ∧
    (c.evt.trig = true → seqEn → h.trigAt ≠ now → ¬ busy → ¬ inj → s.managerDoes (.urgentTrigger false) (· = { fired with hk := took })) ∧
    (inst → seqEn → h.trigAt ≠ now → ¬ busy → inj → s.managerDoes (.urgentTrigger true) fun d => d.g F.HK_STAT_INJ_BUSY = 1 ∧ d.pend 216 = true ∧ d.bus = .done ∧
      d.g F.HK_INJ_TRIG = 0) ∧
    (inst → ¬ allowed → s.managerDoes (.hkIncfgWrite k v) (· =
      { (c.event 218 k).logCtx kRefusal 0x0100 (Sys2Proof.at_ 159 128 (0x46000100 + 4 * k)) with bus := .done })) ∧
    (inst → allowed → s.managerDoes (.hkIncfgWrite k v) fun d => d.bus = .done ∧ d.hk.last = h.last ∧ d.hk.fifo = h.fifo ∧
      d.g (cfg F.HK_INCFG_CURVE) = F.HK_INCFG_CURVE.of v ∧ d.g (cfg F.HK_INCFG_WIRING) = F.HK_INCFG_WIRING.of v ∧
      d.g (cfg F.HK_INCFG_EXCIT) = F.HK_INCFG_EXCIT.of v ∧ d.g (cfg F.HK_INCFG_BURN) = F.HK_INCFG_BURN.of v ∧
      d.g (cfg F.HK_INCFG_AUTO) = F.HK_INCFG_AUTO.of v) ∧
    (inst → s.managerDoes (.seqEnWrite true) fun d => d.bus = .done ∧ d.g F.HK_CTL_SEQ_EN = 1 ∧ d.g F.HK_STAT_INJ_BUSY = 0 ∧ d.g F.HK_STAT_INJ_PEND = 0 ∧
      atFirst d.hk.a 0 ∧ atFirst d.hk.b 1) ∧
    (inst → seqEn → s.managerDoes (.seqEnWrite false) fun d => d.bus = .done ∧ d.g F.HK_CTL_SEQ_EN = 0 ∧ d.g F.HK_STAT_INJ_BUSY = 0 ∧
      d.g F.HK_STAT_INJ_PEND = 0 ∧ isIdle d.hk.a ∧ isIdle d.hk.b) ∧
    (c.b F.HK_CTL_BLANK_EN = false ∨ h.blankAt ≠ none → s.managerDoes .hkBlankAssert (· = c)) ∧
    (c.b F.HK_CTL_BLANK_EN = true → h.blankAt = none → s.managerDoes .hkBlankAssert fun d =>
      d = { c with regs := d.regs, hot := d.hot, evt := d.evt, hk := { h with a := d.hk.a, b := d.hk.b, blankAt := some c.tick, blankLong := false } } ∧
      d.g F.HK_STAT_BLANKED = 1 ∧ quiet d.hk.a ∧ quiet d.hk.b) ∧
    (h.blankAt = none → s.managerDoes .hkBlankRelease (· = c) ∧ s.managerDoes .blankLong (· = c)) ∧
    (h.blankAt = some t → s.managerDoes .hkBlankRelease fun d => d.hk.blankAt = none ∧ d.g F.HK_STAT_BLANKED = 0 ∧ d.hk.last = h.last ∧ d.hk.fifo = h.fifo) ∧
    (h.blankAt = some t → long → s.managerDoes .blankLong fun d =>
      d = { c with regs := d.regs, hot := d.hot, evt := d.evt, log := d.log, freeIx := c.freeIx + 1, hk := { h with blankLong := true } } ∧
      d.g F.HK_STAT_BLANK_LONG = 1 ∧ d.pend 210 = true) ∧
    (h.blankAt = some t → ¬ long → s.managerDoes .blankLong (· = c)) ∧
    (timed → s.managerDoes (.hkTestGo true) fun d => d = { c with regs := d.regs } ∧ asked d) ∧
    (¬ timed → s.managerDoes (.hkTestGo true) (· = c)) ∧
    (inst → s.managerDoes (.hkTestGo false) fun d => d.bus = .done ∧ d.g F.HK_TEST_BUSY = 1 ∧ d.g F.HK_TEST_GO = 0 ∧
      (c.b F.HK_TEST_BUSY = false → d.g F.HK_TDAC_BUSY = 1)) ∧
    (testing → s.managerDoes (.hkTestEnd ga gb okA okB) fun d => d.g F.HK_TEST_BUSY = 0 ∧ d.g F.HK_TDAC_BUSY = 0 ∧
      d.g F.HK_STAT_TDAC_OK_A = passA.toNat ∧ d.g F.HK_STAT_TDAC_OK_B = passB.toNat ∧ d.g F.HK_TEST_GAIN_ERR_A = patternOf 8 ga ∧
      d.g F.HK_TEST_GAIN_ERR_B = patternOf 8 gb ∧ d.hk.testAt = c.tick ∧ (passA = false ∨ passB = false → d.pend 214 = true ∧ d.g F.HK_STAT_TEST_FAIL = 1)) ∧
    (¬ testing → s.managerDoes (.hkTestEnd ga gb okA okB) (· = c))

/-- Power starts the self-test; SCK or supply loss takes outputs low; a press starts a precheck of six steps, which ends in
ON. Cites: 13_bias_interlock. -/
def Obligations.InterlockStart : Prop :=
  (
    ∀ (s : State) (s1 s2 n ms u : Nat) (logicOk sckOk convOk : Bool), s.Inv →
      let i := s.saf
      let c := s.chip
      let t := c.tick
      let same := fun (x : Instr) => s.interlockDoes x c [] i
      let valid := s1 = s2 ∧ if bitOf s1 7 = true then s1 % 4 ≠ 3 else s1 % 16 = 0
      let fresh : Interlock := { Interlock.off with fbHs := i.fbHs, fbLs := i.fbLs, dscFb := i.dscFb, rstLow := i.rstLow }
      let passes := i.selOk && logicOk && sckOk && !i.sckFault && (!i.catB || (convOk && decide (i.run = 20)))
      let bad := n < 3640 ∨ 4350 < n
      let low : Interlock := { i with sckFault := true, enHs := false, enLs := false, rampReq := true, dsc := false, dscAt := none }
      let high := i.st = .on ∨ i.st = .precheck ∨ i.st = .ramp
      let short := i.rstStuck = true ∨ ms < 50 ∨ 5000 < ms
      let starts := i.st = .safe ∧ i.closedSince = some u ∧ u + 64000000 ≤ t ∧ (i.discFault = false ∨ i.cycled = true) ∧ i.sckFault = false
      let never := i.st ≠ .safe ∨ i.closedSince = none ∨ (i.closedSince = some u ∧ t < u + 64000000) ∨ (i.discFault = true ∧ i.cycled = false) ∨ i.sckFault = true
      (i.up = true → same (.vddSafeUp s1 s2)) ∧
      (i.up = false → ∃ r, exec (.vddSafeUp s1 s2) s = .next r ∧ r.pending = s.pending ∧
        (∃ ok : Bool, (ok = true ↔ valid) ∧ r.saf = { fresh with up := true, sel := s1, selOk := ok } ∧
          c.puts r.chip [(F.HK_STAT_SLOPE_B, (ok && bitOf s1 7).toNat)]) ∧
        r.chip = { c with regs := r.chip.regs, hk := { c.hk with slope60 := bitOf s1 3 } }) ∧
      (i.up = false ∨ i.st ≠ .test → same (.interlockSelfTestEnd logicOk sckOk convOk)) ∧
      (i.up = true → i.st = .test → passes = true → s.interlockDoes (.interlockSelfTestEnd logicOk sckOk convOk) c [] { i with st := .safe, testOk := true }) ∧
      (i.up = true → i.st = .test → passes = false → s.interlockDoes (.interlockSelfTestEnd logicOk sckOk convOk) c [12] { i with st := .locked }) ∧
      (i.up = false ∨ i.sckFault = true ∨ ¬ bad → same (.sckCheck n)) ∧
      (i.up = true → i.sckFault = false → bad → ¬ high → s.interlockDoes (.sckCheck n) c [11] low) ∧
      (i.up = true → i.sckFault = false → bad → high → s.interlockDoes (.sckCheck n) c [11]
        { low with st := .safe, cause := if i.st = IlkSt.on then 3 else i.cause, watchAt := some t, removed := false, demandAt := t }) ∧
      (i.up = false → same .vddSafeLow) ∧
      (i.up = true → s.interlockDoes .vddSafeLow c [11] fresh) ∧
      (i.up = false → same (.resetPressRelease ms) ∧ same .resetStuck ∧ same .resetStuckClear) ∧
      (i.up = true → short → s.interlockDoes (.resetPressRelease ms) c [] { i with rstLow := false }) ∧
      (i.up = true → ¬ short → starts → s.interlockDoes (.resetPressRelease ms) c [] { i with
        rstLow := false, st := .precheck, discFault := false, fbFault := false, dscFault := false, rampViol := false, rampTimeout := false,
        watchAt := none, step := 1, stepAt := t, enHs := false, enLs := false, dsc := false, dscAt := none }) ∧
      (i.up = true → ¬ short → never → s.interlockDoes (.resetPressRelease ms) c [9] { i with rstLow := false, rstRej := min 255 (i.rstRej + 1) }) ∧
      (i.up = true → i.rstStuck = false → s.interlockDoes .resetStuck c [10] { i with rstStuck := true, rstLow := true }) ∧
      (i.rstStuck = true → same .resetStuck) ∧
      (i.up = true → s.interlockDoes .resetStuckClear c [] { i with rstStuck := false, rstLow := false })) ∧
  (
    ∀ (s : State) (hs ls dscFb : Bool), s.Inv →
      let i := s.saf
      let c := s.chip
      let t := c.tick
      let due := i.up = true ∧ i.st = .precheck ∧ i.stepAt + 5760000 ≤ t
      let n := i.step
      let right := match n with
        | 1 => hs = false ∧ ls = false
        | 2 => hs = true ∧ ls = false
        | 3 => hs = false
        | 4 => ls = true ∧ hs = false
        | 5 => ls = false
        | _ => hs = true ∧ ls = true
      let conducts := n = 1 ∧ i.hasDsc = true ∧ dscFb = true
      let seen : Interlock := { i with fbHs := hs, fbLs := ls, dscFb := dscFb }
      let off := Interlock.gone { seen with demandAt := t } t
      (¬ due → s.interlockDoes (.precheckStep hs ls dscFb) c [] i) ∧
      (due → right → ¬ conducts → n < 6 → s.interlockDoes (.precheckStep hs ls dscFb) c []
        { seen with step := n + 1, stepAt := t, enHs := (stepEn (n + 1)).1, enLs := (stepEn (n + 1)).2, rampReq := decide (n + 1 < 6) }) ∧
      (due → right → ¬ conducts → n = 6 → s.interlockDoes (.precheckStep hs ls dscFb) c [2]
        { seen with st := .on, restarts := min 255 (i.restarts + 1), step := 0 }) ∧
      (due → right → conducts → s.interlockDoes (.precheckStep hs ls dscFb) c (5 :: seen.goneEv) { off with dscFault := true }) ∧
      (due → ¬ right → ¬ conducts → s.interlockDoes (.precheckStep hs ls dscFb) c (4 :: seen.goneEv) { off with fbFault := true }) ∧
      (due → ¬ right → conducts → s.interlockDoes (.precheckStep hs ls dscFb) c (4 :: seen.goneEv ++ [5]) { off with fbFault := true, dscFault := true }))

/-- An opened channel is a demand that removes the bias in ON or PRECHECK; discrepancies and readbacks latch faults that do
so too. Cites: 13_bias_interlock. -/
def Obligations.InterlockDemand : Prop :=
  ∀ (s : State) (a b hs ls dscFb : Bool) (u which : Nat), s.saf.raised = [] → ¬ (s.saf.st = .on ∧ s.saf.catB = true ∧ s.saf.monOk = true) →
    let i := s.saf
    let c := s.chip
    let t := c.tick
    let same := fun (x : Instr) => s.interlockDoes x c [] i
    let leave := i.st = .on ∨ i.st = .precheck
    let acts := i.up = true ∧ i.st ≠ .test
    let newA := a && i.chA
    let newB := b && i.chB
    let moved := fun (x y : Bool) (j : Interlock) => { j with
      chA := x, chB := y, discSince := (if x = y then none else some (i.discSince.getD t)),
      closedSince := (if x = true ∧ y = true then some (i.closedSince.getD t) else none), cycled := i.cycled || (!x && !y) }
    let timely := ∀ n, i.discSince = some n → 10 * t < 10 * n + 11 * i.tdisc
    let dem : Interlock := { moved (i.chA && !a) (i.chB && !b) i with
      demands := min 65535 (i.demands + 1), cause := newA.toNat + 2 * newB.toNat, demandAt := if i.st = IlkSt.ramp then i.demandAt else t }
    let latches := fun (x : Instr) (e : Nat) (j : Interlock) =>
      let j1 := { j with cause := if i.st = IlkSt.on then 3 else j.cause }
      if leave then s.interlockDoes x c (e :: j.goneEv) (Interlock.gone { j1 with demandAt := t } t) else s.interlockDoes x c [e] j
    let late := i.discSince = some u ∧ i.up = true ∧ 10 * u + 9 * i.tdisc < 10 * t
    let seen : Interlock := { i with fbHs := i.fbHs && !hs, fbLs := i.fbLs && !ls }
    let watched := i.st = .safe ∧ (i.watchAt ≠ none ∨ i.fbFault = true)
    let fires := seen.hasDsc && !seen.dsc && !seen.sckFault && (!seen.fbHs || !seen.fbLs)
    let full := i.removed = false ∧ seen.fbHs = false ∧ seen.fbLs = false
    let after : Interlock := { seen with
      dsc := seen.dsc || fires, dscAt := (if fires = true then some t else i.dscAt), removed := (if full then true else i.removed),
      remUs := if full then min 65535 ((t - i.demandAt) / 640) else i.remUs }
    let over10 := fun (n : Nat) => n + 5760000 ≤ t
    let shown : Interlock := { i with dscFb := dscFb }
    (i.up = false ∨ (newA = false ∧ newB = false) → same (.channelOpen a b)) ∧
    (i.up = true → newA = true ∨ newB = true → timely → ¬ leave → s.interlockDoes (.channelOpen a b) c [0] dem) ∧
    (i.up = true → newA = true ∨ newB = true → timely → leave → s.interlockDoes (.channelOpen a b) c (0 :: i.goneEv) (dem.gone t)) ∧
    (i.up = false → same (.channelClosed a b)) ∧
    (i.up = true → timely → s.interlockDoes (.channelClosed a b) c [] (moved (i.chA || a) (i.chB || b) i)) ∧
    (late → i.discFault = false → latches .discrepancyTimeout 3 { i with discFault := true, cycled := false }) ∧
    (i.discFault = true ∨ i.discSince = none ∨ (i.discSince = some u ∧ ¬ late) → same .discrepancyTimeout) ∧
    (i.up = false → same (.switchReadsOpen hs ls)) ∧
    (i.up = true → ¬ watched → s.interlockDoes (.switchReadsOpen hs ls) c [] seen) ∧
    (i.up = true → watched → s.interlockDoes (.switchReadsOpen hs ls) c (if full then [1] else []) after) ∧
    (¬ acts → same (.removalWatchEnd dscFb) ∧ same (.readbackMismatch which)) ∧
    (acts → i.dscAt = none → i.watchAt = some u → over10 u → i.fbHs = false → i.fbLs = false →
      s.interlockDoes (.removalWatchEnd dscFb) c [] { shown with watchAt := none }) ∧
    (acts → i.dscAt = none → i.watchAt = some u → over10 u → i.fbHs = true ∨ i.fbLs = true → i.fbFault = false → i.st = .safe →
      s.interlockDoes (.removalWatchEnd dscFb) c [4] { shown with watchAt := none, fbFault := true }) ∧
    (acts → i.dscAt = none → i.watchAt = none ∨ (i.watchAt = some u ∧ ¬ over10 u) → s.interlockDoes (.removalWatchEnd dscFb) c [] shown) ∧
    (acts → i.watchAt = none → i.dscAt = some u → over10 u → dscFb = true → s.interlockDoes (.removalWatchEnd dscFb) c [] { shown with dscAt := none }) ∧
    (acts → i.watchAt = none → i.dscAt = some u → over10 u → dscFb = false → i.dscFault = false → i.st = .safe →
      s.interlockDoes (.removalWatchEnd dscFb) c [5] { shown with dscAt := none, dscFault := true }) ∧
    (acts → i.watchAt ≠ none → same (.readbackMismatch 0) ∧ same (.readbackMismatch 1)) ∧
    (acts → i.watchAt = none → i.fbFault = false → latches (.readbackMismatch 0) 4 { i with fbHs := !i.enHs, fbFault := true } ∧
      latches (.readbackMismatch 1) 4 { i with fbLs := !i.enLs, fbFault := true }) ∧
    (acts → i.hasDsc = true → i.dscFault = false → latches (.readbackMismatch 2) 5 { i with dscFb := !i.dsc, dscFault := true }) ∧
    (acts → i.hasDsc = false → same (.readbackMismatch 2))

/-- In category B a demand ramps the bias down under the monitor: done, violation, loss of the monitor and the time limit
end it. Cites: 13_bias_interlock. -/
def Obligations.InterlockRamp : Prop :=
  ∀ (s : State) (a b : Bool) (w o : Int) (u : Nat), s.saf.raised = [] → s.saf.up = true → s.saf.catB = true →
    let i := s.saf
    let c := s.chip
    let t := c.tick
    let same := fun (x : Instr) => s.interlockDoes x c [] i
    let v := (i.ws.headD 0).natAbs
    let vDone := fun (v0 x : Nat) => 500000 * x ≤ max (10000 * v0) 10485760000
    let newA := a && i.chA
    let newB := b && i.chB
    let x := i.chA && !a
    let y := i.chB && !b
    let timely := ∀ n, i.discSince = some n → 10 * t < 10 * n + 11 * i.tdisc
    let dem : Interlock := { i with
      chA := x, chB := y, discSince := (if x = y then none else some (i.discSince.getD t)), closedSince := none, cycled := i.cycled || (!x && !y),
      demands := min 65535 (i.demands + 1), cause := newA.toNat + 2 * newB.toNat }
    let ramp := fun (j : Interlock) => { j with st := .ramp, rampReq := true, v0 := v, demandAt := t }
    let ends := fun (j : Interlock) => Interlock.gone { j with rampMs := min 65535 ((t - j.demandAt) / 640000) } t
    let on := i.st = .on ∧ i.monOk = true
    let disc : Interlock := { i with discFault := true, cycled := false, cause := 3 }
    let late := i.discSince = some u ∧ 10 * u + 9 * i.tdisc < 10 * t ∧ i.discFault = false
    let base := { c with hk := { c.hk with slope := none } }
    let lost := i.monOk = true ∧ i.validAt + 3 * i.subTicks < t
    let run := min 20 (if i.monOk = true ∨ t ≤ i.validAt + 3 * i.subTicks then i.run + 1 else 1)
    let up := i.monOk = false ∧ run = 20
    let kept : Interlock := { i with
      ws := (w :: i.ws).take 21, run := run, validAt := t, monOk := (if up then true else i.monOk), monLost := if up then false else i.monLost }
    let n := w.natAbs
    let above := 10000 * i.v0 + 838860800 < 10000 * n
    let fall : Int := (o.natAbs : Int) - n
    let per : Int := i.rampSec * if i.hz60 = true then 60 else 50
    let judged := i.demandAt + 128000000 ≤ t
    let outside := 2 * fall * per < i.v0 ∨ 2 * (i.v0 : Int) < fall * per
    let value := c.hk.slope = some w
    let ramping := i.st = .ramp ∧ ¬ vDone i.v0 n
    let violates := fun (j : Interlock) => s.interlockDoes (.slopeValue true) base (6 :: i.goneEv) (ends { j with rampViol := true })
    let gap : Interlock := { i with monOk := false, monLost := true, run := 0 }
    let limit := i.st = .ramp ∧ i.demandAt + 2000 * i.rampSec * 576000 ≤ t
    (on → newA = true ∨ newB = true → timely → ¬ vDone v v → s.interlockDoes (.channelOpen a b) c [0] (ramp dem)) ∧
    (on → newA = true ∨ newB = true → timely → vDone v v → s.interlockDoes (.channelOpen a b) c (0 :: i.goneEv) (ends (ramp dem))) ∧
    (on → late → ¬ vDone v v → s.interlockDoes .discrepancyTimeout c [3] (ramp disc)) ∧
    (on → late → vDone v v → s.interlockDoes .discrepancyTimeout c (3 :: i.goneEv) (ends (ramp disc))) ∧
    (c.hk.slope = none → ∀ good, same (.slopeValue good)) ∧
    (value → ¬ lost → s.interlockDoes (.slopeValue false) base [] (if i.monOk = true then i else { i with run := 0 })) ∧
    (value → ¬ lost → i.st ≠ .ramp → s.interlockDoes (.slopeValue true) base [] kept) ∧
    (value → ¬ lost → i.st = .ramp → vDone i.v0 n → s.interlockDoes (.slopeValue true) base i.goneEv (ends kept)) ∧
    (value → ¬ lost → ramping → above → violates kept) ∧
    (value → ¬ lost → ramping → ¬ above → kept.ws[20]? = none → s.interlockDoes (.slopeValue true) base [] kept) ∧
    (value → ¬ lost → ramping → ¬ above → kept.ws[20]? = some o → judged ∧ outside → violates { kept with fLast := fall }) ∧
    (value → ¬ lost → ramping → ¬ above → kept.ws[20]? = some o → ¬ (judged ∧ outside) →
      s.interlockDoes (.slopeValue true) base [] { kept with fLast := if judged then fall else i.fLast }) ∧
    (¬ lost → same .monitorGap) ∧
    (lost → i.st ≠ .ramp → s.interlockDoes .monitorGap c [8] gap) ∧
    (lost → i.st = .ramp → s.interlockDoes .monitorGap c (8 :: i.goneEv) (ends gap)) ∧
    (¬ limit → same .rampTimeLimit) ∧
    (limit → s.interlockDoes .rampTimeLimit c (7 :: i.goneEv) (ends { i with rampTimeout := true }))

/-- A Helm request passes six checks in order, each with its answer; a signed one raises its key's counter; one that passes
joins the queue of 16. Cites: 14_management_roles_and_logbook. -/
def Obligations.HelmRequests : Prop :=
  ∀ (s : State) (b : List Byte) (ip port st role : Nat) (pub : List Byte), s.chip.live = true →
    let c := s.chip
    let m := HelmMsg.ofBytes b
    let x : Instr := .helmRequest b ip port
    let out := fun (d : Chip) (st : Nat) => d.mgt = { c.mgt with out := c.mgt.out ++ [⟨ip, port, helmReply m.op st 0 m.reqId []⟩] }
    let away := m.target ≠ Config.serial ∧ (m.target ≠ 2 ^ 64 - 1 ∨ m.signed = true)
    let passes := c.helmForm b m = none ∧ ¬ away
    let key := if m.keyfp = 0 then none else c.keyOf m.keyfp
    let fresh := c.keyCount m.keyfp < m.count
    let good := edVerify pub (ascii "AEDURN HELM") (digest64 (b.take (36 + m.bodyLen))) m.sig = true
    let counted := fun (d : Chip) => d.keyCount m.keyfp = m.count ∧ d.nvm = { c.nvm with keys := d.nvm.keys, rootCount := d.nvm.rootCount } ∧
      d.nvm.keys.map (·.fp) = c.nvm.keys.map (·.fp)
    let refused := fun (d : Chip) (st : Nat) (f : Fld) (ev : Nat) =>
      d = { c with regs := d.regs, hot := d.hot, evt := d.evt, log := d.log, mgt := d.mgt, nvm := d.nvm } ∧ out d st ∧
      d.g f = satTo f (c.g f) 1 ∧ d.pend ev = true ∧ d.log ≠ c.log
    let room := c.mgt.queue.length < 16
    let joins := fun (d : Chip) (role fp : Nat) => d.mgt = { c.mgt with queue := c.mgt.queue ++ [⟨m.op, m.reqId, role, fp, m.count, m.body, ip, port⟩] }
    (c.helmForm b m = some st → s.managerDoes x fun d => d = { c with mgt := d.mgt } ∧ out d st) ∧
    (c.helmForm b m = none → away → s.managerDoes x fun d => d = { c with log := d.log } ∧ d.log ≠ c.log) ∧
    (passes → m.signed = false → room → s.managerDoes x fun d => d = { c with mgt := d.mgt } ∧ joins d 0 0) ∧
    (passes → m.signed = false → ¬ room → s.managerDoes x fun d => d = { c with mgt := d.mgt } ∧ out d 7) ∧
    (passes → m.signed = true → key = none → s.managerDoes x fun d => refused d 3 F.MGT_HELM_UNKNOWN 242 ∧ d.nvm = c.nvm) ∧
    (passes → m.signed = true → key = some (role, pub) → ¬ fresh → s.managerDoes x fun d => refused d 4 F.MGT_HELM_REPLAY 243 ∧ d.nvm = c.nvm) ∧
    (passes → m.signed = true → key = some (role, pub) → fresh → ¬ good → s.managerDoes x fun d =>
      refused d 2 F.MGT_HELM_BAD_SIG 241 ∧ d.nvm = c.nvm) ∧
    (passes → m.signed = true → key = some (role, pub) → fresh → good → c.helmMay m role = false → s.managerDoes x fun d =>
      refused d 1 F.MGT_HELM_DENIED 244 ∧ counted d) ∧
    (passes → m.signed = true → key = some (role, pub) → fresh → good → c.helmMay m role = true → room → s.managerDoes x fun d =>
      d = { c with mgt := d.mgt, nvm := d.nvm } ∧ joins d role m.keyfp ∧ counted d) ∧
    (passes → m.signed = true → key = some (role, pub) → fresh → good → c.helmMay m role = true → ¬ room → s.managerDoes x fun d =>
      d = { c with mgt := d.mgt, nvm := d.nvm } ∧ out d 7 ∧ counted d)

/-- Helm executes the request at the head of its queue under its role, answers it, and records and reports signed changes.
Cites: 14_management_roles_and_logbook. -/
def Obligations.HelmOperations : Prop :=
  ∀ (s : State) (q : HelmReq) (r : List HelmReq) (ok : Bool), s.chip.live = true →
    let c := s.chip
    let ops : List (Instr × Nat) := [(.helmRead, 1), (.logRead, 2), (.attest, 3), (.keys, 4), (.netGet, 5), (.write ok, 0x81), (.chartChunk, 0x82),
      (.trimChunk, 0x83), (.trimCommit ok, 0x84), (.fwChunk, 0x85), (.fwCommit ok, 0x86), (.mark, 0x87), (.enrol, 0x88), (.revoke, 0x89), (.subscribe, 0x8A),
      (.net, 0x8B), (.rekey, 0x8C), (.diag, 0x8D), (.fuseRead, 0x8E)]
    let taken : Chip := ({ c with mgt := { c.mgt with queue := r } } : Chip).setContext q.role q.fp
    let runs := c.mgt.queue = q :: r ∧ c.helmUp = true
    let sent := fun (d : Chip) (st code : Nat) (body : List Byte) => d.mgt.queue = r ∧
      d.mgt.out = c.mgt.out ++ [⟨q.ip, q.port, helmReply q.op st code q.reqId body⟩]
    let answer := fun (body : List Byte) => { taken with mgt := { taken.mgt with out := taken.mgt.out ++ [⟨q.ip, q.port, helmReply q.op 0 0 q.reqId body⟩] } }
    let signed := fun (d : Chip) (st code : Nat) (body : List Byte) => sent d st code body ∧ d.log ≠ c.log ∧ (st = 0 → d.pend 240 = true) ∧
      d.g F.MGT_ROLE_ROLE = q.role % 4 ∧ d.workers = c.workers ∧ d.nvm = c.nvm
    let f := beField q.body
    let recs := ((List.range (f 4 1)).filterMap (fun k => c.logGet (f 0 4 + k))).flatMap (fun x => x.1.bytes)
    let head := c.attestHead q.body
    let n := c.mgt.net
    let fits := fun (size : Nat) => f 0 4 + (q.body.length - 4) ≤ size
    let staged := fun (l : List Byte) => sliceBytes l 0 (f 0 4) ++ q.body.drop 4 ++ l.drop (f 0 4 + (q.body.length - 4))
    let mk : Mark := ⟨none, timeOf (f 0 8) (f 8 4) 0, f 12 4, f 16 4, f 20 4⟩
    let res := (taken.deferred mk (decide (f 24 1 ≠ 0)) (f 26 2)).2
    let mine := fun (x : Subscriber) => x.ip = f 0 16 ∧ x.port = f 16 2
    let lapse := c.tick + 384000000000
    let a := f 0 4
    let failed := (taken.busRead s.saf .word a).2.1 = true
    let subs := c.evt.subs.filter (fun x => decide (c.tick < x.lapse))
    let w := fun (o : Nat) => BitVec.ofNat 32 (f o 4)
    let done := (taken.maskedWrite s.saf a (w 4) (w 8) ok).2.2.2
    (c.mgt.queue = [] ∨ c.helmUp = false → ∀ x ∈ ops, s.managerDoes x.1 (· = c)) ∧
    (c.mgt.queue = q :: r → ∀ x ∈ ops, q.op ≠ x.2 → s.managerDoes x.1 (· = c)) ∧
    (runs → q.op = 1 → q.body.length = 4 → s.managerDoes .helmRead fun d =>
      sent d (if failed then 5 else 0) 0 (if failed then [] else beBytes 4 (taken.busRead s.saf .word a).1.toNat)) ∧
    (runs → q.op = 2 → s.managerDoes .logRead (· = answer recs)) ∧
    (runs → q.op = 3 → s.managerDoes .attest (· = answer (head ++ edSign c.identitySeed (ascii "AEDURN ATTEST") (digest64 head)))) ∧
    (runs → q.op = 4 → s.managerDoes .keys (· =
      answer (c.nvm.keys.flatMap (fun k => beBytes 8 k.fp ++ beBytes 1 k.role ++ beBytes 8 k.issuer) ++ beBytes 274 Config.identityCert))) ∧
    (runs → q.op = 5 → s.managerDoes .netGet (· = answer (beBytes 6 n.mac ++ beBytes 4 n.ip4 ++ beBytes 1 n.prefix4 ++ beBytes 16 n.ip6 ++
      beBytes 1 n.prefix6 ++ beBytes 16 n.gw ++ beBytes 1 (c.g F.MGT_STAT_LINK) ++ beBytes 1 (c.g F.MGT_CTL_MODE) ++ beBytes 2 0))) ∧
    (runs → q.op = 0x81 → q.body.length = 12 → s.managerDoes (.write ok) fun d => d.log ≠ c.log ∧ (done = .ok → d.pend 240 = true) ∧
      sent d done.status 0 (beBytes 1 (if done = .ok then 1 else 0))) ∧
    (runs → q.op = 0x82 → fits 4194304 → s.managerDoes .chartChunk fun d => signed d 0 0 [] ∧ d.mgt.stgChart = staged c.mgt.stgChart) ∧
    (runs → q.op = 0x82 → ¬ fits 4194304 → s.managerDoes .chartChunk fun d => signed d 6 0 [] ∧ d.mgt.stgChart = c.mgt.stgChart) ∧
    (runs → q.op = 0x83 → fits 37748736 → s.managerDoes .trimChunk fun d => signed d 0 0 [] ∧ d.mgt.stgTrim = staged c.mgt.stgTrim) ∧
    (runs → q.op = 0x83 → ¬ fits 37748736 → s.managerDoes .trimChunk fun d => signed d 6 0 [] ∧ d.mgt.stgTrim = c.mgt.stgTrim) ∧
    (runs → q.op = 0x85 → fits 4194304 → s.managerDoes .fwChunk fun d => signed d 0 0 [] ∧ d.mgt.stgFw = staged c.mgt.stgFw) ∧
    (runs → q.op = 0x85 → ¬ fits 4194304 → s.managerDoes .fwChunk fun d => signed d 6 0 [] ∧ d.mgt.stgFw = c.mgt.stgFw) ∧
    (runs → q.op = 0x87 → s.managerDoes .mark fun d => sent d 0 0 (beBytes 1 res) ∧ d.pend 240 = true ∧ d.log ≠ c.log) ∧
    (runs → q.op = 0x8B → s.managerDoes .net fun d => signed d 0 0 [] ∧ d.mgt.net = ⟨f 0 6, f 6 4, f 10 1, f 11 16, f 27 1, f 28 16⟩) ∧
    (runs → q.op = 0x8A → ∀ y, subs.find? (fun x => decide (mine x)) = some y → s.managerDoes .subscribe fun d => signed d 0 0 (beBytes 1 y.num) ∧
      ∃ z ∈ d.evt.subs, z.num = y.num ∧ z.mask = f 18 2 ∧ z.lapse = lapse) ∧
    (runs → q.op = 0x8A → (∀ x ∈ subs, ¬ mine x) → (∀ k, k < 4 → ∃ x ∈ subs, x.num = k) → s.managerDoes .subscribe fun d => signed d 8 0 []) ∧
    (runs → q.op = 0x8A → (∀ x ∈ subs, ¬ mine x) → (∀ x ∈ subs, x.num ≠ 0) → s.managerDoes .subscribe fun d => signed d 0 0 (beBytes 1 0) ∧
      ∃ z ∈ d.evt.subs, z.num = 0 ∧ mine z ∧ z.mask = f 18 2 ∧ z.lapse = lapse ∧ z.seq = 0)

/-- Trim sets and firmware are committed when they verify; keys are enrolled, revoked and renewed; the role context ends.
Cites: 14_management_roles_and_logbook. -/
def Obligations.HelmAdministration : Prop :=
  ∀ (s : State) (q : HelmReq) (r : List HelmReq) (ok : Bool) (why : Nat), s.chip.live = true →
    let c := s.chip
    let taken : Chip := ({ c with mgt := { c.mgt with queue := r } } : Chip).setContext q.role q.fp
    let runs := fun (op : Nat) => c.mgt.queue = q :: r ∧ c.helmUp = true ∧ q.op = op
    let f := beField q.body
    let sent := fun (d : Chip) (st code : Nat) (body : List Byte) => d.mgt.queue = r ∧ d.log ≠ c.log ∧ (st = 0 → d.pend 240 = true) ∧ d.workers = c.workers ∧
      d.mgt.out = c.mgt.out ++ [⟨q.ip, q.port, helmReply q.op st code q.reqId body⟩]
    let refused := fun (d : Chip) (code : Nat) => sent d 8 code [] ∧ d.nvm = c.nvm
    let dead := c.b F.LOG_STAT_NVM_FAIL = true
    let len := f 0 4
    let trim := taken.verifyTrim c.mgt.stgTrim len
    let g := sliceBytes c.mgt.stgFw 0 len
    let k := 1 - c.g F.MGT_STAT_BOOT_SLOT
    let slot := fun (d : Chip) (st : Nat) => ∀ j, AMap.get (always FwSlot.init) d.nvm.fws j =
      if j = k then ⟨st, g⟩ else AMap.get (always FwSlot.init) c.nvm.fws j
    let fits := ¬ dead ∧ len ≤ 4194304
    let fw := taken.verifyFw g len
    let pub := sliceBytes q.body 24 57
    let fp := fingerprint pub
    let known := ∃ y ∈ c.nvm.keys, y.fp = fp
    let cert := taken.certGood q.body = true ∧ (known ∨ c.nvm.keys.length < 32)
    let ent := fun (n : Nat) => (⟨f 6 1, fp, f 88 8, pub, f 16 8, n⟩ : KeyEnt)
    let held := ∃ y ∈ c.nvm.keys, y.fp = f 0 8
    (runs 0x84 → c.run = true → s.managerDoes (.trimCommit ok) fun d => refused d 0x1D ∧ d.trim = c.trim ∧ d.pend 27 = true) ∧
    (runs 0x84 → c.run = false → dead → s.managerDoes (.trimCommit ok) fun d => refused d 0x1C ∧ d.trim = c.trim ∧ d.pend 27 = true) ∧
    (runs 0x84 → c.run = false → ¬ dead → trim = some why → s.managerDoes (.trimCommit ok) fun d => refused d why ∧ d.trim = c.trim ∧ d.pend 27 = true) ∧
    (runs 0x84 → c.run = false → ¬ dead → trim = none → s.managerDoes (.trimCommit true) fun d =>
      sent d 0 0 [] ∧ d.trim = sliceBytes c.mgt.stgTrim 0 len ∧ d.pend 26 = true) ∧
    (runs 0x84 → c.run = false → ¬ dead → trim = none → s.managerDoes (.trimCommit false) fun d => refused d 0x1C ∧ d.trim = [] ∧ d.pend 27 = true) ∧
    (runs 0x86 → dead → s.managerDoes (.fwCommit ok) (refused · 0x1C)) ∧
    (runs 0x86 → ¬ dead → 4194304 < len → s.managerDoes (.fwCommit ok) (refused · 0x15)) ∧
    (runs 0x86 → fits → s.managerDoes (.fwCommit false) fun d => sent d 8 0x1C [] ∧ slot d slotBad ∧ d.pend 249 = true) ∧
    (runs 0x86 → fits → fw = some why → s.managerDoes (.fwCommit true) fun d => sent d 8 why [] ∧ slot d slotBad ∧ d.pend 249 = true) ∧
    (runs 0x86 → fits → fw = none → s.managerDoes (.fwCommit true) fun d => sent d 0 0 (beBytes 1 k) ∧ slot d slotValid ∧ d.pend 247 = true ∧
      d.nvm.lastFw = k ∧ d.nvm.fwFloor = max c.nvm.fwFloor (min (fwSvn g) 64)) ∧
    (runs 0x88 → dead → s.managerDoes .enrol (refused · 0x1C)) ∧
    (runs 0x88 → ¬ dead → ¬ cert → s.managerDoes .enrol fun d => ∃ code, refused d code) ∧
    (runs 0x88 → ¬ dead → cert → ¬ known → s.managerDoes .enrol fun d =>
      sent d 0 0 [] ∧ d.nvm = { c.nvm with keys := c.nvm.keys ++ [ent 0] } ∧ d.pend 245 = true) ∧
    (runs 0x88 → ¬ dead → cert → known → s.managerDoes .enrol fun d => sent d 0 0 [] ∧
      d.nvm = { c.nvm with keys := c.nvm.keys.map (fun y => if y.fp = fp then ent y.count else y) } ∧ d.pend 245 = true) ∧
    (runs 0x89 → dead → s.managerDoes .revoke (refused · 0x1C)) ∧
    (runs 0x89 → ¬ dead → ¬ held → s.managerDoes .revoke fun d => ∃ code, refused d code) ∧
    (runs 0x89 → ¬ dead → held → s.managerDoes .revoke fun d => sent d 0 0 [] ∧ d.pend 246 = true ∧
      d.nvm = { c.nvm with keys := c.nvm.keys.filter (fun y => decide (y.fp ≠ f 0 8)) }) ∧
    (runs 0x8C → f 0 1 = 0 → s.managerDoes .rekey fun d =>
      d.nvm = { c.nvm with idGen := c.nvm.idGen + 1 } ∧ sent d 0 0 (edPublic (beBytes 57 (Config.identityKey (c.nvm.idGen + 1))))) ∧
    (runs 0x8C → f 0 1 ≠ 0 → s.managerDoes .rekey fun d => d.nvm = { c.nvm with rootIx := min 4 (c.nvm.rootIx + 1), rootCount := 0 } ∧ sent d 0 0 []) ∧
    (runs 0x8D → s.managerDoes .diag fun d => sent d 0 0 [] ∧ d.mgt.diag = f 0 1 ∧ d.pend 255 = true) ∧
    (runs 0x8E → s.managerDoes .fuseRead fun d => sent d 0 0 (beBytes 4 (Config.fuseWord (f 0 2))) ∧ d.nvm = c.nvm) ∧
    (s.managerDoes .roleEnd fun d => d = { c with regs := d.regs, bus := .done } ∧
      c.puts d [(F.MGT_ROLE_END, 0), (F.MGT_ROLE_ROLE, 0), (F.MGT_ROLE_FP_HI_FP, 0), (F.MGT_ROLE_FP_LO_FP, 0)])

/-- An event sets PEND, counts and leaves its detail; it is recorded once a second and sent to subscribers, ten of one event
a second. Cites: 14_management_roles_and_logbook. -/
def Obligations.EventsReported : Prop :=
  ∀ (s : State) (e d num : Nat) (x : Subscriber), s.chip.live = true →
    let c := s.chip
    let f := fun (g : Fld) => g.ix 4 e
    let bit := match eventBit e with
      | some g => [(g, 1)]
      | none => []
    let log := c.b (f F.EVT_ROUTE_LOG) = true ∨ (224 ≤ e ∧ e < 240)
    let owes := fun (y : Subscriber) => c.b (f F.EVT_ROUTE_HELM) = true ∧ bitOf y.mask (e / 16) = true
    let count := fun (m : AMap Nat) (k : Nat) => AMap.get (always 0) m k
    let n := count c.evt.since e
    let last := count c.evt.recAt e
    let due := n ≠ 0 ∧ (last = 0 ∨ last + 640000000 ≤ c.tick + 1)
    let room := c.log.waiting = [] ∧ c.log.queue.length < 64
    let recorded := fun (t : Chip) =>
      t = { c with regs := t.regs, hot := t.hot, evt := { c.evt with since := t.evt.since, recAt := t.evt.recAt }, log := t.log, freeIx := c.freeIx + 1 } ∧
      (∀ k, count t.evt.since k = if k = e then 0 else count c.evt.since k) ∧ ∀ k, count t.evt.recAt k = if k = e then c.tick + 1 else count c.evt.recAt k
    let recent := (AMap.get (always []) x.sent e).filter (fun u => decide (c.tick < u + 640000000))
    let sends := count x.due e ≠ 0 ∧ recent.length < 10 ∧ c.int.coresUp = true
    let found := c.evt.subs.find? (fun y => decide (y.num = num ∧ c.tick < y.lapse))
    let body := beBytes 1 e ++ beBytes 1 0 ++ beBytes 2 (min 65535 (count x.due e)) ++ beBytes 4 (c.g (f F.EVT_DETAIL_DETAIL)) ++ beBytes 16 c.stamp
    (eventReserved e = true → s.managerDoes (.eventOccurrence e d) (· = c)) ∧
    (eventReserved e = false → s.managerDoes (.eventOccurrence e d) fun t => t = { c with regs := t.regs, hot := t.hot, evt := t.evt } ∧
      c.puts t (bit ++ [(f F.EVT_ROUTE_PEND, 1), (f F.EVT_ROUTE_COUNT, satTo (f F.EVT_ROUTE_COUNT) (c.g (f F.EVT_ROUTE_COUNT)) 1),
        (f F.EVT_DETAIL_DETAIL, d), (F.EVT_CTL_LAST, e)]) ∧
      (∀ k, (k = e ∧ log → count t.evt.since k = count c.evt.since k + 1) ∧ (¬ (k = e ∧ log) → count t.evt.since k = count c.evt.since k)) ∧
      t.evt.recAt = c.evt.recAt ∧ t.evt.subs.length = c.evt.subs.length ∧
      ∀ (j : Nat) (y z : Subscriber), c.evt.subs[j]? = some y → t.evt.subs[j]? = some z → z = { y with due := z.due } ∧
        ∀ k, (k = e ∧ owes y → count z.due k = count y.due k + 1) ∧ (¬ (k = e ∧ owes y) → count z.due k = count y.due k)) ∧
    (¬ due → s.managerDoes (.eventRecordWrite e) (· = c)) ∧
    (due → room → s.managerDoes (.eventRecordWrite e) fun t => recorded t ∧ t.regs = c.regs ∧
      ∃ u : LogRec, t.log = { c.log with queue := c.log.queue ++ [u], nextSeq := c.log.nextSeq + 1 } ∧ u.seq = c.log.nextSeq ∧ u.kind = 1 ∧ u.code = e ∧
        bitsOf u.data 159 128 = c.g (f F.EVT_DETAIL_DETAIL) ∧ bitsOf u.data 127 96 = n % 2 ^ 32) ∧
    (due → ¬ room → s.managerDoes (.eventRecordWrite e) fun t => recorded t ∧ t.log = c.log ∧
      c.puts t [(F.LOG_STAT_DROP_CNT, satTo F.LOG_STAT_DROP_CNT (c.g F.LOG_STAT_DROP_CNT) 1), (F.LOG_STAT_DROP, 1)]) ∧
    (found = none ∨ (found = some x ∧ ¬ sends) → s.managerDoes (.notificationSend num e) (· = c)) ∧
    (found = some x → sends → s.managerDoes (.notificationSend num e) fun t =>
      t = { c with evt := { c.evt with subs := t.evt.subs }, mgt := { c.mgt with out := c.mgt.out ++ [⟨x.ip, x.port, helmReply 0xF0 0 0 x.seq body⟩] } } ∧
      t.evt.subs.map (·.num) = c.evt.subs.map (·.num) ∧
      ∃ z ∈ t.evt.subs, z.num = num ∧ z.seq = (x.seq + 1) % 2 ^ 32 ∧ count z.due e = 0 ∧ AMap.get (always []) z.sent e = c.tick :: recent) ∧
    (s.managerDoes (.subscriptionLapse num) fun t => t = { c with evt := { c.evt with subs := t.evt.subs } } ∧
      t.evt.subs = c.evt.subs.filter (fun y => !(decide (y.num = num) && decide (y.lapse ≤ c.tick))))

/-- The Logbook's writer places records in order, retries, skips and fails over to SRAM; the cores write, read and exchange
frames. Cites: 14_management_roles_and_logbook. -/
def Obligations.LogbookKept : Prop :=
  ∀ (s : State) (v : Word) (ok written tsReq up : Bool) (id sub : Nat) (b : List Byte) (r : LogRec) (q : List LogRec),
    s.chip.live = true →
    let c := s.chip
    let l := c.log
    let k := c.g F.LOG_WR_HDR_KIND
    let kind := if k = 1 ∨ k = 6 ∨ k = 7 then 8 else k
    let shown := (c.logGet (c.g F.LOG_RD_SEQ_RD_SEQ)).map (fun x => x.1.bytes) |>.getD (List.replicate 64 0)
    let field := fun (t : Chip) (o : Nat) => BitVec.ofNat 32 (beField shown o 4) = t.word (0x48000020 + o)
    let alone := l.waiting = []
    let one := fun (x : LogRec) => x.kind = kind ∧ x.code = c.g F.LOG_WR_HDR_CODE ∧ x.role = c.role.code ∧ x.keyfp = c.roleFp
    let fine := c.b F.LOG_STAT_NVM_FAIL = false
    let at_ := fun (t : Chip) (n : Nat) => if n < 4096 then AMap.get (always noRec) t.log.perm n else AMap.get (always noRec) t.log.circ ((n - 4096) % 16384)
    let gone := fun (t : Chip) => t.g F.LOG_STAT_NVM_FAIL = 1 ∧ t.pend 251 = true ∧ (alone → t.log.queue = []) ∧ t.nvm.atFail ≠ none ∧
      t.log.perm = l.perm ∧ t.log.circ = l.circ
    let takes := fun (t : Chip) => (alone → t.log.queue = q) ∧ ∀ w z, l.waiting = w :: z → q.length < 64 → t.log.waiting = z ∧
      t.g F.LOG_WR_CTL_GO = (if l.wrWait = 1 then 0 else c.g F.LOG_WR_CTL_GO) ∧ t.log.queue = q ++ [c.sealRec w]
    let full := l.nextLoc + 1 = 4096
    let counts := 0 ∉ c.pwr.brown ∧ l.opFrom + 9000000000 ≤ c.tick
    let link := c.b F.MGT_STAT_LINK = true
    let stamped := fun (f : Fld) => c.sub + sub + if c.b F.MGT_CTL_MODE = true then 16 * c.g f else 0
    let u := stamped F.MER_PTP_LAT_RX_LAT
    (alone → l.queue.length < 64 → s.managerDoes (.logWrGo v) fun t => t = { c with regs := t.regs, log := t.log, bus := .done } ∧ t.g F.LOG_WR_CTL_GO = 0 ∧
      ∃ x : LogRec, t.log = { l with queue := l.queue ++ [x], nextSeq := l.nextSeq + 1, wrWait := 0 } ∧ one x ∧ x.seq = l.nextSeq ∧
        x.optime = l.optime ∧ x.pcyc = l.pcyc) ∧
    (alone → 64 ≤ l.queue.length → s.managerDoes (.logWrGo v) fun t => t = { c with regs := t.regs, log := t.log, bus := .done } ∧ t.g F.LOG_WR_CTL_GO = 1 ∧
      t.log.queue = l.queue ∧ t.log.wrWait = 1 ∧ t.log.waiting.length = 1) ∧
    (s.managerDoes .logRdGo fun t => t = { c with regs := t.regs, bus := .done } ∧ t.g F.LOG_RD_GO = 0 ∧ t.g F.LOG_RD_DONE = 1 ∧
      t.g F.LOG_RD_WHERE = ((c.logGet (c.g F.LOG_RD_SEQ_RD_SEQ)).map (·.2)).getD 0 ∧ ∀ j, j < 16 → field t (4 * j)) ∧
    (alone → l.queue = [] → s.managerDoes (.logbookCommit ok) (· = c)) ∧
    (fine → l.queue = r :: q → s.managerDoes (.logbookCommit true) fun t => at_ t l.nextLoc = r ∧ t.log.nextLoc = l.nextLoc + 1 ∧ takes t ∧
      t.log.tries = 0 ∧ t.log.failedLocs = 0 ∧ (full → t.g F.LOG_STAT_PERM_FULL = 1 ∧ t.pend 253 = true) ∧ t.workers = c.workers ∧ t.nvm = c.nvm) ∧
    (fine → l.queue = r :: q → l.tries = 0 → s.managerDoes (.logbookCommit false) (· = { c with log := { l with tries := 1 } })) ∧
    (fine → l.queue = r :: q → l.tries ≠ 0 → l.failedLocs < 3 → s.managerDoes (.logbookCommit false) fun t =>
      t = { c with regs := t.regs, hot := t.hot, evt := t.evt, log := { l with tries := 0, failedLocs := l.failedLocs + 1, nextLoc := l.nextLoc + 1 } }) ∧
    (fine → l.queue = r :: q → l.tries ≠ 0 → 3 ≤ l.failedLocs → s.managerDoes (.logbookCommit false) gone) ∧
    (¬ fine → l.queue = r :: q → s.managerDoes (.logbookCommit ok) fun t => takes t ∧
      t.log.ring = (if 64 ≤ l.ring.length then l.ring.drop 1 else l.ring) ++ [r] ∧ (64 ≤ l.ring.length → t.pend 252 = true) ∧ t.log.perm = l.perm) ∧
    (¬ fine → s.managerDoes (.nvmFailure written) (· = c)) ∧
    (fine → s.managerDoes (.nvmFailure written) fun t => gone t ∧
      (written = true → l.nextReserved < 16 → (AMap.get (always noRec) t.log.reserved l.nextReserved).kind = 7 ∧ t.log.nextReserved = l.nextReserved + 1)) ∧
    (¬ counts → s.managerDoes .optimeTick (· = c)) ∧
    (counts → s.managerDoes .optimeTick (· = { c with log := { l with optime := (l.optime + 1) % 2 ^ 32, opFrom := l.opFrom + 9000000000 } })) ∧
    (¬ link → s.managerDoes (.mgmtFrameReceived b sub) (· = c) ∧ s.managerDoes (.mgmtFrameSend b tsReq id sub) (· = c)) ∧
    (link → s.managerDoes (.mgmtFrameReceived b sub) (· = { c with mgt := { c.mgt with
      rx := c.mgt.rx ++ [b ++ beBytes 6 (secOf u) ++ beBytes 4 (nsOf u) ++ beBytes 2 (subnsOf u)] } })) ∧
    (link → c.helmUp = true → s.managerDoes (.mgmtFrameSend b false id sub) (· = { c with mgt := { c.mgt with tx := c.mgt.tx ++ [b] } })) ∧
    (link → c.helmUp = true → s.managerDoes (.mgmtFrameSend b true id sub) fun t =>
      t.mgt = { c.mgt with tx := c.mgt.tx ++ [b] } ∧ t.mer.txts = c.mer.txts ++ [⟨id % 65536, stamped F.MER_PTP_LAT_TX_LAT, c.tick⟩]) ∧
    (c.b F.MGT_STAT_LINK = up → s.managerDoes (.mgmtLinkChange up) (· = c)) ∧
    (c.b F.MGT_STAT_LINK ≠ up → s.managerDoes (.mgmtLinkChange up) fun t =>
      t = { c with regs := t.regs, hot := t.hot, evt := t.evt } ∧ t.b F.MGT_STAT_LINK = up ∧ t.pend 254 = true)

/-- Power-on reset and RESET_N hold the manager and start it with straps sampled; a RESET_N low too long is ignored until
high again. Cites: 15_electrical_and_packages; 14_management_roles_and_logbook. -/
def Obligations.ManagerStart : Prop :=
  ∀ (s : State) (boot t : Nat) (pol nvmOk : Bool),
    let c := s.chip
    let p := c.pwr
    let brown := ∃ n ∈ p.brown, n < 9
    let startsAs := fun (e : Nat) (w : Pwr) (d : Chip) => d.pwr = { w with bootSel := boot % 4 } ∧ d.live = true ∧ d.workers = c.workers ∧
      d.work = c.work ∧ d.int.stup = some true ∧ d.g F.INT_STUP_BUSY = 1 ∧ d.g F.MGT_STAT_BOOT_SEL = boot % 4 ∧ d.pend e = true ∧
      (nvmOk = false → d.g F.MGT_STAT_RECOVERY = 1 ∧ d.int.coresUp = false) ∧ (∀ q, q < 130 → (d.port q).rx.huntFrom = c.tick) ∧
      d.log.optime = c.log.optime ∧ d.tick = c.tick
    let same := fun (x : Instr) => s.managerDoes x (· = c)
    let only := fun (x : Instr) (w : Pwr) => s.managerDoes x (· = { c with pwr := w })
    let failed := p.lowSince = some t ∧ p.stuckPol = true ∧ p.por = false ∧ p.resetN = true ∧ t + 6400000000 ≤ c.tick
    let long := p.highSince = some t ∧ p.ignored = true ∧ t + 64000000 ≤ c.tick
    let out := { p with por := false, stuckPol := pol }
    (p.por = false ∨ brown → same (.powerOnResetRelease boot pol nvmOk)) ∧
    (p.por = true → ¬ brown → p.resetN = true → s.managerDoes (.powerOnResetRelease boot pol nvmOk) (· = { c with
      pwr := { out with lowSince := some c.tick }, log := { c.log with pcyc := (c.log.pcyc + 1) % 2 ^ 32 } })) ∧
    (p.por = true → ¬ brown → p.resetN = false → s.managerDoes (.powerOnResetRelease boot pol nvmOk) fun d =>
      startsAs 0 out d ∧ d.log.pcyc = (c.log.pcyc + 1) % 2 ^ 32) ∧
    (p.ignored = true → only .resetNAssert { p with highSince := none }) ∧
    (p.ignored = false → p.resetN = true → same .resetNAssert) ∧
    (p.ignored = false → p.resetN = false → p.por = true → only .resetNAssert { p with resetN := true, lowSince := some c.tick }) ∧
    (p.ignored = false → p.resetN = false → p.por = false → s.managerDoes .resetNAssert fun d =>
      d.live = false ∧ d.pwr.resetN = true ∧ d.pwr.lowSince = some c.tick ∧ d.log = { c.log with wrWait := 0 } ∧ d.workers = c.workers ∧
      d.nvm.keys = c.nvm.keys ∧
      d.nvm.fws = c.nvm.fws ∧ d.work = [] ∧ (∀ q, (d.port q).locked = false ∧ (d.port q).inbox = [] ∧ (d.port q).los = (c.port q).los) ∧
      d.eng = [] ∧ d.slots = [] ∧ d.rose = .init ∧ d.egr = .init ∧ d.mgt.queue = [] ∧
      d.run = false ∧ d.role = .none ∧ d.int.coresUp = false ∧ d.g F.LOG_STAT_NVM_FAIL = c.g F.LOG_STAT_NVM_FAIL ∧ d.tick = c.tick) ∧
    (p.ignored = true → only (.resetNRelease boot nvmOk) { p with highSince := some c.tick }) ∧
    (p.ignored = false → p.resetN = false → same (.resetNRelease boot nvmOk)) ∧
    (p.ignored = false → p.resetN = true → p.por = true → only (.resetNRelease boot nvmOk) { p with resetN := false, lowSince := none }) ∧
    (p.ignored = false → p.resetN = true → p.por = false → s.managerDoes (.resetNRelease boot nvmOk) fun d =>
      startsAs 1 { p with resetN := false, lowSince := none } d ∧ d.log.pcyc = c.log.pcyc) ∧
    (failed → s.managerDoes (.resetNFailed boot nvmOk) fun d =>
      startsAs 2 { p with resetN := false, lowSince := none, ignored := true, highSince := none } d ∧ d.log.pcyc = c.log.pcyc) ∧
    (p.lowSince = none ∨ (p.lowSince = some t ∧ ¬ failed) → same (.resetNFailed boot nvmOk)) ∧
    (long → s.managerDoes .resetNHonouredAgain fun d =>
      d = { c with regs := d.regs, hot := d.hot, evt := d.evt, pwr := { p with ignored := false, highSince := none } } ∧ d.pend 3 = true) ∧
    (p.highSince = none ∨ (p.highSince = some t ∧ ¬ long) → same .resetNHonouredAgain)

/-- A rail out of range is event 6; a brown-out resets, takes lanes down, stops converters or the interlock; workers reset
alone. Cites: 15_electrical_and_packages; 13_bias_interlock. -/
def Obligations.SuppliesAndWorkers : Prop :=
  ∀ (s : State) (n k : Nat) (temp : Int),
    let c := s.chip
    let p := c.pwr
    let i := s.saf
    let x := c.worker k
    let since := fun (d : Chip) => AMap.get (always 0) d.evt.since 6
    let low := { c with pwr := { p with brown := p.brown ++ [n] } }
    let base := if 10 ∈ p.brown then c else { c with pwr := { p with brown := p.brown ++ [10] } }
    let off : Interlock := { Interlock.off with fbHs := i.fbHs, fbLs := i.fbLs, dscFb := i.dscFb, rstLow := i.rstLow }
    let new := n < 10 ∧ n ∉ p.brown
    let quiet := fun (y : HkConv) => (∀ t, y.ph ≠ .settle t) ∧ ∀ t, y.ph = .integ t → t ≤ c.tick
    let back := { p with brown := p.brown.filter (· != n) }
    let slot := fun (cmd : Instr) (P : Worker → Prop) => s.managerDoes cmd fun d => d = { c with workers := d.workers } ∧
      (∀ j, j ≠ k → d.worker j = c.worker j) ∧ P (d.worker k)
    let pins := fun (wk : Bool) (y z : Port) => z = { Port.init with regs := z.regs, los := y.los } ∧
      ∀ a, z.word wk a = if y.los = false ∧ a = F.LNK_STAT_LOS.reg then F.LNK_STAT_LOS.put (linkReset wk a) 0 else linkReset wk a
    let held := fun (on : Bool) (y : Worker) => (∀ west, pins true (x.port west) (y.port west)) ∧
      y = { Worker.init with ctl := { Worker.init.ctl with powered := on, inReset := true, calIn := x.ctl.calIn }, east := y.east, west := y.west }
    let fresh := fun (y : Worker) => y.ctl.inReset = false ∧ y.ctl.powered = true ∧ y.pixels = [] ∧ y.tiles = [] ∧
      ∀ west, (y.port west).rx.huntFrom = c.tick ∧ (y.port west).inbox = []
    let lost := ∀ west, (x.port west).locked = false ∧ (x.port west).rx.huntFrom + 12800000 ≤ c.tick
    (10 < n → s.managerDoes (.supplyBrownOut n) (· = c)) ∧
    (10 < n ∨ c.live = false → s.managerDoes (.supplyOutOfRange n) (· = c)) ∧
    (n ≤ 10 → c.live = true → s.managerDoes (.supplyOutOfRange n) fun d => d = { c with regs := d.regs, hot := d.hot, evt := d.evt } ∧ d.pend 6 = true ∧
      d.g (evtFld F.EVT_DETAIL_DETAIL 6) = n ∧ since d = since c + 1) ∧
    (n < 10 → n ∈ p.brown → s.managerDoes (.supplyBrownOut n) (· = c)) ∧
    (new → n ∈ [0, 1, 2, 5, 6, 7] → s.managerDoes (.supplyBrownOut n) fun d => d.pwr.por = true ∧ d.pwr.brown = p.brown ++ [n] ∧ d.live = false ∧
      d.pwr.ignored = false ∧ (d.pwr.resetN = true ↔ p.resetN = true ∨ (p.ignored = true ∧ p.highSince = none)) ∧
      d.run = false ∧ d.work = [] ∧ (∀ q, pins false (c.port q) (d.port q)) ∧ d.workers = c.workers ∧
      d.log.queue = [] ∧ d.log.ring = [] ∧ d.log.perm = c.log.perm ∧
      d.log.circ = c.log.circ ∧ d.g F.LOG_STAT_NVM_FAIL = 0) ∧
    (new → n = 3 ∨ n = 4 → s.managerDoes (.supplyBrownOut n) fun d => d = { low with regs := d.regs } ∧ ∀ l, l < 9 → d.g (laneFld F.EGR_LANE0_UP l) = 0) ∧
    (new → n = 8 → s.managerDoes (.supplyBrownOut n) (· = low)) ∧
    (new → n = 9 → s.managerDoes (.supplyBrownOut n) fun d => d.pwr = low.pwr ∧ d.hk.subs = [] ∧ d.hk.slope = none ∧ d.g F.HK_SLOPE_VALID = 0 ∧
      quiet d.hk.a ∧ quiet d.hk.b ∧ d.hk.fifo = c.hk.fifo) ∧
    (s.Inv → i.up = true → s.interlockDoes (.supplyBrownOut 10) base [11] off) ∧
    (s.Inv → i.up = false → s.interlockDoes (.supplyBrownOut 10) base [] i) ∧
    (n ∉ p.brown → s.managerDoes (.supplyReturn n) (· = c)) ∧
    (n ∈ p.brown → n ≠ 9 → s.managerDoes (.supplyReturn n)
      (· = { c with pwr := back, log := if n = 0 then { c.log with opFrom := c.tick } else c.log })) ∧
    (n ∈ p.brown → n = 9 → s.managerDoes (.supplyReturn n) fun d => d.pwr = back ∧ d.workers = c.workers ∧ d.hk.fifo = c.hk.fifo ∧
      (c.b F.HK_CTL_SEQ_EN = false → (c.hk.a.ph = .ready → d.hk.a.owed = 0) ∧ (c.hk.b.ph = .ready → d.hk.b.owed = 0))) ∧
    (c.live = false → s.managerDoes .tapLeaveReset (· = { c with pwr := { p with tap := true } })) ∧
    (c.live = false → s.managerDoes (.dieTempEvent temp) fun d => d = { c with pwr := { p with hot115 := d.pwr.hot115, hot125 := d.pwr.hot125 } }) ∧
    (c.live = true → s.managerDoes .tapLeaveReset fun d =>
      d = { c with regs := d.regs, hot := d.hot, evt := d.evt, pwr := { p with tap := true } } ∧ d.pend 7 = true) ∧
    (1024 ≤ k → ∀ cmd ∈ [Instr.workerRstN k, .workerSupplyLoss k, .workerPorRelease k], s.managerDoes cmd (· = c)) ∧
    (k < 1024 → slot (.workerRstN k) (held x.ctl.powered) ∧ slot (.workerSupplyLoss k) (held false)) ∧
    (k < 1024 → x.ctl.inReset = false → s.managerDoes (.workerPorRelease k) (· = c)) ∧
    (k < 1024 → x.ctl.inReset = true → slot (.workerPorRelease k) fun y => fresh y ∧ y.regs = []) ∧
    (s.alive k → lost → slot (.linkLossReset k) fun y => y.ctl.inReset = false ∧ y.tab = x.tab ∧ y.g F.TC_STAT_INIT_DONE = x.g F.TC_STAT_INIT_DONE ∧
      (∀ b, b ≠ 0x201 → y.word b = if 0x1000 ≤ b ∧ b < 0x5000 then x.word b else wkrReset b) ∧ ∀ west, (y.port west).rx.huntFrom = c.tick) ∧
    (¬ s.alive k ∨ ¬ lost → slot (.linkLossReset k) (· = x))

/-- Events 4 and 5 rise above 115 °C and 125 °C, again only after cooling below 110 °C and 120 °C; the manager runs on.
Cites: R510. -/
def Obligations.DieTemperature : Prop :=
  ∀ (s : State) (temp : Int), s.chip.live = true →
    let c := s.chip
    let p := c.pwr
    let rises4 := p.hot115 = false ∧ 115 < temp
    let rises5 := p.hot125 = false ∧ 125 < temp
    let count := fun (d : Chip) (e : Nat) => d.g (evtFld F.EVT_ROUTE_COUNT e)
    let once := fun (d : Chip) (e : Nat) => d.pend e = true ∧ count d e = satTo (evtFld F.EVT_ROUTE_COUNT e) (count c e) 1
    let never := fun (d : Chip) (e : Nat) => d.pend e = c.pend e ∧ count d e = count c e
    (s.managerDoes (.dieTempEvent temp) fun d =>
      d = { c with regs := d.regs, hot := d.hot, evt := d.evt, pwr := { p with hot115 := d.pwr.hot115, hot125 := d.pwr.hot125 } } ∧ d.live = c.live ∧
      d.run = c.run ∧ (rises4 → once d 4) ∧ (¬ rises4 → never d 4) ∧ (rises5 → once d 5) ∧ (¬ rises5 → never d 5) ∧
      (d.pwr.hot115 = true ↔ rises4 ∨ (p.hot115 = true ∧ 110 ≤ temp)) ∧ (d.pwr.hot125 = true ↔ rises5 ∨ (p.hot125 = true ∧ 120 ≤ temp)))

/-- A write takes RW bits, permitted RWL bits and clears W1C bits; a value for another role's field is refused and recorded.
Cites: 01_system_architecture; 05_plom_links; 06_loops_and_worker_control; 04_worker_readout_and_sightings. -/
def Obligations.RegisterWrites : Prop :=
  ∀ (s : State) (a k n : Nat) (v : Word) (ok : Bool) (z : AccSize) (r : RegSpec), s.chip.live = true →
    let c := s.chip
    let x := c.worker k
    let may := fun (f : RwlFld) => c.role.mayWrite f.role = true
    let bad := ∃ f ∈ r.rwl, ¬ may f ∧ bitsOf v.toNat f.hi f.lo ≠ if f.selfClear then 0 else bitsOf (c.word a).toNat f.hi f.lo
    let plain := a / 2 ^ 24 = 0x43 ∧ a % 4 = 0 ∧ a ≠ 0x43000000 ∧ mgrSpecAt a = some r
    let writable := bitOf r.rw n = true ∨ bitOf (openMask c.role r.rwl) n = true
    let new := if (c.hotOf a).getLsbD n = true then true
      else if bitOf r.w1c n = true ∧ v.getLsbD n = true then false else if writable then v.getLsbD n else (c.word a).getLsbD n
    let room := c.log.waiting = [] ∧ c.log.queue.length < 64
    let cmd := Instr.registerWrite .mgr .word a v ok
    let wcmd := fun (b : Nat) => Instr.registerWrite (.worker k) .word b v ok
    let takes := fun (b : Nat) (w : Word) => s.managerDoes (wcmd b) fun d => d = { c with workers := d.workers } ∧
      (∀ j, j ≠ k → d.worker j = c.worker j) ∧ (d.worker k).word b = w ∧ ∀ i, i ≠ b → (d.worker k).word i = x.word i
    let fallback := x.b F.WK_GSTAT_FWD_ONLY = true
    let masked := fun (b : Nat) (m : Word) => (x.word b &&& ~~~m) ||| (v &&& m)
    (inBlocks a = true → z ≠ .word ∨ a % 4 ≠ 0 → s.managerDoes (.registerWrite .mgr z a v ok) (· = { c with bus := .done }) ∧
      c.busRead s.saf z a = (0, true, c)) ∧
    (plain → n < 32 → s.managerDoes cmd fun d => (d.word a).getLsbD n = new ∧ d.bus = (if bad then ⟨0, true, true⟩ else .done)) ∧
    (plain → ¬ bad → s.managerDoes cmd fun d => d = { c with regs := d.regs, bus := .done } ∧ ∀ b, b ≠ a → d.word b = c.word b) ∧
    (plain → bad → room → s.managerDoes cmd fun d => d = { c with regs := d.regs, hot := d.hot, evt := d.evt, log := d.log, bus := d.bus } ∧ d.pend 244 = true ∧
      (∀ b, b ≠ a → evtReg b = false → d.word b = c.word b) ∧
      ∃ u : LogRec, d.log = { c.log with queue := c.log.queue ++ [u], nextSeq := c.log.nextSeq + 1 } ∧ u.kind = 3 ∧ u.role = c.role.code ∧
        bitsOf u.data 159 128 = a ∧ bitsOf u.data 127 64 = v.toNat) ∧
    (s.alive k → fallback → a ∉ [0x001, 0x003] → (linkAddr a).isSome = false → s.managerDoes (wcmd a) (· = c)) ∧
    (v.getLsbD 31 = true → x.running = false → c.enableReason k ≠ 0 → s.managerDoes (wcmd 0x001) fun d =>
      d.workers = c.workers ∧ d.ports = c.ports ∧ d.sg F.PRT_SLOT_REASON k = c.enableReason k ∧ d.pend 25 = true) ∧
    (s.alive k → takes 0x003 ((x.word 0x003 &&& ~~~(v &&& 0xFFFFF#32)) ||| x.hotOf 0x003)) ∧
    (s.alive k → ¬ fallback → takes 0x004 (masked 0x004 0xFFFFF#32) ∧ takes 0x005 (masked 0x005 0xFFFF0000#32) ∧
      takes 0x202 (masked 0x202 0xFF#32) ∧ takes 0x207 (masked 0x207 0xE000FFFF#32))

/-- An address with no register reads 0 and ignores writes, one outside the blocks is a bus error, and SAF_ ignores every
role. Cites: R18; R46. -/
def Obligations.EmptyAndReadOnly : Prop :=
  ∀ (s : State) (a p o : Nat) (v : Word) (ok : Bool) (z : AccSize), s.chip.live = true →
    let c := s.chip
    let cmd := Instr.registerWrite .mgr .word a v ok
    let ignored := s.managerDoes cmd (· = { c with bus := .done }) ∧ c.busRead s.saf .word a = (0, false, c)
    let whole := a % 4 = 0
    (whole → noRegister a = true → ignored) ∧
    (whole → windowOf a = some (p, o) → 0x28 ≤ o → 128 ≤ p ∨ mgrSpecAt a = none → ignored) ∧
    (a < 0x40000000 ∨ 0x4C000000 ≤ a → s.managerDoes (.registerWrite .mgr z a v ok) (· = { c with bus := ⟨0, true, false⟩ }) ∧
      c.busRead s.saf z a = (0, true, c)) ∧
    (a / 2 ^ 24 = 0x47 → s.managerDoes (.registerWrite .mgr z a v ok) fun d => d = { c with regs := d.regs, bus := .done } ∧ ∀ b, d.word b = c.word b)

/-- A step runs the command at the front of the queue with the rest as its queue; with none waiting one cycle of MCK passes.
Cites: 01_system_architecture. -/
def Obligations.StepTakesFront : Prop :=
  ∀ (s : State) (c : Instr) (rest : List Instr),
    (s.pending = c :: rest → step s = exec c { s with pending := rest }) ∧
    (s.pending = [] → ∃ t, step s = .next t ∧ t.saf = s.saf ∧ t.pending = [] ∧ t.chip.tick = s.chip.tick + 1)

/-- After reset registers hold their reset values, nothing is stored, no run is enabled, and the interlock drives no output.
Cites: 01_system_architecture; 13_bias_interlock; 15_electrical_and_packages. -/
def Obligations.ResetState : Prop :=
  State.reset.Inv ∧ State.reset.pending = [] ∧
  (∀ b, b ≠ F.QUE_POOL_MIN_MIN.reg → State.reset.chip.word b = mgrReset b) ∧
  (∀ w b, (State.reset.chip.worker w).word b = wkrReset b) ∧
  State.reset.chip.g F.QUE_POOL_MIN_MIN = State.reset.chip.poolFree ∧
  State.reset.chip.live = true ∧ State.reset.chip.run = false ∧ State.reset.chip.role = .none ∧ State.reset.chip.work = [] ∧
  State.reset.chip.nvm.keys = Nvm.init.keys ∧ State.reset.chip.log = LogState.init ∧ State.reset.chip.ports = [] ∧ State.reset.chip.tick = 0 ∧
  State.reset.saf.up = false ∧ State.reset.saf.st = .test ∧ State.reset.saf.enHs = false ∧ State.reset.saf.enLs = false ∧
  State.reset.saf.rampReq = true ∧ State.reset.saf.dsc = false

/-- Every step keeps the interlock safe: switches, ramp request and discharge are driven only as its state and its faults
allow. Cites: 13_bias_interlock. -/
def Obligations.InterlockInvariant : Prop :=
  ∀ (s t : State), s.Inv → step s = .next t → t.Inv

/-- What the line code sends a receiver in step decodes to the same block; any receiver is in step after one block. Cites:
05_plom_links. -/
def Obligations.LineCode : Prop :=
  ∀ (t : LineTx) (r : LineRx) (b : Block), b.validHdr = true →
    let sent := encodeBlock t b
    let got := decodeBlock r sent.1
    sent.1.length = 128 ∧ sent.1.take 2 = [b.hdr.getLsbD 1, b.hdr.getLsbD 0] ∧
    (∀ u : Bool, ¬ List.replicate 21 u <:+: sent.1) ∧ sent.2.run ≤ 19 ∧
    got.2.1 = false ∧ got.2.2 = ⟨sent.2.run, sent.2.last, sent.2.scr⟩ ∧
    got.1.hdr = b.hdr ∧ got.1.pay.toNat % 2 ^ 73 = b.pay.toNat % 2 ^ 73 ∧
    (r.desc = t.scr → got.1 = b)

/-- Every command completes or names a word that does not exist, leaves the queue, and only its own inputs move the
interlock. Cites: 13_bias_interlock; 01_system_architecture; 11_integrity_and_fault_handling. -/
def Obligations.CommandsAndInterlock : Prop :=
  (∀ (c : Instr) (s : State),
    let absent := (∃ m a x, c = .scrubWord m a x ∧ memWords m ≤ a) ∨ ∃ m, memWords m = 0 ∧ (c = .remapInstall m ∨ ∃ f, c = .targetedTest m f)
    (absent → exec c s = .fault .noSuchWord) ∧ (¬ absent → ∃ t, exec c s = .next t ∧ t.pending = s.pending ∧ (ofInterlock c = false → t.saf = s.saf))) ∧
  (∀ (c : Instr) (s t u v : State), ofInterlock c = true → s.saf = t.saf → s.chip.tick = t.chip.tick → s.chip.hk.slope = t.chip.hk.slope →
    exec c s = .next u → exec c t = .next v → { u.saf with demSec := 0, demNs := 0 } = { v.saf with demSec := 0, demNs := 0 }) ∧
  (∀ (c : Instr) (s t : State), ofPower c = false → ofInterlock c = false → s.chip.live = false → exec c s = .next t →
    t.chip = { s.chip with workers := t.chip.workers, freeIx := t.chip.freeIx } ∧ ∀ k, ¬ s.alive k → t.chip.worker k = s.chip.worker k)
end

