-- ==== Sys2Proof/Laws/AMap.lean ====
section
/-!
SUPPORT. Laws/AMap.lean: what a sparse map reads as after a write, and that every operation keeps its canonical form.
-/
namespace Sys2Proof

variable {α : Type}

@[simp] theorem AMap.get_nil (d : Nat → α) (k : Nat) : AMap.get d [] k = d k := rfl

theorem AMap.get_put (d : Nat → α) (m : AMap α) (k j : Nat) (v : α) :
    AMap.get d (m.put k v) j = if j = k then v else AMap.get d m j := by
  induction m with
  | nil => simp only [AMap.put, AMap.get]
  | cons e r ih =>
    obtain ⟨a, w⟩ := e
    simp only [AMap.put]
    by_cases h1 : k < a
    · simp only [h1, if_true, AMap.get]
    · by_cases h2 : k = a
      · subst h2
        simp only [h1, if_false, if_true, AMap.get]
        by_cases h3 : j = k <;> simp [h3]
      · simp only [h1, h2, if_false, AMap.get, ih]
        by_cases h3 : j = a
        · have : j ≠ k := fun h => h2 (h ▸ h3)
          simp [h3, Ne.symm h2]
        · simp [h3]

theorem AMap.get_del (d : Nat → α) (m : AMap α) (k j : Nat) :
    AMap.get d (m.del k) j = if j = k then d k else AMap.get d m j := by
  induction m with
  | nil => simp only [AMap.del, AMap.get]; by_cases h : j = k <;> simp [h]
  | cons e r ih =>
    obtain ⟨a, w⟩ := e
    simp only [AMap.del]
    by_cases h : k = a
    · subst h
      simp only [if_true, ih, AMap.get]
      by_cases h3 : j = k <;> simp [h3]
    · simp only [h, if_false, AMap.get, ih]
      by_cases h3 : j = a
      · simp [h3, Ne.symm h]
      · simp [h3]

/-- A read after a write: the value written at its key, and elsewhere what was there. -/
theorem AMap.get_set [DecidableEq α] (d : Nat → α) (m : AMap α) (k j : Nat) (v : α) :
    AMap.get d (AMap.set d m k v) j = if j = k then v else AMap.get d m j := by
  unfold AMap.set
  by_cases h : v = d k
  · simp only [h, if_true, AMap.get_del]
  · simp only [h, if_false, AMap.get_put]

@[simp] theorem AMap.get_set_same [DecidableEq α] (d : Nat → α) (m : AMap α) (k : Nat) (v : α) :
    AMap.get d (AMap.set d m k v) k = v := by
  simp [AMap.get_set]

theorem AMap.get_set_other [DecidableEq α] (d : Nat → α) (m : AMap α) (k j : Nat) (v : α) (h : j ≠ k) :
    AMap.get d (AMap.set d m k v) j = AMap.get d m j := by
  simp [AMap.get_set, h]

theorem AMap.get_upd [DecidableEq α] (d : Nat → α) (m : AMap α) (k j : Nat) (f : α → α) :
    AMap.get d (AMap.upd d m k f) j = if j = k then f (AMap.get d m k) else AMap.get d m j := by
  simp [AMap.upd, AMap.get_set]

/-- A key lies above a bound. -/
def AMap.above (b : Option Nat) (k : Nat) : Prop := ∀ x, b = some x → x < k

theorem AMap.wfFrom_cons [DecidableEq α] (d : Nat → α) (b : Option Nat) (a : Nat) (v : α) (r : AMap α) :
    AMap.wfFrom d b ((a, v) :: r) = true ↔ AMap.above b a ∧ v ≠ d a ∧ AMap.wfFrom d (some a) r = true := by
  cases b <;> simp [AMap.wfFrom, AMap.above, and_assoc]

theorem AMap.wfFrom_weaken [DecidableEq α] (d : Nat → α) (m : AMap α) (a b : Nat) (h : a ≤ b)
    (hm : AMap.wfFrom d (some b) m = true) : AMap.wfFrom d (some a) m = true := by
  cases m with
  | nil => rfl
  | cons e r =>
    obtain ⟨x, v⟩ := e
    rw [AMap.wfFrom_cons] at hm ⊢
    obtain ⟨h1, h2, h3⟩ := hm
    refine ⟨?_, h2, h3⟩
    intro y hy
    cases hy
    have := h1 b rfl
    omega

theorem AMap.wf_put [DecidableEq α] (d : Nat → α) (k : Nat) (v : α) (hv : v ≠ d k) :
    ∀ (m : AMap α) (b : Option Nat), AMap.above b k → AMap.wfFrom d b m = true → AMap.wfFrom d b (m.put k v) = true := by
  intro m
  induction m with
  | nil => intro b hb _; simp only [AMap.put]; rw [AMap.wfFrom_cons]; exact ⟨hb, hv, rfl⟩
  | cons e r ih =>
    obtain ⟨a, w⟩ := e
    intro b hb h
    rw [AMap.wfFrom_cons] at h
    obtain ⟨h1, h2, h3⟩ := h
    simp only [AMap.put]
    by_cases c1 : k < a
    · simp only [c1, if_true]
      rw [AMap.wfFrom_cons]
      refine ⟨hb, hv, ?_⟩
      rw [AMap.wfFrom_cons]
      exact ⟨fun x hx => by cases hx; exact c1, h2, h3⟩
    · by_cases c2 : k = a
      · subst c2
        simp only [Nat.lt_irrefl, if_false, if_true]
        rw [AMap.wfFrom_cons]
        exact ⟨hb, hv, h3⟩
      · simp only [c1, c2, if_false]
        rw [AMap.wfFrom_cons]
        refine ⟨h1, h2, ih (some a) ?_ h3⟩
        intro x hx
        cases hx
        omega

theorem AMap.wf_del [DecidableEq α] (d : Nat → α) (k : Nat) :
    ∀ (m : AMap α) (b : Option Nat), AMap.wfFrom d b m = true → AMap.wfFrom d b (m.del k) = true := by
  intro m
  induction m with
  | nil => intro b _; rfl
  | cons e r ih =>
    obtain ⟨a, w⟩ := e
    intro b h
    rw [AMap.wfFrom_cons] at h
    obtain ⟨h1, h2, h3⟩ := h
    simp only [AMap.del]
    by_cases c : k = a
    · simp only [c, if_true]
      have h4 := ih (some a) h3
      rw [c] at h4
      cases b with
      | none =>
        generalize AMap.del r a = q at h4
        cases q with
        | nil => rfl
        | cons e q =>
          obtain ⟨x, v⟩ := e
          rw [AMap.wfFrom_cons] at h4 ⊢
          exact And.intro (fun y hy => by cases hy) h4.2
      | some y => exact AMap.wfFrom_weaken d _ y a (Nat.le_of_lt (h1 y rfl)) h4
    · simp only [c, if_false]
      rw [AMap.wfFrom_cons]
      exact ⟨h1, h2, ih (some a) h3⟩

/-- Writing keeps the canonical form. -/
theorem AMap.wf_set [DecidableEq α] (d : Nat → α) (m : AMap α) (k : Nat) (v : α) (h : m.wf d = true) :
    (AMap.set d m k v).wf d = true := by
  unfold AMap.set AMap.wf at *
  by_cases c : v = d k
  · simp only [c, if_true]; exact AMap.wf_del d k m none h
  · simp only [c, if_false]; exact AMap.wf_put d k v c m none (fun x hx => by cases hx) h

theorem AMap.wf_upd [DecidableEq α] (d : Nat → α) (m : AMap α) (k : Nat) (f : α → α) (h : m.wf d = true) :
    (AMap.upd d m k f).wf d = true := AMap.wf_set d m k _ h

end Sys2Proof
end

