-- ==== Sys2Proof/Laws/Regs.lean ====
section
/-!
SUPPORT. Laws/Regs.lean: what a register field reads as after a write to it, and that a write leaves every other field alone.
-/
namespace Sys2Proof

/-- Two fields share no bit of a register. -/
def Fld.apart (f g : Fld) : Bool := f.reg != g.reg || decide (f.hi < g.lo) || decide (g.hi < f.lo)

/-- A field lies within its word. -/
def Fld.fits (f : Fld) : Bool := decide (f.lo ≤ f.hi) && decide (f.hi < 32)

theorem Fld.testBit_mask (f : Fld) (i : Nat) : f.mask.testBit i = (decide (f.lo ≤ i) && decide (i - f.lo < f.width)) := by
  unfold Fld.mask Fld.top
  rw [Nat.mul_comm, Nat.testBit_two_pow_mul, Nat.testBit_two_pow_sub_one]

theorem Fld.testBit_part (f : Fld) (n i : Nat) :
    (lowBits f.width n * 2 ^ f.lo).testBit i = (decide (f.lo ≤ i) && (decide (i - f.lo < f.width) && n.testBit (i - f.lo))) := by
  unfold lowBits
  rw [Nat.mul_comm, Nat.testBit_two_pow_mul, Nat.testBit_mod_two_pow]

/-- Bit `i` of a word after a field has been put. -/
theorem Fld.getLsbD_put (f : Fld) (v : Word) (n i : Nat) (h : i < 32) :
    (f.put v n).getLsbD i = if f.lo ≤ i ∧ i - f.lo < f.width then n.testBit (i - f.lo) else v.getLsbD i := by
  unfold Fld.put
  rw [BitVec.getLsbD_or, BitVec.getLsbD_and, BitVec.getLsbD_not, BitVec.getLsbD_ofNat, BitVec.getLsbD_ofNat,
    Fld.testBit_mask, Fld.testBit_part]
  by_cases c1 : f.lo ≤ i <;> by_cases c2 : i - f.lo < f.width <;> simp [c1, c2, h]

theorem Fld.testBit_of (f : Fld) (v : Word) (i : Nat) : (f.of v).testBit i = (decide (i < f.width) && v.getLsbD (i + f.lo)) := by
  unfold Fld.of bitsOf Fld.width
  rw [Nat.testBit_mod_two_pow, Nat.testBit_div_two_pow]
  rfl

/-- A field reads what was put into it, cut to its width. -/
theorem Fld.of_put (f : Fld) (h : f.fits = true) (v : Word) (n : Nat) : f.of (f.put v n) = n % 2 ^ f.width := by
  apply Nat.eq_of_testBit_eq
  intro i
  rw [Fld.testBit_of, Nat.testBit_mod_two_pow]
  by_cases c : i < f.width
  · unfold Fld.fits at h
    simp only [Bool.and_eq_true, decide_eq_true_eq] at h
    unfold Fld.width at c
    rw [Fld.getLsbD_put f v n (i + f.lo) (by omega)]
    have : f.lo ≤ i + f.lo ∧ i + f.lo - f.lo < f.width := by unfold Fld.width; omega
    rw [if_pos this, Nat.add_sub_cancel]
  · simp [c]

/-- A field is untouched by a put into bits apart from it. -/
theorem Fld.of_put_apart (f g : Fld) (hg : g.fits = true) (h : f.hi < g.lo ∨ g.hi < f.lo) (v : Word) (n : Nat) :
    g.of (f.put v n) = g.of v := by
  apply Nat.eq_of_testBit_eq
  intro i
  rw [Fld.testBit_of, Fld.testBit_of]
  by_cases c : i < g.width
  · unfold Fld.fits at hg
    simp only [Bool.and_eq_true, decide_eq_true_eq] at hg
    unfold Fld.width at c
    rw [Fld.getLsbD_put f v n (i + g.lo) (by omega)]
    have : ¬ (f.lo ≤ i + g.lo ∧ i + g.lo - f.lo < f.width) := by unfold Fld.width; omega
    simp [this]
  · simp [c]

theorem RegFile.get_set_same (d : Nat → Word) (m : RegFile) (f : Fld) (n : Nat) (h : f.fits = true) :
    RegFile.get d (RegFile.set d m f n) f = n % 2 ^ f.width := by
  unfold RegFile.get RegFile.set
  rw [AMap.get_upd, if_pos rfl, Fld.of_put f h]

theorem RegFile.get_set_apart (d : Nat → Word) (m : RegFile) (f g : Fld) (n : Nat) (hg : g.fits = true)
    (h : f.apart g = true) : RegFile.get d (RegFile.set d m f n) g = RegFile.get d m g := by
  unfold RegFile.get RegFile.set
  rw [AMap.get_upd]
  by_cases c : g.reg = f.reg
  · unfold Fld.apart at h
    rw [if_pos c, ← c]
    have h' : f.hi < g.lo ∨ g.hi < f.lo := by simpa [c] using h
    exact Fld.of_put_apart f g hg h' _ _
  · rw [if_neg c]

/-! The same for the manager, a worker and a port. -/

theorem Chip.g_s (c : Chip) (f : Fld) (n : Nat) (h : f.fits = true) : (c.s f n).g f = n % 2 ^ f.width :=
  RegFile.get_set_same mgrReset c.regs f n h

theorem Chip.g_s_apart (c : Chip) (f g : Fld) (n : Nat) (hg : g.fits = true) (h : f.apart g = true) : (c.s f n).g g = c.g g :=
  RegFile.get_set_apart mgrReset c.regs f g n hg h

theorem Worker.g_s (w : Worker) (f : Fld) (n : Nat) (h : f.fits = true) : (w.s f n).g f = n % 2 ^ f.width :=
  RegFile.get_set_same wkrReset w.regs f n h

theorem Worker.g_s_apart (w : Worker) (f g : Fld) (n : Nat) (hg : g.fits = true) (h : f.apart g = true) : (w.s f n).g g = w.g g :=
  RegFile.get_set_apart wkrReset w.regs f g n hg h

theorem Port.g_s (p : Port) (wk : Bool) (f : Fld) (n : Nat) (h : f.fits = true) : (p.s wk f n).g wk f = n % 2 ^ f.width :=
  RegFile.get_set_same (linkReset wk) p.regs f n h

theorem Port.g_s_apart (p : Port) (wk : Bool) (f g : Fld) (n : Nat) (hg : g.fits = true) (h : f.apart g = true) :
    (p.s wk f n).g wk g = p.g wk g :=
  RegFile.get_set_apart (linkReset wk) p.regs f g n hg h

theorem Chip.b_s (c : Chip) (f : Fld) (n : Nat) (h : f.fits = true) : (c.s f n).b f = decide (n % 2 ^ f.width ≠ 0) := by
  unfold Chip.b; rw [Chip.g_s c f n h]

theorem Chip.b_s_apart (c : Chip) (f g : Fld) (n : Nat) (hg : g.fits = true) (h : f.apart g = true) : (c.s f n).b g = c.b g := by
  unfold Chip.b; rw [Chip.g_s_apart c f g n hg h]

theorem Worker.b_s (w : Worker) (f : Fld) (n : Nat) (h : f.fits = true) : (w.s f n).b f = decide (n % 2 ^ f.width ≠ 0) := by
  unfold Worker.b; rw [Worker.g_s w f n h]

theorem Worker.b_s_apart (w : Worker) (f g : Fld) (n : Nat) (hg : g.fits = true) (h : f.apart g = true) : (w.s f n).b g = w.b g := by
  unfold Worker.b; rw [Worker.g_s_apart w f g n hg h]

end Sys2Proof
end

