-- ==== Sys2Proof/Laws/State.lean ====
section
/-!
SUPPORT. Laws/State.lean: for each update of the state, the fields it leaves alone and what it makes of its own, so that no
proof unfolds a record update.
-/
namespace Sys2Proof

variable (c : Chip) (w : Worker)

@[simp] theorem Chip.s_tick (f : Fld) (n : Nat) : (c.s f n).tick = c.tick := rfl
@[simp] theorem Chip.s_freeIx (f : Fld) (n : Nat) : (c.s f n).freeIx = c.freeIx := rfl
@[simp] theorem Chip.s_workers (f : Fld) (n : Nat) : (c.s f n).workers = c.workers := rfl
@[simp] theorem Chip.s_hot (f : Fld) (n : Nat) : (c.s f n).hot = c.hot := rfl
@[simp] theorem Chip.s_ports (f : Fld) (n : Nat) : (c.s f n).ports = c.ports := rfl
@[simp] theorem Chip.s_eng (f : Fld) (n : Nat) : (c.s f n).eng = c.eng := rfl
@[simp] theorem Chip.s_pairs (f : Fld) (n : Nat) : (c.s f n).pairs = c.pairs := rfl
@[simp] theorem Chip.s_slots (f : Fld) (n : Nat) : (c.s f n).slots = c.slots := rfl
@[simp] theorem Chip.s_evt (f : Fld) (n : Nat) : (c.s f n).evt = c.evt := rfl
@[simp] theorem Chip.s_log (f : Fld) (n : Nat) : (c.s f n).log = c.log := rfl
@[simp] theorem Chip.s_mer (f : Fld) (n : Nat) : (c.s f n).mer = c.mer := rfl
@[simp] theorem Chip.s_que (f : Fld) (n : Nat) : (c.s f n).que = c.que := rfl
@[simp] theorem Chip.s_rose (f : Fld) (n : Nat) : (c.s f n).rose = c.rose := rfl
@[simp] theorem Chip.s_wake (f : Fld) (n : Nat) : (c.s f n).wake = c.wake := rfl
@[simp] theorem Chip.s_egr (f : Fld) (n : Nat) : (c.s f n).egr = c.egr := rfl
@[simp] theorem Chip.s_int (f : Fld) (n : Nat) : (c.s f n).int = c.int := rfl
@[simp] theorem Chip.s_hk (f : Fld) (n : Nat) : (c.s f n).hk = c.hk := rfl
@[simp] theorem Chip.s_nvm (f : Fld) (n : Nat) : (c.s f n).nvm = c.nvm := rfl
@[simp] theorem Chip.s_mgt (f : Fld) (n : Nat) : (c.s f n).mgt = c.mgt := rfl
@[simp] theorem Chip.s_pwr (f : Fld) (n : Nat) : (c.s f n).pwr = c.pwr := rfl
@[simp] theorem Chip.s_work (f : Fld) (n : Nat) : (c.s f n).work = c.work := rfl
@[simp] theorem Chip.s_trim (f : Fld) (n : Nat) : (c.s f n).trim = c.trim := rfl
@[simp] theorem Chip.s_bus (f : Fld) (n : Nat) : (c.s f n).bus = c.bus := rfl

@[simp] theorem Chip.sat_tick (f : Fld) (n : Nat) : (c.sat f n).tick = c.tick := rfl
@[simp] theorem Chip.sat_freeIx (f : Fld) (n : Nat) : (c.sat f n).freeIx = c.freeIx := rfl
@[simp] theorem Chip.sat_workers (f : Fld) (n : Nat) : (c.sat f n).workers = c.workers := rfl
@[simp] theorem Chip.sat_hot (f : Fld) (n : Nat) : (c.sat f n).hot = c.hot := rfl
@[simp] theorem Chip.sat_ports (f : Fld) (n : Nat) : (c.sat f n).ports = c.ports := rfl
@[simp] theorem Chip.sat_eng (f : Fld) (n : Nat) : (c.sat f n).eng = c.eng := rfl
@[simp] theorem Chip.sat_pairs (f : Fld) (n : Nat) : (c.sat f n).pairs = c.pairs := rfl
@[simp] theorem Chip.sat_slots (f : Fld) (n : Nat) : (c.sat f n).slots = c.slots := rfl
@[simp] theorem Chip.sat_evt (f : Fld) (n : Nat) : (c.sat f n).evt = c.evt := rfl
@[simp] theorem Chip.sat_log (f : Fld) (n : Nat) : (c.sat f n).log = c.log := rfl
@[simp] theorem Chip.sat_mer (f : Fld) (n : Nat) : (c.sat f n).mer = c.mer := rfl
@[simp] theorem Chip.sat_que (f : Fld) (n : Nat) : (c.sat f n).que = c.que := rfl
@[simp] theorem Chip.sat_rose (f : Fld) (n : Nat) : (c.sat f n).rose = c.rose := rfl
@[simp] theorem Chip.sat_wake (f : Fld) (n : Nat) : (c.sat f n).wake = c.wake := rfl
@[simp] theorem Chip.sat_egr (f : Fld) (n : Nat) : (c.sat f n).egr = c.egr := rfl
@[simp] theorem Chip.sat_int (f : Fld) (n : Nat) : (c.sat f n).int = c.int := rfl
@[simp] theorem Chip.sat_hk (f : Fld) (n : Nat) : (c.sat f n).hk = c.hk := rfl
@[simp] theorem Chip.sat_nvm (f : Fld) (n : Nat) : (c.sat f n).nvm = c.nvm := rfl
@[simp] theorem Chip.sat_mgt (f : Fld) (n : Nat) : (c.sat f n).mgt = c.mgt := rfl
@[simp] theorem Chip.sat_pwr (f : Fld) (n : Nat) : (c.sat f n).pwr = c.pwr := rfl
@[simp] theorem Chip.sat_work (f : Fld) (n : Nat) : (c.sat f n).work = c.work := rfl
@[simp] theorem Chip.sat_trim (f : Fld) (n : Nat) : (c.sat f n).trim = c.trim := rfl
@[simp] theorem Chip.sat_bus (f : Fld) (n : Nat) : (c.sat f n).bus = c.bus := rfl

@[simp] theorem Chip.wrap_tick (f : Fld) (n : Nat) : (c.wrap f n).tick = c.tick := rfl
@[simp] theorem Chip.wrap_freeIx (f : Fld) (n : Nat) : (c.wrap f n).freeIx = c.freeIx := rfl
@[simp] theorem Chip.wrap_workers (f : Fld) (n : Nat) : (c.wrap f n).workers = c.workers := rfl
@[simp] theorem Chip.wrap_hot (f : Fld) (n : Nat) : (c.wrap f n).hot = c.hot := rfl
@[simp] theorem Chip.wrap_ports (f : Fld) (n : Nat) : (c.wrap f n).ports = c.ports := rfl
@[simp] theorem Chip.wrap_eng (f : Fld) (n : Nat) : (c.wrap f n).eng = c.eng := rfl
@[simp] theorem Chip.wrap_pairs (f : Fld) (n : Nat) : (c.wrap f n).pairs = c.pairs := rfl
@[simp] theorem Chip.wrap_slots (f : Fld) (n : Nat) : (c.wrap f n).slots = c.slots := rfl
@[simp] theorem Chip.wrap_evt (f : Fld) (n : Nat) : (c.wrap f n).evt = c.evt := rfl
@[simp] theorem Chip.wrap_log (f : Fld) (n : Nat) : (c.wrap f n).log = c.log := rfl
@[simp] theorem Chip.wrap_mer (f : Fld) (n : Nat) : (c.wrap f n).mer = c.mer := rfl
@[simp] theorem Chip.wrap_que (f : Fld) (n : Nat) : (c.wrap f n).que = c.que := rfl
@[simp] theorem Chip.wrap_rose (f : Fld) (n : Nat) : (c.wrap f n).rose = c.rose := rfl
@[simp] theorem Chip.wrap_wake (f : Fld) (n : Nat) : (c.wrap f n).wake = c.wake := rfl
@[simp] theorem Chip.wrap_egr (f : Fld) (n : Nat) : (c.wrap f n).egr = c.egr := rfl
@[simp] theorem Chip.wrap_int (f : Fld) (n : Nat) : (c.wrap f n).int = c.int := rfl
@[simp] theorem Chip.wrap_hk (f : Fld) (n : Nat) : (c.wrap f n).hk = c.hk := rfl
@[simp] theorem Chip.wrap_nvm (f : Fld) (n : Nat) : (c.wrap f n).nvm = c.nvm := rfl
@[simp] theorem Chip.wrap_mgt (f : Fld) (n : Nat) : (c.wrap f n).mgt = c.mgt := rfl
@[simp] theorem Chip.wrap_pwr (f : Fld) (n : Nat) : (c.wrap f n).pwr = c.pwr := rfl
@[simp] theorem Chip.wrap_work (f : Fld) (n : Nat) : (c.wrap f n).work = c.work := rfl
@[simp] theorem Chip.wrap_trim (f : Fld) (n : Nat) : (c.wrap f n).trim = c.trim := rfl
@[simp] theorem Chip.wrap_bus (f : Fld) (n : Nat) : (c.wrap f n).bus = c.bus := rfl

@[simp] theorem Chip.setWord_tick (a : Nat) (v : Word) : (c.setWord a v).tick = c.tick := rfl
@[simp] theorem Chip.setWord_freeIx (a : Nat) (v : Word) : (c.setWord a v).freeIx = c.freeIx := rfl
@[simp] theorem Chip.setWord_workers (a : Nat) (v : Word) : (c.setWord a v).workers = c.workers := rfl
@[simp] theorem Chip.setWord_hot (a : Nat) (v : Word) : (c.setWord a v).hot = c.hot := rfl
@[simp] theorem Chip.setWord_ports (a : Nat) (v : Word) : (c.setWord a v).ports = c.ports := rfl
@[simp] theorem Chip.setWord_eng (a : Nat) (v : Word) : (c.setWord a v).eng = c.eng := rfl
@[simp] theorem Chip.setWord_pairs (a : Nat) (v : Word) : (c.setWord a v).pairs = c.pairs := rfl
@[simp] theorem Chip.setWord_slots (a : Nat) (v : Word) : (c.setWord a v).slots = c.slots := rfl
@[simp] theorem Chip.setWord_evt (a : Nat) (v : Word) : (c.setWord a v).evt = c.evt := rfl
@[simp] theorem Chip.setWord_log (a : Nat) (v : Word) : (c.setWord a v).log = c.log := rfl
@[simp] theorem Chip.setWord_mer (a : Nat) (v : Word) : (c.setWord a v).mer = c.mer := rfl
@[simp] theorem Chip.setWord_que (a : Nat) (v : Word) : (c.setWord a v).que = c.que := rfl
@[simp] theorem Chip.setWord_rose (a : Nat) (v : Word) : (c.setWord a v).rose = c.rose := rfl
@[simp] theorem Chip.setWord_wake (a : Nat) (v : Word) : (c.setWord a v).wake = c.wake := rfl
@[simp] theorem Chip.setWord_egr (a : Nat) (v : Word) : (c.setWord a v).egr = c.egr := rfl
@[simp] theorem Chip.setWord_int (a : Nat) (v : Word) : (c.setWord a v).int = c.int := rfl
@[simp] theorem Chip.setWord_hk (a : Nat) (v : Word) : (c.setWord a v).hk = c.hk := rfl
@[simp] theorem Chip.setWord_nvm (a : Nat) (v : Word) : (c.setWord a v).nvm = c.nvm := rfl
@[simp] theorem Chip.setWord_mgt (a : Nat) (v : Word) : (c.setWord a v).mgt = c.mgt := rfl
@[simp] theorem Chip.setWord_pwr (a : Nat) (v : Word) : (c.setWord a v).pwr = c.pwr := rfl
@[simp] theorem Chip.setWord_work (a : Nat) (v : Word) : (c.setWord a v).work = c.work := rfl
@[simp] theorem Chip.setWord_trim (a : Nat) (v : Word) : (c.setWord a v).trim = c.trim := rfl
@[simp] theorem Chip.setWord_bus (a : Nat) (v : Word) : (c.setWord a v).bus = c.bus := rfl

@[simp] theorem Chip.ss_tick (f : Fld) (k n : Nat) : (c.ss f k n).tick = c.tick := rfl
@[simp] theorem Chip.ss_freeIx (f : Fld) (k n : Nat) : (c.ss f k n).freeIx = c.freeIx := rfl
@[simp] theorem Chip.ss_workers (f : Fld) (k n : Nat) : (c.ss f k n).workers = c.workers := rfl
@[simp] theorem Chip.ss_hot (f : Fld) (k n : Nat) : (c.ss f k n).hot = c.hot := rfl
@[simp] theorem Chip.ss_ports (f : Fld) (k n : Nat) : (c.ss f k n).ports = c.ports := rfl
@[simp] theorem Chip.ss_eng (f : Fld) (k n : Nat) : (c.ss f k n).eng = c.eng := rfl
@[simp] theorem Chip.ss_pairs (f : Fld) (k n : Nat) : (c.ss f k n).pairs = c.pairs := rfl
@[simp] theorem Chip.ss_slots (f : Fld) (k n : Nat) : (c.ss f k n).slots = c.slots := rfl
@[simp] theorem Chip.ss_evt (f : Fld) (k n : Nat) : (c.ss f k n).evt = c.evt := rfl
@[simp] theorem Chip.ss_log (f : Fld) (k n : Nat) : (c.ss f k n).log = c.log := rfl
@[simp] theorem Chip.ss_mer (f : Fld) (k n : Nat) : (c.ss f k n).mer = c.mer := rfl
@[simp] theorem Chip.ss_que (f : Fld) (k n : Nat) : (c.ss f k n).que = c.que := rfl
@[simp] theorem Chip.ss_rose (f : Fld) (k n : Nat) : (c.ss f k n).rose = c.rose := rfl
@[simp] theorem Chip.ss_wake (f : Fld) (k n : Nat) : (c.ss f k n).wake = c.wake := rfl
@[simp] theorem Chip.ss_egr (f : Fld) (k n : Nat) : (c.ss f k n).egr = c.egr := rfl
@[simp] theorem Chip.ss_int (f : Fld) (k n : Nat) : (c.ss f k n).int = c.int := rfl
@[simp] theorem Chip.ss_hk (f : Fld) (k n : Nat) : (c.ss f k n).hk = c.hk := rfl
@[simp] theorem Chip.ss_nvm (f : Fld) (k n : Nat) : (c.ss f k n).nvm = c.nvm := rfl
@[simp] theorem Chip.ss_mgt (f : Fld) (k n : Nat) : (c.ss f k n).mgt = c.mgt := rfl
@[simp] theorem Chip.ss_pwr (f : Fld) (k n : Nat) : (c.ss f k n).pwr = c.pwr := rfl
@[simp] theorem Chip.ss_work (f : Fld) (k n : Nat) : (c.ss f k n).work = c.work := rfl
@[simp] theorem Chip.ss_trim (f : Fld) (k n : Nat) : (c.ss f k n).trim = c.trim := rfl
@[simp] theorem Chip.ss_bus (f : Fld) (k n : Nat) : (c.ss f k n).bus = c.bus := rfl

@[simp] theorem Chip.setPort_tick (p : Nat) (x : Port) : (c.setPort p x).tick = c.tick := rfl
@[simp] theorem Chip.setPort_freeIx (p : Nat) (x : Port) : (c.setPort p x).freeIx = c.freeIx := rfl
@[simp] theorem Chip.setPort_workers (p : Nat) (x : Port) : (c.setPort p x).workers = c.workers := rfl
@[simp] theorem Chip.setPort_regs (p : Nat) (x : Port) : (c.setPort p x).regs = c.regs := rfl
@[simp] theorem Chip.setPort_hot (p : Nat) (x : Port) : (c.setPort p x).hot = c.hot := rfl
@[simp] theorem Chip.setPort_eng (p : Nat) (x : Port) : (c.setPort p x).eng = c.eng := rfl
@[simp] theorem Chip.setPort_pairs (p : Nat) (x : Port) : (c.setPort p x).pairs = c.pairs := rfl
@[simp] theorem Chip.setPort_slots (p : Nat) (x : Port) : (c.setPort p x).slots = c.slots := rfl
@[simp] theorem Chip.setPort_evt (p : Nat) (x : Port) : (c.setPort p x).evt = c.evt := rfl
@[simp] theorem Chip.setPort_log (p : Nat) (x : Port) : (c.setPort p x).log = c.log := rfl
@[simp] theorem Chip.setPort_mer (p : Nat) (x : Port) : (c.setPort p x).mer = c.mer := rfl
@[simp] theorem Chip.setPort_que (p : Nat) (x : Port) : (c.setPort p x).que = c.que := rfl
@[simp] theorem Chip.setPort_rose (p : Nat) (x : Port) : (c.setPort p x).rose = c.rose := rfl
@[simp] theorem Chip.setPort_wake (p : Nat) (x : Port) : (c.setPort p x).wake = c.wake := rfl
@[simp] theorem Chip.setPort_egr (p : Nat) (x : Port) : (c.setPort p x).egr = c.egr := rfl
@[simp] theorem Chip.setPort_int (p : Nat) (x : Port) : (c.setPort p x).int = c.int := rfl
@[simp] theorem Chip.setPort_hk (p : Nat) (x : Port) : (c.setPort p x).hk = c.hk := rfl
@[simp] theorem Chip.setPort_nvm (p : Nat) (x : Port) : (c.setPort p x).nvm = c.nvm := rfl
@[simp] theorem Chip.setPort_mgt (p : Nat) (x : Port) : (c.setPort p x).mgt = c.mgt := rfl
@[simp] theorem Chip.setPort_pwr (p : Nat) (x : Port) : (c.setPort p x).pwr = c.pwr := rfl
@[simp] theorem Chip.setPort_work (p : Nat) (x : Port) : (c.setPort p x).work = c.work := rfl
@[simp] theorem Chip.setPort_trim (p : Nat) (x : Port) : (c.setPort p x).trim = c.trim := rfl
@[simp] theorem Chip.setPort_bus (p : Nat) (x : Port) : (c.setPort p x).bus = c.bus := rfl

@[simp] theorem Chip.setEngine_tick (p : Nat) (x : Engine) : (c.setEngine p x).tick = c.tick := rfl
@[simp] theorem Chip.setEngine_freeIx (p : Nat) (x : Engine) : (c.setEngine p x).freeIx = c.freeIx := rfl
@[simp] theorem Chip.setEngine_workers (p : Nat) (x : Engine) : (c.setEngine p x).workers = c.workers := rfl
@[simp] theorem Chip.setEngine_regs (p : Nat) (x : Engine) : (c.setEngine p x).regs = c.regs := rfl
@[simp] theorem Chip.setEngine_hot (p : Nat) (x : Engine) : (c.setEngine p x).hot = c.hot := rfl
@[simp] theorem Chip.setEngine_ports (p : Nat) (x : Engine) : (c.setEngine p x).ports = c.ports := rfl
@[simp] theorem Chip.setEngine_pairs (p : Nat) (x : Engine) : (c.setEngine p x).pairs = c.pairs := rfl
@[simp] theorem Chip.setEngine_slots (p : Nat) (x : Engine) : (c.setEngine p x).slots = c.slots := rfl
@[simp] theorem Chip.setEngine_evt (p : Nat) (x : Engine) : (c.setEngine p x).evt = c.evt := rfl
@[simp] theorem Chip.setEngine_log (p : Nat) (x : Engine) : (c.setEngine p x).log = c.log := rfl
@[simp] theorem Chip.setEngine_mer (p : Nat) (x : Engine) : (c.setEngine p x).mer = c.mer := rfl
@[simp] theorem Chip.setEngine_que (p : Nat) (x : Engine) : (c.setEngine p x).que = c.que := rfl
@[simp] theorem Chip.setEngine_rose (p : Nat) (x : Engine) : (c.setEngine p x).rose = c.rose := rfl
@[simp] theorem Chip.setEngine_wake (p : Nat) (x : Engine) : (c.setEngine p x).wake = c.wake := rfl
@[simp] theorem Chip.setEngine_egr (p : Nat) (x : Engine) : (c.setEngine p x).egr = c.egr := rfl
@[simp] theorem Chip.setEngine_int (p : Nat) (x : Engine) : (c.setEngine p x).int = c.int := rfl
@[simp] theorem Chip.setEngine_hk (p : Nat) (x : Engine) : (c.setEngine p x).hk = c.hk := rfl
@[simp] theorem Chip.setEngine_nvm (p : Nat) (x : Engine) : (c.setEngine p x).nvm = c.nvm := rfl
@[simp] theorem Chip.setEngine_mgt (p : Nat) (x : Engine) : (c.setEngine p x).mgt = c.mgt := rfl
@[simp] theorem Chip.setEngine_pwr (p : Nat) (x : Engine) : (c.setEngine p x).pwr = c.pwr := rfl
@[simp] theorem Chip.setEngine_work (p : Nat) (x : Engine) : (c.setEngine p x).work = c.work := rfl
@[simp] theorem Chip.setEngine_trim (p : Nat) (x : Engine) : (c.setEngine p x).trim = c.trim := rfl
@[simp] theorem Chip.setEngine_bus (p : Nat) (x : Engine) : (c.setEngine p x).bus = c.bus := rfl

@[simp] theorem Chip.setPair_tick (n : Nat) (x : Pair) : (c.setPair n x).tick = c.tick := rfl
@[simp] theorem Chip.setPair_freeIx (n : Nat) (x : Pair) : (c.setPair n x).freeIx = c.freeIx := rfl
@[simp] theorem Chip.setPair_workers (n : Nat) (x : Pair) : (c.setPair n x).workers = c.workers := rfl
@[simp] theorem Chip.setPair_regs (n : Nat) (x : Pair) : (c.setPair n x).regs = c.regs := rfl
@[simp] theorem Chip.setPair_hot (n : Nat) (x : Pair) : (c.setPair n x).hot = c.hot := rfl
@[simp] theorem Chip.setPair_ports (n : Nat) (x : Pair) : (c.setPair n x).ports = c.ports := rfl
@[simp] theorem Chip.setPair_eng (n : Nat) (x : Pair) : (c.setPair n x).eng = c.eng := rfl
@[simp] theorem Chip.setPair_slots (n : Nat) (x : Pair) : (c.setPair n x).slots = c.slots := rfl
@[simp] theorem Chip.setPair_evt (n : Nat) (x : Pair) : (c.setPair n x).evt = c.evt := rfl
@[simp] theorem Chip.setPair_log (n : Nat) (x : Pair) : (c.setPair n x).log = c.log := rfl
@[simp] theorem Chip.setPair_mer (n : Nat) (x : Pair) : (c.setPair n x).mer = c.mer := rfl
@[simp] theorem Chip.setPair_que (n : Nat) (x : Pair) : (c.setPair n x).que = c.que := rfl
@[simp] theorem Chip.setPair_rose (n : Nat) (x : Pair) : (c.setPair n x).rose = c.rose := rfl
@[simp] theorem Chip.setPair_wake (n : Nat) (x : Pair) : (c.setPair n x).wake = c.wake := rfl
@[simp] theorem Chip.setPair_egr (n : Nat) (x : Pair) : (c.setPair n x).egr = c.egr := rfl
@[simp] theorem Chip.setPair_int (n : Nat) (x : Pair) : (c.setPair n x).int = c.int := rfl
@[simp] theorem Chip.setPair_hk (n : Nat) (x : Pair) : (c.setPair n x).hk = c.hk := rfl
@[simp] theorem Chip.setPair_nvm (n : Nat) (x : Pair) : (c.setPair n x).nvm = c.nvm := rfl
@[simp] theorem Chip.setPair_mgt (n : Nat) (x : Pair) : (c.setPair n x).mgt = c.mgt := rfl
@[simp] theorem Chip.setPair_pwr (n : Nat) (x : Pair) : (c.setPair n x).pwr = c.pwr := rfl
@[simp] theorem Chip.setPair_work (n : Nat) (x : Pair) : (c.setPair n x).work = c.work := rfl
@[simp] theorem Chip.setPair_trim (n : Nat) (x : Pair) : (c.setPair n x).trim = c.trim := rfl
@[simp] theorem Chip.setPair_bus (n : Nat) (x : Pair) : (c.setPair n x).bus = c.bus := rfl

@[simp] theorem Chip.modPair_tick (n : Nat) (f : Pair → Pair) : (c.modPair n f).tick = c.tick := rfl
@[simp] theorem Chip.modPair_freeIx (n : Nat) (f : Pair → Pair) : (c.modPair n f).freeIx = c.freeIx := rfl
@[simp] theorem Chip.modPair_workers (n : Nat) (f : Pair → Pair) : (c.modPair n f).workers = c.workers := rfl
@[simp] theorem Chip.modPair_regs (n : Nat) (f : Pair → Pair) : (c.modPair n f).regs = c.regs := rfl
@[simp] theorem Chip.modPair_hot (n : Nat) (f : Pair → Pair) : (c.modPair n f).hot = c.hot := rfl
@[simp] theorem Chip.modPair_ports (n : Nat) (f : Pair → Pair) : (c.modPair n f).ports = c.ports := rfl
@[simp] theorem Chip.modPair_eng (n : Nat) (f : Pair → Pair) : (c.modPair n f).eng = c.eng := rfl
@[simp] theorem Chip.modPair_slots (n : Nat) (f : Pair → Pair) : (c.modPair n f).slots = c.slots := rfl
@[simp] theorem Chip.modPair_evt (n : Nat) (f : Pair → Pair) : (c.modPair n f).evt = c.evt := rfl
@[simp] theorem Chip.modPair_log (n : Nat) (f : Pair → Pair) : (c.modPair n f).log = c.log := rfl
@[simp] theorem Chip.modPair_mer (n : Nat) (f : Pair → Pair) : (c.modPair n f).mer = c.mer := rfl
@[simp] theorem Chip.modPair_que (n : Nat) (f : Pair → Pair) : (c.modPair n f).que = c.que := rfl
@[simp] theorem Chip.modPair_rose (n : Nat) (f : Pair → Pair) : (c.modPair n f).rose = c.rose := rfl
@[simp] theorem Chip.modPair_wake (n : Nat) (f : Pair → Pair) : (c.modPair n f).wake = c.wake := rfl
@[simp] theorem Chip.modPair_egr (n : Nat) (f : Pair → Pair) : (c.modPair n f).egr = c.egr := rfl
@[simp] theorem Chip.modPair_int (n : Nat) (f : Pair → Pair) : (c.modPair n f).int = c.int := rfl
@[simp] theorem Chip.modPair_hk (n : Nat) (f : Pair → Pair) : (c.modPair n f).hk = c.hk := rfl
@[simp] theorem Chip.modPair_nvm (n : Nat) (f : Pair → Pair) : (c.modPair n f).nvm = c.nvm := rfl
@[simp] theorem Chip.modPair_mgt (n : Nat) (f : Pair → Pair) : (c.modPair n f).mgt = c.mgt := rfl
@[simp] theorem Chip.modPair_pwr (n : Nat) (f : Pair → Pair) : (c.modPair n f).pwr = c.pwr := rfl
@[simp] theorem Chip.modPair_work (n : Nat) (f : Pair → Pair) : (c.modPair n f).work = c.work := rfl
@[simp] theorem Chip.modPair_trim (n : Nat) (f : Pair → Pair) : (c.modPair n f).trim = c.trim := rfl
@[simp] theorem Chip.modPair_bus (n : Nat) (f : Pair → Pair) : (c.modPair n f).bus = c.bus := rfl

@[simp] theorem Chip.setSlot_tick (k : Nat) (x : SlotX) : (c.setSlot k x).tick = c.tick := rfl
@[simp] theorem Chip.setSlot_freeIx (k : Nat) (x : SlotX) : (c.setSlot k x).freeIx = c.freeIx := rfl
@[simp] theorem Chip.setSlot_workers (k : Nat) (x : SlotX) : (c.setSlot k x).workers = c.workers := rfl
@[simp] theorem Chip.setSlot_regs (k : Nat) (x : SlotX) : (c.setSlot k x).regs = c.regs := rfl
@[simp] theorem Chip.setSlot_hot (k : Nat) (x : SlotX) : (c.setSlot k x).hot = c.hot := rfl
@[simp] theorem Chip.setSlot_ports (k : Nat) (x : SlotX) : (c.setSlot k x).ports = c.ports := rfl
@[simp] theorem Chip.setSlot_eng (k : Nat) (x : SlotX) : (c.setSlot k x).eng = c.eng := rfl
@[simp] theorem Chip.setSlot_pairs (k : Nat) (x : SlotX) : (c.setSlot k x).pairs = c.pairs := rfl
@[simp] theorem Chip.setSlot_evt (k : Nat) (x : SlotX) : (c.setSlot k x).evt = c.evt := rfl
@[simp] theorem Chip.setSlot_log (k : Nat) (x : SlotX) : (c.setSlot k x).log = c.log := rfl
@[simp] theorem Chip.setSlot_mer (k : Nat) (x : SlotX) : (c.setSlot k x).mer = c.mer := rfl
@[simp] theorem Chip.setSlot_que (k : Nat) (x : SlotX) : (c.setSlot k x).que = c.que := rfl
@[simp] theorem Chip.setSlot_rose (k : Nat) (x : SlotX) : (c.setSlot k x).rose = c.rose := rfl
@[simp] theorem Chip.setSlot_wake (k : Nat) (x : SlotX) : (c.setSlot k x).wake = c.wake := rfl
@[simp] theorem Chip.setSlot_egr (k : Nat) (x : SlotX) : (c.setSlot k x).egr = c.egr := rfl
@[simp] theorem Chip.setSlot_int (k : Nat) (x : SlotX) : (c.setSlot k x).int = c.int := rfl
@[simp] theorem Chip.setSlot_hk (k : Nat) (x : SlotX) : (c.setSlot k x).hk = c.hk := rfl
@[simp] theorem Chip.setSlot_nvm (k : Nat) (x : SlotX) : (c.setSlot k x).nvm = c.nvm := rfl
@[simp] theorem Chip.setSlot_mgt (k : Nat) (x : SlotX) : (c.setSlot k x).mgt = c.mgt := rfl
@[simp] theorem Chip.setSlot_pwr (k : Nat) (x : SlotX) : (c.setSlot k x).pwr = c.pwr := rfl
@[simp] theorem Chip.setSlot_work (k : Nat) (x : SlotX) : (c.setSlot k x).work = c.work := rfl
@[simp] theorem Chip.setSlot_trim (k : Nat) (x : SlotX) : (c.setSlot k x).trim = c.trim := rfl
@[simp] theorem Chip.setSlot_bus (k : Nat) (x : SlotX) : (c.setSlot k x).bus = c.bus := rfl

@[simp] theorem Chip.modSlot_tick (k : Nat) (f : SlotX → SlotX) : (c.modSlot k f).tick = c.tick := rfl
@[simp] theorem Chip.modSlot_freeIx (k : Nat) (f : SlotX → SlotX) : (c.modSlot k f).freeIx = c.freeIx := rfl
@[simp] theorem Chip.modSlot_workers (k : Nat) (f : SlotX → SlotX) : (c.modSlot k f).workers = c.workers := rfl
@[simp] theorem Chip.modSlot_regs (k : Nat) (f : SlotX → SlotX) : (c.modSlot k f).regs = c.regs := rfl
@[simp] theorem Chip.modSlot_hot (k : Nat) (f : SlotX → SlotX) : (c.modSlot k f).hot = c.hot := rfl
@[simp] theorem Chip.modSlot_ports (k : Nat) (f : SlotX → SlotX) : (c.modSlot k f).ports = c.ports := rfl
@[simp] theorem Chip.modSlot_eng (k : Nat) (f : SlotX → SlotX) : (c.modSlot k f).eng = c.eng := rfl
@[simp] theorem Chip.modSlot_pairs (k : Nat) (f : SlotX → SlotX) : (c.modSlot k f).pairs = c.pairs := rfl
@[simp] theorem Chip.modSlot_evt (k : Nat) (f : SlotX → SlotX) : (c.modSlot k f).evt = c.evt := rfl
@[simp] theorem Chip.modSlot_log (k : Nat) (f : SlotX → SlotX) : (c.modSlot k f).log = c.log := rfl
@[simp] theorem Chip.modSlot_mer (k : Nat) (f : SlotX → SlotX) : (c.modSlot k f).mer = c.mer := rfl
@[simp] theorem Chip.modSlot_que (k : Nat) (f : SlotX → SlotX) : (c.modSlot k f).que = c.que := rfl
@[simp] theorem Chip.modSlot_rose (k : Nat) (f : SlotX → SlotX) : (c.modSlot k f).rose = c.rose := rfl
@[simp] theorem Chip.modSlot_wake (k : Nat) (f : SlotX → SlotX) : (c.modSlot k f).wake = c.wake := rfl
@[simp] theorem Chip.modSlot_egr (k : Nat) (f : SlotX → SlotX) : (c.modSlot k f).egr = c.egr := rfl
@[simp] theorem Chip.modSlot_int (k : Nat) (f : SlotX → SlotX) : (c.modSlot k f).int = c.int := rfl
@[simp] theorem Chip.modSlot_hk (k : Nat) (f : SlotX → SlotX) : (c.modSlot k f).hk = c.hk := rfl
@[simp] theorem Chip.modSlot_nvm (k : Nat) (f : SlotX → SlotX) : (c.modSlot k f).nvm = c.nvm := rfl
@[simp] theorem Chip.modSlot_mgt (k : Nat) (f : SlotX → SlotX) : (c.modSlot k f).mgt = c.mgt := rfl
@[simp] theorem Chip.modSlot_pwr (k : Nat) (f : SlotX → SlotX) : (c.modSlot k f).pwr = c.pwr := rfl
@[simp] theorem Chip.modSlot_work (k : Nat) (f : SlotX → SlotX) : (c.modSlot k f).work = c.work := rfl
@[simp] theorem Chip.modSlot_trim (k : Nat) (f : SlotX → SlotX) : (c.modSlot k f).trim = c.trim := rfl
@[simp] theorem Chip.modSlot_bus (k : Nat) (f : SlotX → SlotX) : (c.modSlot k f).bus = c.bus := rfl

@[simp] theorem Chip.modMer_tick (f : Mer → Mer) : (c.modMer f).tick = c.tick := rfl
@[simp] theorem Chip.modMer_freeIx (f : Mer → Mer) : (c.modMer f).freeIx = c.freeIx := rfl
@[simp] theorem Chip.modMer_workers (f : Mer → Mer) : (c.modMer f).workers = c.workers := rfl
@[simp] theorem Chip.modMer_regs (f : Mer → Mer) : (c.modMer f).regs = c.regs := rfl
@[simp] theorem Chip.modMer_hot (f : Mer → Mer) : (c.modMer f).hot = c.hot := rfl
@[simp] theorem Chip.modMer_ports (f : Mer → Mer) : (c.modMer f).ports = c.ports := rfl
@[simp] theorem Chip.modMer_eng (f : Mer → Mer) : (c.modMer f).eng = c.eng := rfl
@[simp] theorem Chip.modMer_pairs (f : Mer → Mer) : (c.modMer f).pairs = c.pairs := rfl
@[simp] theorem Chip.modMer_slots (f : Mer → Mer) : (c.modMer f).slots = c.slots := rfl
@[simp] theorem Chip.modMer_evt (f : Mer → Mer) : (c.modMer f).evt = c.evt := rfl
@[simp] theorem Chip.modMer_log (f : Mer → Mer) : (c.modMer f).log = c.log := rfl
@[simp] theorem Chip.modMer_que (f : Mer → Mer) : (c.modMer f).que = c.que := rfl
@[simp] theorem Chip.modMer_rose (f : Mer → Mer) : (c.modMer f).rose = c.rose := rfl
@[simp] theorem Chip.modMer_wake (f : Mer → Mer) : (c.modMer f).wake = c.wake := rfl
@[simp] theorem Chip.modMer_egr (f : Mer → Mer) : (c.modMer f).egr = c.egr := rfl
@[simp] theorem Chip.modMer_int (f : Mer → Mer) : (c.modMer f).int = c.int := rfl
@[simp] theorem Chip.modMer_hk (f : Mer → Mer) : (c.modMer f).hk = c.hk := rfl
@[simp] theorem Chip.modMer_nvm (f : Mer → Mer) : (c.modMer f).nvm = c.nvm := rfl
@[simp] theorem Chip.modMer_mgt (f : Mer → Mer) : (c.modMer f).mgt = c.mgt := rfl
@[simp] theorem Chip.modMer_pwr (f : Mer → Mer) : (c.modMer f).pwr = c.pwr := rfl
@[simp] theorem Chip.modMer_work (f : Mer → Mer) : (c.modMer f).work = c.work := rfl
@[simp] theorem Chip.modMer_trim (f : Mer → Mer) : (c.modMer f).trim = c.trim := rfl
@[simp] theorem Chip.modMer_bus (f : Mer → Mer) : (c.modMer f).bus = c.bus := rfl

@[simp] theorem Chip.setWorker_tick (k : Nat) (w : Worker) : (c.setWorker k w).tick = c.tick := rfl
@[simp] theorem Chip.setWorker_freeIx (k : Nat) (w : Worker) : (c.setWorker k w).freeIx = c.freeIx := rfl
@[simp] theorem Chip.setWorker_regs (k : Nat) (w : Worker) : (c.setWorker k w).regs = c.regs := rfl
@[simp] theorem Chip.setWorker_hot (k : Nat) (w : Worker) : (c.setWorker k w).hot = c.hot := rfl
@[simp] theorem Chip.setWorker_ports (k : Nat) (w : Worker) : (c.setWorker k w).ports = c.ports := rfl
@[simp] theorem Chip.setWorker_eng (k : Nat) (w : Worker) : (c.setWorker k w).eng = c.eng := rfl
@[simp] theorem Chip.setWorker_pairs (k : Nat) (w : Worker) : (c.setWorker k w).pairs = c.pairs := rfl
@[simp] theorem Chip.setWorker_slots (k : Nat) (w : Worker) : (c.setWorker k w).slots = c.slots := rfl
@[simp] theorem Chip.setWorker_evt (k : Nat) (w : Worker) : (c.setWorker k w).evt = c.evt := rfl
@[simp] theorem Chip.setWorker_log (k : Nat) (w : Worker) : (c.setWorker k w).log = c.log := rfl
@[simp] theorem Chip.setWorker_mer (k : Nat) (w : Worker) : (c.setWorker k w).mer = c.mer := rfl
@[simp] theorem Chip.setWorker_que (k : Nat) (w : Worker) : (c.setWorker k w).que = c.que := rfl
@[simp] theorem Chip.setWorker_rose (k : Nat) (w : Worker) : (c.setWorker k w).rose = c.rose := rfl
@[simp] theorem Chip.setWorker_wake (k : Nat) (w : Worker) : (c.setWorker k w).wake = c.wake := rfl
@[simp] theorem Chip.setWorker_egr (k : Nat) (w : Worker) : (c.setWorker k w).egr = c.egr := rfl
@[simp] theorem Chip.setWorker_int (k : Nat) (w : Worker) : (c.setWorker k w).int = c.int := rfl
@[simp] theorem Chip.setWorker_hk (k : Nat) (w : Worker) : (c.setWorker k w).hk = c.hk := rfl
@[simp] theorem Chip.setWorker_nvm (k : Nat) (w : Worker) : (c.setWorker k w).nvm = c.nvm := rfl
@[simp] theorem Chip.setWorker_mgt (k : Nat) (w : Worker) : (c.setWorker k w).mgt = c.mgt := rfl
@[simp] theorem Chip.setWorker_pwr (k : Nat) (w : Worker) : (c.setWorker k w).pwr = c.pwr := rfl
@[simp] theorem Chip.setWorker_work (k : Nat) (w : Worker) : (c.setWorker k w).work = c.work := rfl
@[simp] theorem Chip.setWorker_trim (k : Nat) (w : Worker) : (c.setWorker k w).trim = c.trim := rfl
@[simp] theorem Chip.setWorker_bus (k : Nat) (w : Worker) : (c.setWorker k w).bus = c.bus := rfl

@[simp] theorem Chip.latch_tick (f : Fld) : (c.latch f).tick = c.tick := rfl
@[simp] theorem Chip.latch_freeIx (f : Fld) : (c.latch f).freeIx = c.freeIx := rfl
@[simp] theorem Chip.latch_workers (f : Fld) : (c.latch f).workers = c.workers := rfl
@[simp] theorem Chip.latch_ports (f : Fld) : (c.latch f).ports = c.ports := rfl
@[simp] theorem Chip.latch_eng (f : Fld) : (c.latch f).eng = c.eng := rfl
@[simp] theorem Chip.latch_pairs (f : Fld) : (c.latch f).pairs = c.pairs := rfl
@[simp] theorem Chip.latch_slots (f : Fld) : (c.latch f).slots = c.slots := rfl
@[simp] theorem Chip.latch_evt (f : Fld) : (c.latch f).evt = c.evt := rfl
@[simp] theorem Chip.latch_log (f : Fld) : (c.latch f).log = c.log := rfl
@[simp] theorem Chip.latch_mer (f : Fld) : (c.latch f).mer = c.mer := rfl
@[simp] theorem Chip.latch_que (f : Fld) : (c.latch f).que = c.que := rfl
@[simp] theorem Chip.latch_rose (f : Fld) : (c.latch f).rose = c.rose := rfl
@[simp] theorem Chip.latch_wake (f : Fld) : (c.latch f).wake = c.wake := rfl
@[simp] theorem Chip.latch_egr (f : Fld) : (c.latch f).egr = c.egr := rfl
@[simp] theorem Chip.latch_int (f : Fld) : (c.latch f).int = c.int := rfl
@[simp] theorem Chip.latch_hk (f : Fld) : (c.latch f).hk = c.hk := rfl
@[simp] theorem Chip.latch_nvm (f : Fld) : (c.latch f).nvm = c.nvm := rfl
@[simp] theorem Chip.latch_mgt (f : Fld) : (c.latch f).mgt = c.mgt := rfl
@[simp] theorem Chip.latch_pwr (f : Fld) : (c.latch f).pwr = c.pwr := rfl
@[simp] theorem Chip.latch_work (f : Fld) : (c.latch f).work = c.work := rfl
@[simp] theorem Chip.latch_trim (f : Fld) : (c.latch f).trim = c.trim := rfl
@[simp] theorem Chip.latch_bus (f : Fld) : (c.latch f).bus = c.bus := rfl
@[simp] theorem Chip.latch_regs (f : Fld) : (c.latch f).regs = RegFile.set mgrReset c.regs f 1 := rfl

/-- An event changes the registers and the event block alone (R456, R470). -/
theorem Chip.event_frame (e d : Nat) :
    c.event e d = { c with regs := (c.event e d).regs, hot := (c.event e d).hot, evt := (c.event e d).evt } := by
  simp only [Chip.event, Chip.latch, Chip.s, Chip.sat]

/-- So does a flag set with its event (R479). -/
theorem Chip.flag_frame (f : Fld) (e d : Nat) :
    c.flag f e d = { c with regs := (c.flag f e d).regs, hot := (c.flag f e d).hot, evt := (c.flag f e d).evt } := by
  unfold Chip.flag; rw [Chip.event_frame]; rfl

@[simp] theorem Chip.event_tick (e d : Nat) : (c.event e d).tick = c.tick := by rw [Chip.event_frame]
@[simp] theorem Chip.event_freeIx (e d : Nat) : (c.event e d).freeIx = c.freeIx := by rw [Chip.event_frame]
@[simp] theorem Chip.event_workers (e d : Nat) : (c.event e d).workers = c.workers := by rw [Chip.event_frame]
@[simp] theorem Chip.event_ports (e d : Nat) : (c.event e d).ports = c.ports := by rw [Chip.event_frame]
@[simp] theorem Chip.event_eng (e d : Nat) : (c.event e d).eng = c.eng := by rw [Chip.event_frame]
@[simp] theorem Chip.event_pairs (e d : Nat) : (c.event e d).pairs = c.pairs := by rw [Chip.event_frame]
@[simp] theorem Chip.event_slots (e d : Nat) : (c.event e d).slots = c.slots := by rw [Chip.event_frame]
@[simp] theorem Chip.event_log (e d : Nat) : (c.event e d).log = c.log := by rw [Chip.event_frame]
@[simp] theorem Chip.event_mer (e d : Nat) : (c.event e d).mer = c.mer := by rw [Chip.event_frame]
@[simp] theorem Chip.event_que (e d : Nat) : (c.event e d).que = c.que := by rw [Chip.event_frame]
@[simp] theorem Chip.event_rose (e d : Nat) : (c.event e d).rose = c.rose := by rw [Chip.event_frame]
@[simp] theorem Chip.event_wake (e d : Nat) : (c.event e d).wake = c.wake := by rw [Chip.event_frame]
@[simp] theorem Chip.event_egr (e d : Nat) : (c.event e d).egr = c.egr := by rw [Chip.event_frame]
@[simp] theorem Chip.event_int (e d : Nat) : (c.event e d).int = c.int := by rw [Chip.event_frame]
@[simp] theorem Chip.event_hk (e d : Nat) : (c.event e d).hk = c.hk := by rw [Chip.event_frame]
@[simp] theorem Chip.event_nvm (e d : Nat) : (c.event e d).nvm = c.nvm := by rw [Chip.event_frame]
@[simp] theorem Chip.event_mgt (e d : Nat) : (c.event e d).mgt = c.mgt := by rw [Chip.event_frame]
@[simp] theorem Chip.event_pwr (e d : Nat) : (c.event e d).pwr = c.pwr := by rw [Chip.event_frame]
@[simp] theorem Chip.event_work (e d : Nat) : (c.event e d).work = c.work := by rw [Chip.event_frame]
@[simp] theorem Chip.event_trim (e d : Nat) : (c.event e d).trim = c.trim := by rw [Chip.event_frame]
@[simp] theorem Chip.event_bus (e d : Nat) : (c.event e d).bus = c.bus := by rw [Chip.event_frame]

@[simp] theorem Chip.flag_tick (f : Fld) (e d : Nat) : (c.flag f e d).tick = c.tick := by rw [Chip.flag_frame]
@[simp] theorem Chip.flag_freeIx (f : Fld) (e d : Nat) : (c.flag f e d).freeIx = c.freeIx := by rw [Chip.flag_frame]
@[simp] theorem Chip.flag_workers (f : Fld) (e d : Nat) : (c.flag f e d).workers = c.workers := by rw [Chip.flag_frame]
@[simp] theorem Chip.flag_ports (f : Fld) (e d : Nat) : (c.flag f e d).ports = c.ports := by rw [Chip.flag_frame]
@[simp] theorem Chip.flag_eng (f : Fld) (e d : Nat) : (c.flag f e d).eng = c.eng := by rw [Chip.flag_frame]
@[simp] theorem Chip.flag_pairs (f : Fld) (e d : Nat) : (c.flag f e d).pairs = c.pairs := by rw [Chip.flag_frame]
@[simp] theorem Chip.flag_slots (f : Fld) (e d : Nat) : (c.flag f e d).slots = c.slots := by rw [Chip.flag_frame]
@[simp] theorem Chip.flag_log (f : Fld) (e d : Nat) : (c.flag f e d).log = c.log := by rw [Chip.flag_frame]
@[simp] theorem Chip.flag_mer (f : Fld) (e d : Nat) : (c.flag f e d).mer = c.mer := by rw [Chip.flag_frame]
@[simp] theorem Chip.flag_que (f : Fld) (e d : Nat) : (c.flag f e d).que = c.que := by rw [Chip.flag_frame]
@[simp] theorem Chip.flag_rose (f : Fld) (e d : Nat) : (c.flag f e d).rose = c.rose := by rw [Chip.flag_frame]
@[simp] theorem Chip.flag_wake (f : Fld) (e d : Nat) : (c.flag f e d).wake = c.wake := by rw [Chip.flag_frame]
@[simp] theorem Chip.flag_egr (f : Fld) (e d : Nat) : (c.flag f e d).egr = c.egr := by rw [Chip.flag_frame]
@[simp] theorem Chip.flag_int (f : Fld) (e d : Nat) : (c.flag f e d).int = c.int := by rw [Chip.flag_frame]
@[simp] theorem Chip.flag_hk (f : Fld) (e d : Nat) : (c.flag f e d).hk = c.hk := by rw [Chip.flag_frame]
@[simp] theorem Chip.flag_nvm (f : Fld) (e d : Nat) : (c.flag f e d).nvm = c.nvm := by rw [Chip.flag_frame]
@[simp] theorem Chip.flag_mgt (f : Fld) (e d : Nat) : (c.flag f e d).mgt = c.mgt := by rw [Chip.flag_frame]
@[simp] theorem Chip.flag_pwr (f : Fld) (e d : Nat) : (c.flag f e d).pwr = c.pwr := by rw [Chip.flag_frame]
@[simp] theorem Chip.flag_work (f : Fld) (e d : Nat) : (c.flag f e d).work = c.work := by rw [Chip.flag_frame]
@[simp] theorem Chip.flag_trim (f : Fld) (e d : Nat) : (c.flag f e d).trim = c.trim := by rw [Chip.flag_frame]
@[simp] theorem Chip.flag_bus (f : Fld) (e d : Nat) : (c.flag f e d).bus = c.bus := by rw [Chip.flag_frame]

@[simp] theorem Chip.modQue_tick (f : Que → Que) : (c.modQue f).tick = c.tick := rfl
@[simp] theorem Chip.modQue_freeIx (f : Que → Que) : (c.modQue f).freeIx = c.freeIx := rfl
@[simp] theorem Chip.modQue_workers (f : Que → Que) : (c.modQue f).workers = c.workers := rfl
@[simp] theorem Chip.modQue_regs (f : Que → Que) : (c.modQue f).regs = c.regs := rfl
@[simp] theorem Chip.modQue_hot (f : Que → Que) : (c.modQue f).hot = c.hot := rfl
@[simp] theorem Chip.modQue_ports (f : Que → Que) : (c.modQue f).ports = c.ports := rfl
@[simp] theorem Chip.modQue_eng (f : Que → Que) : (c.modQue f).eng = c.eng := rfl
@[simp] theorem Chip.modQue_pairs (f : Que → Que) : (c.modQue f).pairs = c.pairs := rfl
@[simp] theorem Chip.modQue_slots (f : Que → Que) : (c.modQue f).slots = c.slots := rfl
@[simp] theorem Chip.modQue_evt (f : Que → Que) : (c.modQue f).evt = c.evt := rfl
@[simp] theorem Chip.modQue_log (f : Que → Que) : (c.modQue f).log = c.log := rfl
@[simp] theorem Chip.modQue_mer (f : Que → Que) : (c.modQue f).mer = c.mer := rfl
@[simp] theorem Chip.modQue_rose (f : Que → Que) : (c.modQue f).rose = c.rose := rfl
@[simp] theorem Chip.modQue_wake (f : Que → Que) : (c.modQue f).wake = c.wake := rfl
@[simp] theorem Chip.modQue_egr (f : Que → Que) : (c.modQue f).egr = c.egr := rfl
@[simp] theorem Chip.modQue_int (f : Que → Que) : (c.modQue f).int = c.int := rfl
@[simp] theorem Chip.modQue_hk (f : Que → Que) : (c.modQue f).hk = c.hk := rfl
@[simp] theorem Chip.modQue_nvm (f : Que → Que) : (c.modQue f).nvm = c.nvm := rfl
@[simp] theorem Chip.modQue_mgt (f : Que → Que) : (c.modQue f).mgt = c.mgt := rfl
@[simp] theorem Chip.modQue_pwr (f : Que → Que) : (c.modQue f).pwr = c.pwr := rfl
@[simp] theorem Chip.modQue_work (f : Que → Que) : (c.modQue f).work = c.work := rfl
@[simp] theorem Chip.modQue_trim (f : Que → Que) : (c.modQue f).trim = c.trim := rfl
@[simp] theorem Chip.modQue_bus (f : Que → Que) : (c.modQue f).bus = c.bus := rfl

@[simp] theorem Chip.modRose_tick (f : Rose → Rose) : (c.modRose f).tick = c.tick := rfl
@[simp] theorem Chip.modRose_freeIx (f : Rose → Rose) : (c.modRose f).freeIx = c.freeIx := rfl
@[simp] theorem Chip.modRose_workers (f : Rose → Rose) : (c.modRose f).workers = c.workers := rfl
@[simp] theorem Chip.modRose_regs (f : Rose → Rose) : (c.modRose f).regs = c.regs := rfl
@[simp] theorem Chip.modRose_hot (f : Rose → Rose) : (c.modRose f).hot = c.hot := rfl
@[simp] theorem Chip.modRose_ports (f : Rose → Rose) : (c.modRose f).ports = c.ports := rfl
@[simp] theorem Chip.modRose_eng (f : Rose → Rose) : (c.modRose f).eng = c.eng := rfl
@[simp] theorem Chip.modRose_pairs (f : Rose → Rose) : (c.modRose f).pairs = c.pairs := rfl
@[simp] theorem Chip.modRose_slots (f : Rose → Rose) : (c.modRose f).slots = c.slots := rfl
@[simp] theorem Chip.modRose_evt (f : Rose → Rose) : (c.modRose f).evt = c.evt := rfl
@[simp] theorem Chip.modRose_log (f : Rose → Rose) : (c.modRose f).log = c.log := rfl
@[simp] theorem Chip.modRose_mer (f : Rose → Rose) : (c.modRose f).mer = c.mer := rfl
@[simp] theorem Chip.modRose_que (f : Rose → Rose) : (c.modRose f).que = c.que := rfl
@[simp] theorem Chip.modRose_wake (f : Rose → Rose) : (c.modRose f).wake = c.wake := rfl
@[simp] theorem Chip.modRose_egr (f : Rose → Rose) : (c.modRose f).egr = c.egr := rfl
@[simp] theorem Chip.modRose_int (f : Rose → Rose) : (c.modRose f).int = c.int := rfl
@[simp] theorem Chip.modRose_hk (f : Rose → Rose) : (c.modRose f).hk = c.hk := rfl
@[simp] theorem Chip.modRose_nvm (f : Rose → Rose) : (c.modRose f).nvm = c.nvm := rfl
@[simp] theorem Chip.modRose_mgt (f : Rose → Rose) : (c.modRose f).mgt = c.mgt := rfl
@[simp] theorem Chip.modRose_pwr (f : Rose → Rose) : (c.modRose f).pwr = c.pwr := rfl
@[simp] theorem Chip.modRose_work (f : Rose → Rose) : (c.modRose f).work = c.work := rfl
@[simp] theorem Chip.modRose_trim (f : Rose → Rose) : (c.modRose f).trim = c.trim := rfl
@[simp] theorem Chip.modRose_bus (f : Rose → Rose) : (c.modRose f).bus = c.bus := rfl

@[simp] theorem Chip.modWake_tick (f : Wake → Wake) : (c.modWake f).tick = c.tick := rfl
@[simp] theorem Chip.modWake_freeIx (f : Wake → Wake) : (c.modWake f).freeIx = c.freeIx := rfl
@[simp] theorem Chip.modWake_workers (f : Wake → Wake) : (c.modWake f).workers = c.workers := rfl
@[simp] theorem Chip.modWake_regs (f : Wake → Wake) : (c.modWake f).regs = c.regs := rfl
@[simp] theorem Chip.modWake_hot (f : Wake → Wake) : (c.modWake f).hot = c.hot := rfl
@[simp] theorem Chip.modWake_ports (f : Wake → Wake) : (c.modWake f).ports = c.ports := rfl
@[simp] theorem Chip.modWake_eng (f : Wake → Wake) : (c.modWake f).eng = c.eng := rfl
@[simp] theorem Chip.modWake_pairs (f : Wake → Wake) : (c.modWake f).pairs = c.pairs := rfl
@[simp] theorem Chip.modWake_slots (f : Wake → Wake) : (c.modWake f).slots = c.slots := rfl
@[simp] theorem Chip.modWake_evt (f : Wake → Wake) : (c.modWake f).evt = c.evt := rfl
@[simp] theorem Chip.modWake_log (f : Wake → Wake) : (c.modWake f).log = c.log := rfl
@[simp] theorem Chip.modWake_mer (f : Wake → Wake) : (c.modWake f).mer = c.mer := rfl
@[simp] theorem Chip.modWake_que (f : Wake → Wake) : (c.modWake f).que = c.que := rfl
@[simp] theorem Chip.modWake_rose (f : Wake → Wake) : (c.modWake f).rose = c.rose := rfl
@[simp] theorem Chip.modWake_egr (f : Wake → Wake) : (c.modWake f).egr = c.egr := rfl
@[simp] theorem Chip.modWake_int (f : Wake → Wake) : (c.modWake f).int = c.int := rfl
@[simp] theorem Chip.modWake_hk (f : Wake → Wake) : (c.modWake f).hk = c.hk := rfl
@[simp] theorem Chip.modWake_nvm (f : Wake → Wake) : (c.modWake f).nvm = c.nvm := rfl
@[simp] theorem Chip.modWake_mgt (f : Wake → Wake) : (c.modWake f).mgt = c.mgt := rfl
@[simp] theorem Chip.modWake_pwr (f : Wake → Wake) : (c.modWake f).pwr = c.pwr := rfl
@[simp] theorem Chip.modWake_work (f : Wake → Wake) : (c.modWake f).work = c.work := rfl
@[simp] theorem Chip.modWake_trim (f : Wake → Wake) : (c.modWake f).trim = c.trim := rfl
@[simp] theorem Chip.modWake_bus (f : Wake → Wake) : (c.modWake f).bus = c.bus := rfl

@[simp] theorem Chip.modEgr_tick (f : Egr → Egr) : (c.modEgr f).tick = c.tick := rfl
@[simp] theorem Chip.modEgr_freeIx (f : Egr → Egr) : (c.modEgr f).freeIx = c.freeIx := rfl
@[simp] theorem Chip.modEgr_workers (f : Egr → Egr) : (c.modEgr f).workers = c.workers := rfl
@[simp] theorem Chip.modEgr_regs (f : Egr → Egr) : (c.modEgr f).regs = c.regs := rfl
@[simp] theorem Chip.modEgr_hot (f : Egr → Egr) : (c.modEgr f).hot = c.hot := rfl
@[simp] theorem Chip.modEgr_ports (f : Egr → Egr) : (c.modEgr f).ports = c.ports := rfl
@[simp] theorem Chip.modEgr_eng (f : Egr → Egr) : (c.modEgr f).eng = c.eng := rfl
@[simp] theorem Chip.modEgr_pairs (f : Egr → Egr) : (c.modEgr f).pairs = c.pairs := rfl
@[simp] theorem Chip.modEgr_slots (f : Egr → Egr) : (c.modEgr f).slots = c.slots := rfl
@[simp] theorem Chip.modEgr_evt (f : Egr → Egr) : (c.modEgr f).evt = c.evt := rfl
@[simp] theorem Chip.modEgr_log (f : Egr → Egr) : (c.modEgr f).log = c.log := rfl
@[simp] theorem Chip.modEgr_mer (f : Egr → Egr) : (c.modEgr f).mer = c.mer := rfl
@[simp] theorem Chip.modEgr_que (f : Egr → Egr) : (c.modEgr f).que = c.que := rfl
@[simp] theorem Chip.modEgr_rose (f : Egr → Egr) : (c.modEgr f).rose = c.rose := rfl
@[simp] theorem Chip.modEgr_wake (f : Egr → Egr) : (c.modEgr f).wake = c.wake := rfl
@[simp] theorem Chip.modEgr_int (f : Egr → Egr) : (c.modEgr f).int = c.int := rfl
@[simp] theorem Chip.modEgr_hk (f : Egr → Egr) : (c.modEgr f).hk = c.hk := rfl
@[simp] theorem Chip.modEgr_nvm (f : Egr → Egr) : (c.modEgr f).nvm = c.nvm := rfl
@[simp] theorem Chip.modEgr_mgt (f : Egr → Egr) : (c.modEgr f).mgt = c.mgt := rfl
@[simp] theorem Chip.modEgr_pwr (f : Egr → Egr) : (c.modEgr f).pwr = c.pwr := rfl
@[simp] theorem Chip.modEgr_work (f : Egr → Egr) : (c.modEgr f).work = c.work := rfl
@[simp] theorem Chip.modEgr_trim (f : Egr → Egr) : (c.modEgr f).trim = c.trim := rfl
@[simp] theorem Chip.modEgr_bus (f : Egr → Egr) : (c.modEgr f).bus = c.bus := rfl

@[simp] theorem Chip.modInt_tick (f : Integ → Integ) : (c.modInt f).tick = c.tick := rfl
@[simp] theorem Chip.modInt_freeIx (f : Integ → Integ) : (c.modInt f).freeIx = c.freeIx := rfl
@[simp] theorem Chip.modInt_workers (f : Integ → Integ) : (c.modInt f).workers = c.workers := rfl
@[simp] theorem Chip.modInt_regs (f : Integ → Integ) : (c.modInt f).regs = c.regs := rfl
@[simp] theorem Chip.modInt_hot (f : Integ → Integ) : (c.modInt f).hot = c.hot := rfl
@[simp] theorem Chip.modInt_ports (f : Integ → Integ) : (c.modInt f).ports = c.ports := rfl
@[simp] theorem Chip.modInt_eng (f : Integ → Integ) : (c.modInt f).eng = c.eng := rfl
@[simp] theorem Chip.modInt_pairs (f : Integ → Integ) : (c.modInt f).pairs = c.pairs := rfl
@[simp] theorem Chip.modInt_slots (f : Integ → Integ) : (c.modInt f).slots = c.slots := rfl
@[simp] theorem Chip.modInt_evt (f : Integ → Integ) : (c.modInt f).evt = c.evt := rfl
@[simp] theorem Chip.modInt_log (f : Integ → Integ) : (c.modInt f).log = c.log := rfl
@[simp] theorem Chip.modInt_mer (f : Integ → Integ) : (c.modInt f).mer = c.mer := rfl
@[simp] theorem Chip.modInt_que (f : Integ → Integ) : (c.modInt f).que = c.que := rfl
@[simp] theorem Chip.modInt_rose (f : Integ → Integ) : (c.modInt f).rose = c.rose := rfl
@[simp] theorem Chip.modInt_wake (f : Integ → Integ) : (c.modInt f).wake = c.wake := rfl
@[simp] theorem Chip.modInt_egr (f : Integ → Integ) : (c.modInt f).egr = c.egr := rfl
@[simp] theorem Chip.modInt_hk (f : Integ → Integ) : (c.modInt f).hk = c.hk := rfl
@[simp] theorem Chip.modInt_nvm (f : Integ → Integ) : (c.modInt f).nvm = c.nvm := rfl
@[simp] theorem Chip.modInt_mgt (f : Integ → Integ) : (c.modInt f).mgt = c.mgt := rfl
@[simp] theorem Chip.modInt_pwr (f : Integ → Integ) : (c.modInt f).pwr = c.pwr := rfl
@[simp] theorem Chip.modInt_work (f : Integ → Integ) : (c.modInt f).work = c.work := rfl
@[simp] theorem Chip.modInt_trim (f : Integ → Integ) : (c.modInt f).trim = c.trim := rfl
@[simp] theorem Chip.modInt_bus (f : Integ → Integ) : (c.modInt f).bus = c.bus := rfl

@[simp] theorem Chip.modHk_tick (f : Hk → Hk) : (c.modHk f).tick = c.tick := rfl
@[simp] theorem Chip.modHk_freeIx (f : Hk → Hk) : (c.modHk f).freeIx = c.freeIx := rfl
@[simp] theorem Chip.modHk_workers (f : Hk → Hk) : (c.modHk f).workers = c.workers := rfl
@[simp] theorem Chip.modHk_regs (f : Hk → Hk) : (c.modHk f).regs = c.regs := rfl
@[simp] theorem Chip.modHk_hot (f : Hk → Hk) : (c.modHk f).hot = c.hot := rfl
@[simp] theorem Chip.modHk_ports (f : Hk → Hk) : (c.modHk f).ports = c.ports := rfl
@[simp] theorem Chip.modHk_eng (f : Hk → Hk) : (c.modHk f).eng = c.eng := rfl
@[simp] theorem Chip.modHk_pairs (f : Hk → Hk) : (c.modHk f).pairs = c.pairs := rfl
@[simp] theorem Chip.modHk_slots (f : Hk → Hk) : (c.modHk f).slots = c.slots := rfl
@[simp] theorem Chip.modHk_evt (f : Hk → Hk) : (c.modHk f).evt = c.evt := rfl
@[simp] theorem Chip.modHk_log (f : Hk → Hk) : (c.modHk f).log = c.log := rfl
@[simp] theorem Chip.modHk_mer (f : Hk → Hk) : (c.modHk f).mer = c.mer := rfl
@[simp] theorem Chip.modHk_que (f : Hk → Hk) : (c.modHk f).que = c.que := rfl
@[simp] theorem Chip.modHk_rose (f : Hk → Hk) : (c.modHk f).rose = c.rose := rfl
@[simp] theorem Chip.modHk_wake (f : Hk → Hk) : (c.modHk f).wake = c.wake := rfl
@[simp] theorem Chip.modHk_egr (f : Hk → Hk) : (c.modHk f).egr = c.egr := rfl
@[simp] theorem Chip.modHk_int (f : Hk → Hk) : (c.modHk f).int = c.int := rfl
@[simp] theorem Chip.modHk_nvm (f : Hk → Hk) : (c.modHk f).nvm = c.nvm := rfl
@[simp] theorem Chip.modHk_mgt (f : Hk → Hk) : (c.modHk f).mgt = c.mgt := rfl
@[simp] theorem Chip.modHk_pwr (f : Hk → Hk) : (c.modHk f).pwr = c.pwr := rfl
@[simp] theorem Chip.modHk_work (f : Hk → Hk) : (c.modHk f).work = c.work := rfl
@[simp] theorem Chip.modHk_trim (f : Hk → Hk) : (c.modHk f).trim = c.trim := rfl
@[simp] theorem Chip.modHk_bus (f : Hk → Hk) : (c.modHk f).bus = c.bus := rfl

@[simp] theorem Chip.modNvm_tick (f : Nvm → Nvm) : (c.modNvm f).tick = c.tick := rfl
@[simp] theorem Chip.modNvm_freeIx (f : Nvm → Nvm) : (c.modNvm f).freeIx = c.freeIx := rfl
@[simp] theorem Chip.modNvm_workers (f : Nvm → Nvm) : (c.modNvm f).workers = c.workers := rfl
@[simp] theorem Chip.modNvm_regs (f : Nvm → Nvm) : (c.modNvm f).regs = c.regs := rfl
@[simp] theorem Chip.modNvm_hot (f : Nvm → Nvm) : (c.modNvm f).hot = c.hot := rfl
@[simp] theorem Chip.modNvm_ports (f : Nvm → Nvm) : (c.modNvm f).ports = c.ports := rfl
@[simp] theorem Chip.modNvm_eng (f : Nvm → Nvm) : (c.modNvm f).eng = c.eng := rfl
@[simp] theorem Chip.modNvm_pairs (f : Nvm → Nvm) : (c.modNvm f).pairs = c.pairs := rfl
@[simp] theorem Chip.modNvm_slots (f : Nvm → Nvm) : (c.modNvm f).slots = c.slots := rfl
@[simp] theorem Chip.modNvm_evt (f : Nvm → Nvm) : (c.modNvm f).evt = c.evt := rfl
@[simp] theorem Chip.modNvm_log (f : Nvm → Nvm) : (c.modNvm f).log = c.log := rfl
@[simp] theorem Chip.modNvm_mer (f : Nvm → Nvm) : (c.modNvm f).mer = c.mer := rfl
@[simp] theorem Chip.modNvm_que (f : Nvm → Nvm) : (c.modNvm f).que = c.que := rfl
@[simp] theorem Chip.modNvm_rose (f : Nvm → Nvm) : (c.modNvm f).rose = c.rose := rfl
@[simp] theorem Chip.modNvm_wake (f : Nvm → Nvm) : (c.modNvm f).wake = c.wake := rfl
@[simp] theorem Chip.modNvm_egr (f : Nvm → Nvm) : (c.modNvm f).egr = c.egr := rfl
@[simp] theorem Chip.modNvm_int (f : Nvm → Nvm) : (c.modNvm f).int = c.int := rfl
@[simp] theorem Chip.modNvm_hk (f : Nvm → Nvm) : (c.modNvm f).hk = c.hk := rfl
@[simp] theorem Chip.modNvm_mgt (f : Nvm → Nvm) : (c.modNvm f).mgt = c.mgt := rfl
@[simp] theorem Chip.modNvm_pwr (f : Nvm → Nvm) : (c.modNvm f).pwr = c.pwr := rfl
@[simp] theorem Chip.modNvm_work (f : Nvm → Nvm) : (c.modNvm f).work = c.work := rfl
@[simp] theorem Chip.modNvm_trim (f : Nvm → Nvm) : (c.modNvm f).trim = c.trim := rfl
@[simp] theorem Chip.modNvm_bus (f : Nvm → Nvm) : (c.modNvm f).bus = c.bus := rfl

@[simp] theorem Chip.modMgt_tick (f : Mgt → Mgt) : (c.modMgt f).tick = c.tick := rfl
@[simp] theorem Chip.modMgt_freeIx (f : Mgt → Mgt) : (c.modMgt f).freeIx = c.freeIx := rfl
@[simp] theorem Chip.modMgt_workers (f : Mgt → Mgt) : (c.modMgt f).workers = c.workers := rfl
@[simp] theorem Chip.modMgt_regs (f : Mgt → Mgt) : (c.modMgt f).regs = c.regs := rfl
@[simp] theorem Chip.modMgt_hot (f : Mgt → Mgt) : (c.modMgt f).hot = c.hot := rfl
@[simp] theorem Chip.modMgt_ports (f : Mgt → Mgt) : (c.modMgt f).ports = c.ports := rfl
@[simp] theorem Chip.modMgt_eng (f : Mgt → Mgt) : (c.modMgt f).eng = c.eng := rfl
@[simp] theorem Chip.modMgt_pairs (f : Mgt → Mgt) : (c.modMgt f).pairs = c.pairs := rfl
@[simp] theorem Chip.modMgt_slots (f : Mgt → Mgt) : (c.modMgt f).slots = c.slots := rfl
@[simp] theorem Chip.modMgt_evt (f : Mgt → Mgt) : (c.modMgt f).evt = c.evt := rfl
@[simp] theorem Chip.modMgt_log (f : Mgt → Mgt) : (c.modMgt f).log = c.log := rfl
@[simp] theorem Chip.modMgt_mer (f : Mgt → Mgt) : (c.modMgt f).mer = c.mer := rfl
@[simp] theorem Chip.modMgt_que (f : Mgt → Mgt) : (c.modMgt f).que = c.que := rfl
@[simp] theorem Chip.modMgt_rose (f : Mgt → Mgt) : (c.modMgt f).rose = c.rose := rfl
@[simp] theorem Chip.modMgt_wake (f : Mgt → Mgt) : (c.modMgt f).wake = c.wake := rfl
@[simp] theorem Chip.modMgt_egr (f : Mgt → Mgt) : (c.modMgt f).egr = c.egr := rfl
@[simp] theorem Chip.modMgt_int (f : Mgt → Mgt) : (c.modMgt f).int = c.int := rfl
@[simp] theorem Chip.modMgt_hk (f : Mgt → Mgt) : (c.modMgt f).hk = c.hk := rfl
@[simp] theorem Chip.modMgt_nvm (f : Mgt → Mgt) : (c.modMgt f).nvm = c.nvm := rfl
@[simp] theorem Chip.modMgt_pwr (f : Mgt → Mgt) : (c.modMgt f).pwr = c.pwr := rfl
@[simp] theorem Chip.modMgt_work (f : Mgt → Mgt) : (c.modMgt f).work = c.work := rfl
@[simp] theorem Chip.modMgt_trim (f : Mgt → Mgt) : (c.modMgt f).trim = c.trim := rfl
@[simp] theorem Chip.modMgt_bus (f : Mgt → Mgt) : (c.modMgt f).bus = c.bus := rfl

@[simp] theorem Chip.modPwr_tick (f : Pwr → Pwr) : (c.modPwr f).tick = c.tick := rfl
@[simp] theorem Chip.modPwr_freeIx (f : Pwr → Pwr) : (c.modPwr f).freeIx = c.freeIx := rfl
@[simp] theorem Chip.modPwr_workers (f : Pwr → Pwr) : (c.modPwr f).workers = c.workers := rfl
@[simp] theorem Chip.modPwr_regs (f : Pwr → Pwr) : (c.modPwr f).regs = c.regs := rfl
@[simp] theorem Chip.modPwr_hot (f : Pwr → Pwr) : (c.modPwr f).hot = c.hot := rfl
@[simp] theorem Chip.modPwr_ports (f : Pwr → Pwr) : (c.modPwr f).ports = c.ports := rfl
@[simp] theorem Chip.modPwr_eng (f : Pwr → Pwr) : (c.modPwr f).eng = c.eng := rfl
@[simp] theorem Chip.modPwr_pairs (f : Pwr → Pwr) : (c.modPwr f).pairs = c.pairs := rfl
@[simp] theorem Chip.modPwr_slots (f : Pwr → Pwr) : (c.modPwr f).slots = c.slots := rfl
@[simp] theorem Chip.modPwr_evt (f : Pwr → Pwr) : (c.modPwr f).evt = c.evt := rfl
@[simp] theorem Chip.modPwr_log (f : Pwr → Pwr) : (c.modPwr f).log = c.log := rfl
@[simp] theorem Chip.modPwr_mer (f : Pwr → Pwr) : (c.modPwr f).mer = c.mer := rfl
@[simp] theorem Chip.modPwr_que (f : Pwr → Pwr) : (c.modPwr f).que = c.que := rfl
@[simp] theorem Chip.modPwr_rose (f : Pwr → Pwr) : (c.modPwr f).rose = c.rose := rfl
@[simp] theorem Chip.modPwr_wake (f : Pwr → Pwr) : (c.modPwr f).wake = c.wake := rfl
@[simp] theorem Chip.modPwr_egr (f : Pwr → Pwr) : (c.modPwr f).egr = c.egr := rfl
@[simp] theorem Chip.modPwr_int (f : Pwr → Pwr) : (c.modPwr f).int = c.int := rfl
@[simp] theorem Chip.modPwr_hk (f : Pwr → Pwr) : (c.modPwr f).hk = c.hk := rfl
@[simp] theorem Chip.modPwr_nvm (f : Pwr → Pwr) : (c.modPwr f).nvm = c.nvm := rfl
@[simp] theorem Chip.modPwr_mgt (f : Pwr → Pwr) : (c.modPwr f).mgt = c.mgt := rfl
@[simp] theorem Chip.modPwr_work (f : Pwr → Pwr) : (c.modPwr f).work = c.work := rfl
@[simp] theorem Chip.modPwr_trim (f : Pwr → Pwr) : (c.modPwr f).trim = c.trim := rfl
@[simp] theorem Chip.modPwr_bus (f : Pwr → Pwr) : (c.modPwr f).bus = c.bus := rfl

@[simp] theorem Chip.modLog_tick (f : LogState → LogState) : (c.modLog f).tick = c.tick := rfl
@[simp] theorem Chip.modLog_freeIx (f : LogState → LogState) : (c.modLog f).freeIx = c.freeIx := rfl
@[simp] theorem Chip.modLog_workers (f : LogState → LogState) : (c.modLog f).workers = c.workers := rfl
@[simp] theorem Chip.modLog_regs (f : LogState → LogState) : (c.modLog f).regs = c.regs := rfl
@[simp] theorem Chip.modLog_hot (f : LogState → LogState) : (c.modLog f).hot = c.hot := rfl
@[simp] theorem Chip.modLog_ports (f : LogState → LogState) : (c.modLog f).ports = c.ports := rfl
@[simp] theorem Chip.modLog_eng (f : LogState → LogState) : (c.modLog f).eng = c.eng := rfl
@[simp] theorem Chip.modLog_pairs (f : LogState → LogState) : (c.modLog f).pairs = c.pairs := rfl
@[simp] theorem Chip.modLog_slots (f : LogState → LogState) : (c.modLog f).slots = c.slots := rfl
@[simp] theorem Chip.modLog_evt (f : LogState → LogState) : (c.modLog f).evt = c.evt := rfl
@[simp] theorem Chip.modLog_mer (f : LogState → LogState) : (c.modLog f).mer = c.mer := rfl
@[simp] theorem Chip.modLog_que (f : LogState → LogState) : (c.modLog f).que = c.que := rfl
@[simp] theorem Chip.modLog_rose (f : LogState → LogState) : (c.modLog f).rose = c.rose := rfl
@[simp] theorem Chip.modLog_wake (f : LogState → LogState) : (c.modLog f).wake = c.wake := rfl
@[simp] theorem Chip.modLog_egr (f : LogState → LogState) : (c.modLog f).egr = c.egr := rfl
@[simp] theorem Chip.modLog_int (f : LogState → LogState) : (c.modLog f).int = c.int := rfl
@[simp] theorem Chip.modLog_hk (f : LogState → LogState) : (c.modLog f).hk = c.hk := rfl
@[simp] theorem Chip.modLog_nvm (f : LogState → LogState) : (c.modLog f).nvm = c.nvm := rfl
@[simp] theorem Chip.modLog_mgt (f : LogState → LogState) : (c.modLog f).mgt = c.mgt := rfl
@[simp] theorem Chip.modLog_pwr (f : LogState → LogState) : (c.modLog f).pwr = c.pwr := rfl
@[simp] theorem Chip.modLog_work (f : LogState → LogState) : (c.modLog f).work = c.work := rfl
@[simp] theorem Chip.modLog_trim (f : LogState → LogState) : (c.modLog f).trim = c.trim := rfl
@[simp] theorem Chip.modLog_bus (f : LogState → LogState) : (c.modLog f).bus = c.bus := rfl

@[simp] theorem Chip.modEvt_tick (f : EvtState → EvtState) : (c.modEvt f).tick = c.tick := rfl
@[simp] theorem Chip.modEvt_freeIx (f : EvtState → EvtState) : (c.modEvt f).freeIx = c.freeIx := rfl
@[simp] theorem Chip.modEvt_workers (f : EvtState → EvtState) : (c.modEvt f).workers = c.workers := rfl
@[simp] theorem Chip.modEvt_regs (f : EvtState → EvtState) : (c.modEvt f).regs = c.regs := rfl
@[simp] theorem Chip.modEvt_hot (f : EvtState → EvtState) : (c.modEvt f).hot = c.hot := rfl
@[simp] theorem Chip.modEvt_ports (f : EvtState → EvtState) : (c.modEvt f).ports = c.ports := rfl
@[simp] theorem Chip.modEvt_eng (f : EvtState → EvtState) : (c.modEvt f).eng = c.eng := rfl
@[simp] theorem Chip.modEvt_pairs (f : EvtState → EvtState) : (c.modEvt f).pairs = c.pairs := rfl
@[simp] theorem Chip.modEvt_slots (f : EvtState → EvtState) : (c.modEvt f).slots = c.slots := rfl
@[simp] theorem Chip.modEvt_log (f : EvtState → EvtState) : (c.modEvt f).log = c.log := rfl
@[simp] theorem Chip.modEvt_mer (f : EvtState → EvtState) : (c.modEvt f).mer = c.mer := rfl
@[simp] theorem Chip.modEvt_que (f : EvtState → EvtState) : (c.modEvt f).que = c.que := rfl
@[simp] theorem Chip.modEvt_rose (f : EvtState → EvtState) : (c.modEvt f).rose = c.rose := rfl
@[simp] theorem Chip.modEvt_wake (f : EvtState → EvtState) : (c.modEvt f).wake = c.wake := rfl
@[simp] theorem Chip.modEvt_egr (f : EvtState → EvtState) : (c.modEvt f).egr = c.egr := rfl
@[simp] theorem Chip.modEvt_int (f : EvtState → EvtState) : (c.modEvt f).int = c.int := rfl
@[simp] theorem Chip.modEvt_hk (f : EvtState → EvtState) : (c.modEvt f).hk = c.hk := rfl
@[simp] theorem Chip.modEvt_nvm (f : EvtState → EvtState) : (c.modEvt f).nvm = c.nvm := rfl
@[simp] theorem Chip.modEvt_mgt (f : EvtState → EvtState) : (c.modEvt f).mgt = c.mgt := rfl
@[simp] theorem Chip.modEvt_pwr (f : EvtState → EvtState) : (c.modEvt f).pwr = c.pwr := rfl
@[simp] theorem Chip.modEvt_work (f : EvtState → EvtState) : (c.modEvt f).work = c.work := rfl
@[simp] theorem Chip.modEvt_trim (f : EvtState → EvtState) : (c.modEvt f).trim = c.trim := rfl
@[simp] theorem Chip.modEvt_bus (f : EvtState → EvtState) : (c.modEvt f).bus = c.bus := rfl

@[simp] theorem Worker.s_pixels (f : Fld) (n : Nat) : (w.s f n).pixels = w.pixels := rfl
@[simp] theorem Worker.s_tiles (f : Fld) (n : Nat) : (w.s f n).tiles = w.tiles := rfl
@[simp] theorem Worker.s_tab (f : Fld) (n : Nat) : (w.s f n).tab = w.tab := rfl
@[simp] theorem Worker.s_cal (f : Fld) (n : Nat) : (w.s f n).cal = w.cal := rfl
@[simp] theorem Worker.s_out (f : Fld) (n : Nat) : (w.s f n).out = w.out := rfl
@[simp] theorem Worker.s_marks (f : Fld) (n : Nat) : (w.s f n).marks = w.marks := rfl
@[simp] theorem Worker.s_time (f : Fld) (n : Nat) : (w.s f n).time = w.time := rfl
@[simp] theorem Worker.s_ctl (f : Fld) (n : Nat) : (w.s f n).ctl = w.ctl := rfl
@[simp] theorem Worker.s_east (f : Fld) (n : Nat) : (w.s f n).east = w.east := rfl
@[simp] theorem Worker.s_west (f : Fld) (n : Nat) : (w.s f n).west = w.west := rfl
@[simp] theorem Worker.s_hot (f : Fld) (n : Nat) : (w.s f n).hot = w.hot := rfl
@[simp] theorem Worker.s_scrub (f : Fld) (n : Nat) : (w.s f n).scrub = w.scrub := rfl

@[simp] theorem Worker.sat_pixels (f : Fld) : (w.sat f).pixels = w.pixels := rfl
@[simp] theorem Worker.sat_tiles (f : Fld) : (w.sat f).tiles = w.tiles := rfl
@[simp] theorem Worker.sat_tab (f : Fld) : (w.sat f).tab = w.tab := rfl
@[simp] theorem Worker.sat_cal (f : Fld) : (w.sat f).cal = w.cal := rfl
@[simp] theorem Worker.sat_out (f : Fld) : (w.sat f).out = w.out := rfl
@[simp] theorem Worker.sat_marks (f : Fld) : (w.sat f).marks = w.marks := rfl
@[simp] theorem Worker.sat_time (f : Fld) : (w.sat f).time = w.time := rfl
@[simp] theorem Worker.sat_ctl (f : Fld) : (w.sat f).ctl = w.ctl := rfl
@[simp] theorem Worker.sat_east (f : Fld) : (w.sat f).east = w.east := rfl
@[simp] theorem Worker.sat_west (f : Fld) : (w.sat f).west = w.west := rfl
@[simp] theorem Worker.sat_hot (f : Fld) : (w.sat f).hot = w.hot := rfl
@[simp] theorem Worker.sat_scrub (f : Fld) : (w.sat f).scrub = w.scrub := rfl

@[simp] theorem Worker.wrap_pixels (f : Fld) : (w.wrap f).pixels = w.pixels := rfl
@[simp] theorem Worker.wrap_tiles (f : Fld) : (w.wrap f).tiles = w.tiles := rfl
@[simp] theorem Worker.wrap_tab (f : Fld) : (w.wrap f).tab = w.tab := rfl
@[simp] theorem Worker.wrap_cal (f : Fld) : (w.wrap f).cal = w.cal := rfl
@[simp] theorem Worker.wrap_out (f : Fld) : (w.wrap f).out = w.out := rfl
@[simp] theorem Worker.wrap_marks (f : Fld) : (w.wrap f).marks = w.marks := rfl
@[simp] theorem Worker.wrap_time (f : Fld) : (w.wrap f).time = w.time := rfl
@[simp] theorem Worker.wrap_ctl (f : Fld) : (w.wrap f).ctl = w.ctl := rfl
@[simp] theorem Worker.wrap_east (f : Fld) : (w.wrap f).east = w.east := rfl
@[simp] theorem Worker.wrap_west (f : Fld) : (w.wrap f).west = w.west := rfl
@[simp] theorem Worker.wrap_hot (f : Fld) : (w.wrap f).hot = w.hot := rfl
@[simp] theorem Worker.wrap_scrub (f : Fld) : (w.wrap f).scrub = w.scrub := rfl

@[simp] theorem Worker.w1c_pixels (f : Fld) : (w.w1c f).pixels = w.pixels := rfl
@[simp] theorem Worker.w1c_tiles (f : Fld) : (w.w1c f).tiles = w.tiles := rfl
@[simp] theorem Worker.w1c_tab (f : Fld) : (w.w1c f).tab = w.tab := rfl
@[simp] theorem Worker.w1c_cal (f : Fld) : (w.w1c f).cal = w.cal := rfl
@[simp] theorem Worker.w1c_scrub (f : Fld) : (w.w1c f).scrub = w.scrub := rfl
@[simp] theorem Worker.w1c_out (f : Fld) : (w.w1c f).out = w.out := rfl
@[simp] theorem Worker.w1c_marks (f : Fld) : (w.w1c f).marks = w.marks := rfl
@[simp] theorem Worker.w1c_time (f : Fld) : (w.w1c f).time = w.time := rfl
@[simp] theorem Worker.w1c_ctl (f : Fld) : (w.w1c f).ctl = w.ctl := rfl
@[simp] theorem Worker.w1c_east (f : Fld) : (w.w1c f).east = w.east := rfl
@[simp] theorem Worker.w1c_west (f : Fld) : (w.w1c f).west = w.west := rfl
@[simp] theorem Worker.w1c_regs (f : Fld) : (w.w1c f).regs = RegFile.set wkrReset w.regs f 1 := rfl

@[simp] theorem Worker.setWord_pixels (a : Nat) (v : Word) : (w.setWord a v).pixels = w.pixels := rfl
@[simp] theorem Worker.setWord_tiles (a : Nat) (v : Word) : (w.setWord a v).tiles = w.tiles := rfl
@[simp] theorem Worker.setWord_tab (a : Nat) (v : Word) : (w.setWord a v).tab = w.tab := rfl
@[simp] theorem Worker.setWord_cal (a : Nat) (v : Word) : (w.setWord a v).cal = w.cal := rfl
@[simp] theorem Worker.setWord_out (a : Nat) (v : Word) : (w.setWord a v).out = w.out := rfl
@[simp] theorem Worker.setWord_marks (a : Nat) (v : Word) : (w.setWord a v).marks = w.marks := rfl
@[simp] theorem Worker.setWord_time (a : Nat) (v : Word) : (w.setWord a v).time = w.time := rfl
@[simp] theorem Worker.setWord_ctl (a : Nat) (v : Word) : (w.setWord a v).ctl = w.ctl := rfl
@[simp] theorem Worker.setWord_east (a : Nat) (v : Word) : (w.setWord a v).east = w.east := rfl
@[simp] theorem Worker.setWord_west (a : Nat) (v : Word) : (w.setWord a v).west = w.west := rfl
@[simp] theorem Worker.setWord_hot (a : Nat) (v : Word) : (w.setWord a v).hot = w.hot := rfl
@[simp] theorem Worker.setWord_scrub (a : Nat) (v : Word) : (w.setWord a v).scrub = w.scrub := rfl

@[simp] theorem Worker.setPx_regs (a : Nat) (p : Pixel) : (w.setPx a p).regs = w.regs := rfl
@[simp] theorem Worker.setPx_tiles (a : Nat) (p : Pixel) : (w.setPx a p).tiles = w.tiles := rfl
@[simp] theorem Worker.setPx_tab (a : Nat) (p : Pixel) : (w.setPx a p).tab = w.tab := rfl
@[simp] theorem Worker.setPx_cal (a : Nat) (p : Pixel) : (w.setPx a p).cal = w.cal := rfl
@[simp] theorem Worker.setPx_out (a : Nat) (p : Pixel) : (w.setPx a p).out = w.out := rfl
@[simp] theorem Worker.setPx_marks (a : Nat) (p : Pixel) : (w.setPx a p).marks = w.marks := rfl
@[simp] theorem Worker.setPx_time (a : Nat) (p : Pixel) : (w.setPx a p).time = w.time := rfl
@[simp] theorem Worker.setPx_ctl (a : Nat) (p : Pixel) : (w.setPx a p).ctl = w.ctl := rfl
@[simp] theorem Worker.setPx_east (a : Nat) (p : Pixel) : (w.setPx a p).east = w.east := rfl
@[simp] theorem Worker.setPx_west (a : Nat) (p : Pixel) : (w.setPx a p).west = w.west := rfl
@[simp] theorem Worker.setPx_hot (a : Nat) (p : Pixel) : (w.setPx a p).hot = w.hot := rfl
@[simp] theorem Worker.setPx_scrub (a : Nat) (p : Pixel) : (w.setPx a p).scrub = w.scrub := rfl

@[simp] theorem Worker.setTile_regs (t : Nat) (x : Tile) : (w.setTile t x).regs = w.regs := rfl
@[simp] theorem Worker.setTile_pixels (t : Nat) (x : Tile) : (w.setTile t x).pixels = w.pixels := rfl
@[simp] theorem Worker.setTile_tab (t : Nat) (x : Tile) : (w.setTile t x).tab = w.tab := rfl
@[simp] theorem Worker.setTile_cal (t : Nat) (x : Tile) : (w.setTile t x).cal = w.cal := rfl
@[simp] theorem Worker.setTile_out (t : Nat) (x : Tile) : (w.setTile t x).out = w.out := rfl
@[simp] theorem Worker.setTile_marks (t : Nat) (x : Tile) : (w.setTile t x).marks = w.marks := rfl
@[simp] theorem Worker.setTile_time (t : Nat) (x : Tile) : (w.setTile t x).time = w.time := rfl
@[simp] theorem Worker.setTile_ctl (t : Nat) (x : Tile) : (w.setTile t x).ctl = w.ctl := rfl
@[simp] theorem Worker.setTile_east (t : Nat) (x : Tile) : (w.setTile t x).east = w.east := rfl
@[simp] theorem Worker.setTile_west (t : Nat) (x : Tile) : (w.setTile t x).west = w.west := rfl
@[simp] theorem Worker.setTile_hot (t : Nat) (x : Tile) : (w.setTile t x).hot = w.hot := rfl
@[simp] theorem Worker.setTile_scrub (t : Nat) (x : Tile) : (w.setTile t x).scrub = w.scrub := rfl

@[simp] theorem Worker.modOut_regs (f : WOut → WOut) : (w.modOut f).regs = w.regs := rfl
@[simp] theorem Worker.modOut_pixels (f : WOut → WOut) : (w.modOut f).pixels = w.pixels := rfl
@[simp] theorem Worker.modOut_tiles (f : WOut → WOut) : (w.modOut f).tiles = w.tiles := rfl
@[simp] theorem Worker.modOut_tab (f : WOut → WOut) : (w.modOut f).tab = w.tab := rfl
@[simp] theorem Worker.modOut_cal (f : WOut → WOut) : (w.modOut f).cal = w.cal := rfl
@[simp] theorem Worker.modOut_marks (f : WOut → WOut) : (w.modOut f).marks = w.marks := rfl
@[simp] theorem Worker.modOut_time (f : WOut → WOut) : (w.modOut f).time = w.time := rfl
@[simp] theorem Worker.modOut_ctl (f : WOut → WOut) : (w.modOut f).ctl = w.ctl := rfl
@[simp] theorem Worker.modOut_east (f : WOut → WOut) : (w.modOut f).east = w.east := rfl
@[simp] theorem Worker.modOut_west (f : WOut → WOut) : (w.modOut f).west = w.west := rfl
@[simp] theorem Worker.modOut_hot (f : WOut → WOut) : (w.modOut f).hot = w.hot := rfl
@[simp] theorem Worker.modOut_scrub (f : WOut → WOut) : (w.modOut f).scrub = w.scrub := rfl

/-! What a named part reads as after an update. -/

theorem Chip.worker_setWorker (k j : Nat) (x : Worker) : (c.setWorker k x).worker j = if j = k then x else c.worker j :=
  AMap.get_set _ _ _ _ _

@[simp] theorem Chip.worker_setWorker_same (k : Nat) (x : Worker) : (c.setWorker k x).worker k = x := by
  simp [Chip.worker_setWorker]

theorem Chip.port_setPort (k j : Nat) (x : Port) : (c.setPort k x).port j = if j = k then x else c.port j := AMap.get_set _ _ _ _ _

@[simp] theorem Chip.port_setPort_same (k : Nat) (x : Port) : (c.setPort k x).port k = x := by simp [Chip.port_setPort]

theorem Chip.engine_setEngine (k j : Nat) (x : Engine) : (c.setEngine k x).engine j = if j = k then x else c.engine j :=
  AMap.get_set _ _ _ _ _

@[simp] theorem Chip.engine_setEngine_same (k : Nat) (x : Engine) : (c.setEngine k x).engine k = x := by
  simp [Chip.engine_setEngine]

theorem Chip.pair_setPair (k j : Nat) (x : Pair) : (c.setPair k x).pair j = if j = k then x else c.pair j := AMap.get_set _ _ _ _ _

@[simp] theorem Chip.pair_setPair_same (k : Nat) (x : Pair) : (c.setPair k x).pair k = x := by simp [Chip.pair_setPair]

theorem Chip.slot_setSlot (k j : Nat) (x : SlotX) : (c.setSlot k x).slot j = if j = k then x else c.slot j := AMap.get_set _ _ _ _ _

@[simp] theorem Chip.slot_setSlot_same (k : Nat) (x : SlotX) : (c.setSlot k x).slot k = x := by simp [Chip.slot_setSlot]

theorem Chip.pair_modPair (k j : Nat) (f : Pair → Pair) : (c.modPair k f).pair j = if j = k then f (c.pair k) else c.pair j :=
  AMap.get_set _ _ _ _ _

theorem Chip.slot_modSlot (k j : Nat) (f : SlotX → SlotX) : (c.modSlot k f).slot j = if j = k then f (c.slot k) else c.slot j :=
  AMap.get_set _ _ _ _ _

theorem Worker.px_setPx (k j : Nat) (x : Pixel) : (w.setPx k x).px j = if j = k then x else w.px j := AMap.get_set _ _ _ _ _

@[simp] theorem Worker.px_setPx_same (k : Nat) (x : Pixel) : (w.setPx k x).px k = x := by simp [Worker.px_setPx]

theorem Worker.tile_setTile (k j : Nat) (x : Tile) : (w.setTile k x).tile j = if j = k then x else w.tile j := AMap.get_set _ _ _ _ _

@[simp] theorem Worker.tile_setTile_same (k : Nat) (x : Tile) : (w.setTile k x).tile k = x := by simp [Worker.tile_setTile]

/-! What the shared operations of commands answer. -/

namespace Machine

theorem State.wkr_next (s : State) (k : Nat) (f : Worker → Worker) : s.wkr k f = .next { s with chip := s.chip.modW k f } := rfl

theorem State.mgr_next (s : State) (f : Chip → Chip) :
    s.mgr f = .next { s with chip := if s.chip.live then f s.chip else s.chip } := rfl

/-- A command of a live manager acts on it. -/
theorem State.mgr_live (s : State) (f : Chip → Chip) (h : s.chip.live = true) : s.mgr f = .next { s with chip := f s.chip } := by
  simp [State.mgr, h]

/-- A command of a manager held in reset does nothing. -/
theorem State.mgr_dead (s : State) (f : Chip → Chip) (h : s.chip.live = false) : s.mgr f = .next s := by
  simp [State.mgr, h]

/-- A command of a worker with supply and out of reset acts on it. -/
theorem State.wkr_alive (s : State) (k : Nat) (f : Worker → Worker) (hp : (s.chip.worker k).ctl.powered = true)
    (hr : (s.chip.worker k).ctl.inReset = false) :
    s.wkr k f = .next { s with chip := s.chip.setWorker k (f (s.chip.worker k)) } := by
  simp [State.wkr, Chip.modW, hp, hr]

end Machine
end Sys2Proof
end

