-- ==== Sys2Proof/Laws/Interlock.lean ====
section
/-!
SUPPORT. Laws/Interlock.lean: what the conditions the interlock raises do to the manager, and what a command of the
interlock answers.
-/
namespace Sys2Proof

/-- The removal of the bias, and the condition it raises (R445, R456). -/
theorem Interlock.remove_eq (i : Interlock) (t : Nat) : i.remove t = { i.gone t with raised := i.raised ++ i.goneEv } := by
  cases h1 : i.fbHs <;> cases h2 : i.fbLs <;> cases h3 : bitOf i.sel 4 <;> cases h4 : i.dsc <;> cases h5 : i.sckFault <;>
    simp [Interlock.remove, Interlock.gone, Interlock.complete, Interlock.discharge, Interlock.goneEv, Interlock.hasDsc,
      Interlock.raise, *]

/-- An interlock with nothing raised is itself with nothing raised. -/
theorem Interlock.raised_nil (i : Interlock) (h : i.raised = []) : i = { i with raised := [] } := by
  cases i; simp only at h; subst h; rfl

end Sys2Proof

namespace Sys2Proof.Machine

theorem raiseSafe_dead (s : State) (n : Nat) (h : s.chip.live = false) : raiseSafe s n = s := by
  unfold raiseSafe; simp [h]

theorem raiseSafe_live (s : State) (n : Nat) (h : s.chip.live = true) :
    raiseSafe s n = { s with
      saf := if n = 0 then { s.saf with demSec := secOf s.chip.sub % 4294967296, demNs := nsOf s.chip.sub } else s.saf
      chip := s.chip.event (224 + n) 0 } := by
  unfold raiseSafe; rw [if_pos h]

/-- The conditions raised by one command, in order. -/
theorem foldl_raiseSafe (c : Chip) (l : List Nat) (s : State) (hm : s.chip.mer = c.mer) (ht : s.chip.tick = c.tick) (hp : s.chip.pwr = c.pwr) :
    l.foldl raiseSafe s = { s with
      saf := if c.live = true ∧ 0 ∈ l then { s.saf with demSec := secOf c.sub % 4294967296, demNs := nsOf c.sub } else s.saf
      chip := if c.live = true then l.foldl (fun d n => d.event (224 + n) 0) s.chip else s.chip } := by
  have hlive : s.chip.live = c.live := by unfold Chip.live; rw [hp]
  have hsub : s.chip.sub = c.sub := by unfold Chip.sub; rw [hm, ht]
  induction l generalizing s with
  | nil => simp
  | cons n l ih =>
    simp only [List.foldl_cons]
    cases h : c.live
    · have hs : s.chip.live = false := by rw [hlive, h]
      rw [raiseSafe_dead s n hs, ih s hm ht hp hlive hsub]
      simp [h]
    · rw [raiseSafe_live s n (by rw [hlive, h]), ih]
      · by_cases hn : n = 0
        · subst hn; simp [h, hsub]
        · simp [h, hn, Ne.symm hn]
      · simpa using hm
      · simpa using ht
      · simpa using hp
      · simpa [Chip.live] using hlive
      · simpa [Chip.sub] using hsub

/-- What a command of the interlock answers, from what it does to the interlock alone. -/
theorem State.interlockDoes_ilk (s : State) (x : Instr) (base : Chip) (f : Interlock → Interlock) (l : List Nat) (j : Interlock)
    (hx : exec x s = ({ s with chip := base } : State).ilk f) (hf : f s.saf = { j with raised := l }) (hj : j.raised = []) :
    s.interlockDoes x base l j := by
  cases j
  simp only at hj
  subst hj
  unfold State.interlockDoes
  rw [hx]
  unfold State.ilk
  simp only [hf]
  rw [foldl_raiseSafe base l _ rfl rfl rfl]

end Sys2Proof.Machine
end

