-- ==== Sys2Proof/Laws/Worker.lean ====
section
/-!
SUPPORT. Laws/Worker.lean: the register words of a worker after its shared operations, and what a worker command answers.
-/
namespace Sys2Proof

/-- A field that takes the value it has leaves the word as it is. -/
theorem Fld.put_of (f : Fld) (v : Word) : f.put v (f.of v) = v := by
  apply BitVec.eq_of_getLsbD_eq
  intro i hi
  rw [Fld.getLsbD_put f v _ i hi]
  split
  · rename_i h
    rw [Fld.testBit_of]
    have : i - f.lo + f.lo = i := by omega
    simp [h.2, this]
  · rfl

theorem Worker.word_s (x : Worker) (f : Fld) (n b : Nat) :
    (x.s f n).word b = if f.reg = b then f.put (x.word b) n else x.word b := by
  unfold Worker.s Worker.word RegFile.set
  by_cases h : b = f.reg
  · subst h; simp [AMap.get_upd]
  · simp [AMap.get_upd, h, Ne.symm h]

theorem Worker.word_sat (x : Worker) (f : Fld) (b : Nat) :
    (x.sat f).word b = if f.reg = b then f.put (x.word b) (satTo f (x.g f) 1) else x.word b :=
  Worker.word_s x f (satTo f (x.g f) 1) b

theorem Worker.word_wrap (x : Worker) (f : Fld) (b : Nat) :
    (x.wrap f).word b = if f.reg = b then f.put (x.word b) (x.g f + 1) else x.word b :=
  Worker.word_s x f (x.g f + 1) b

/-- A flag that hardware sets changes its bit and, on a rise that is enabled, makes a report pending. -/
theorem Worker.raise_frame (x : Worker) (f : Fld) :
    x.raise f = { x with
      regs := (x.raise f).regs, hot := (x.raise f).hot, out := { x.out with monitor := x.out.monitor || x.reports f } } := by
  unfold Worker.raise Worker.reports
  by_cases h : x.b f
  · simp [h, Worker.w1c, Worker.s]
  · by_cases h2 : bitOf (x.g F.WK_FLAG_EN_FLAG_EN) f.lo
    · simp [h, h2, Worker.w1c, Worker.s]
    · simp [h, h2, Worker.w1c, Worker.s]

theorem Worker.word_raise (x : Worker) (f : Fld) (b : Nat) :
    (x.raise f).word b = if f.reg = b then f.put (x.word b) 1 else x.word b := by
  have h1 : (x.w1c f).word b = _ := Worker.word_s x f 1 b
  unfold Worker.raise
  simp only []
  split
  · exact h1
  · split <;> exact h1

theorem Worker.word_high (x : Worker) (f : Fld) (n b : Nat) :
    (x.high f n).word b = if f.reg = b then f.put (x.word b) (max (x.g f) n) else x.word b := by
  unfold Worker.high
  split
  · rename_i h
    rw [Worker.word_s, Nat.max_eq_right (Nat.le_of_lt h)]
  · rename_i h
    rw [Nat.max_eq_left (by omega)]
    split
    · rename_i hb
      subst hb
      exact (Fld.put_of f (x.word f.reg)).symm
    · rfl

theorem Worker.high_frame (x : Worker) (f : Fld) (n : Nat) : x.high f n = { x with regs := (x.high f n).regs } := by
  unfold Worker.high; split <;> rfl

/-! What the operations leave alone. -/

@[simp] theorem Worker.px_s (x : Worker) (f : Fld) (n : Nat) (b : Nat) : (x.s f n).px b = x.px b := rfl
@[simp] theorem Worker.px_sat (x : Worker) (f : Fld) (b : Nat) : (x.sat f).px b = x.px b := rfl
@[simp] theorem Worker.px_wrap (x : Worker) (f : Fld) (b : Nat) : (x.wrap f).px b = x.px b := rfl
@[simp] theorem Worker.px_setWord (x : Worker) (k : Nat) (v : Word) (b : Nat) : (x.setWord k v).px b = x.px b := rfl
@[simp] theorem Worker.px_setTile (x : Worker) (k : Nat) (q : Tile) (b : Nat) : (x.setTile k q).px b = x.px b := rfl
@[simp] theorem Worker.px_modOut (x : Worker) (f : WOut → WOut) (b : Nat) : (x.modOut f).px b = x.px b := rfl
@[simp] theorem Worker.px_raise (x : Worker) (f : Fld) (b : Nat) : (x.raise f).px b = x.px b := by rw [Worker.raise_frame]; rfl
@[simp] theorem Worker.px_high (x : Worker) (f : Fld) (n : Nat) (b : Nat) : (x.high f n).px b = x.px b := by rw [Worker.high_frame]; rfl
@[simp] theorem Worker.tile_s (x : Worker) (f : Fld) (n : Nat) (b : Nat) : (x.s f n).tile b = x.tile b := rfl
@[simp] theorem Worker.tile_sat (x : Worker) (f : Fld) (b : Nat) : (x.sat f).tile b = x.tile b := rfl
@[simp] theorem Worker.tile_wrap (x : Worker) (f : Fld) (b : Nat) : (x.wrap f).tile b = x.tile b := rfl
@[simp] theorem Worker.tile_setWord (x : Worker) (k : Nat) (v : Word) (b : Nat) : (x.setWord k v).tile b = x.tile b := rfl
@[simp] theorem Worker.tile_setPx (x : Worker) (k : Nat) (q : Pixel) (b : Nat) : (x.setPx k q).tile b = x.tile b := rfl
@[simp] theorem Worker.tile_modOut (x : Worker) (f : WOut → WOut) (b : Nat) : (x.modOut f).tile b = x.tile b := rfl
@[simp] theorem Worker.tile_raise (x : Worker) (f : Fld) (b : Nat) : (x.raise f).tile b = x.tile b := by rw [Worker.raise_frame]; rfl
@[simp] theorem Worker.tile_high (x : Worker) (f : Fld) (n : Nat) (b : Nat) : (x.high f n).tile b = x.tile b := by rw [Worker.high_frame]; rfl
@[simp] theorem Worker.word_setPx (x : Worker) (k : Nat) (q : Pixel) (b : Nat) : (x.setPx k q).word b = x.word b := rfl
@[simp] theorem Worker.word_setTile (x : Worker) (k : Nat) (q : Tile) (b : Nat) : (x.setTile k q).word b = x.word b := rfl
@[simp] theorem Worker.word_modOut (x : Worker) (f : WOut → WOut) (b : Nat) : (x.modOut f).word b = x.word b := rfl
@[simp] theorem Worker.g_setPx (x : Worker) (k : Nat) (q : Pixel) (g : Fld) : (x.setPx k q).g g = x.g g := rfl
@[simp] theorem Worker.g_setTile (x : Worker) (k : Nat) (q : Tile) (g : Fld) : (x.setTile k q).g g = x.g g := rfl
@[simp] theorem Worker.g_modOut (x : Worker) (f : WOut → WOut) (g : Fld) : (x.modOut f).g g = x.g g := rfl
@[simp] theorem Worker.b_setPx (x : Worker) (k : Nat) (q : Pixel) (g : Fld) : (x.setPx k q).b g = x.b g := rfl
@[simp] theorem Worker.b_setTile (x : Worker) (k : Nat) (q : Tile) (g : Fld) : (x.setTile k q).b g = x.b g := rfl
@[simp] theorem Worker.b_modOut (x : Worker) (f : WOut → WOut) (g : Fld) : (x.modOut f).b g = x.b g := rfl
@[simp] theorem Worker.out_high (x : Worker) (f : Fld) (n : Nat) : (x.high f n).out = x.out := by rw [Worker.high_frame]
@[simp] theorem Worker.marks_high (x : Worker) (f : Fld) (n : Nat) : (x.high f n).marks = x.marks := by rw [Worker.high_frame]
@[simp] theorem Worker.marks_raise (x : Worker) (f : Fld) : (x.raise f).marks = x.marks := by rw [Worker.raise_frame]
theorem Worker.out_raise (x : Worker) (f : Fld) :
    (x.raise f).out = { x.out with monitor := x.out.monitor || x.reports f } := by rw [Worker.raise_frame]

/-! Parts of a worker that are the same in two states read the same. -/

theorem Worker.px_of_eq {y z : Worker} (h : y.pixels = z.pixels) (b : Nat) : y.px b = z.px b := by unfold Worker.px; rw [h]
theorem Worker.tile_of_eq {y z : Worker} (h : y.tiles = z.tiles) (b : Nat) : y.tile b = z.tile b := by unfold Worker.tile; rw [h]
theorem Worker.word_of_eq {y z : Worker} (h : y.regs = z.regs) (b : Nat) : y.word b = z.word b := by unfold Worker.word; rw [h]
theorem Worker.g_of_eq {y z : Worker} (h : y.regs = z.regs) (f : Fld) : y.g f = z.g f := by unfold Worker.g; rw [h]
theorem Worker.b_of_eq {y z : Worker} (h : y.regs = z.regs) (f : Fld) : y.b f = z.b f := by unfold Worker.b; rw [Worker.g_of_eq h]

theorem Worker.pixelIs_setPx (x : Worker) (a : Nat) (q : Pixel) : x.pixelIs (x.setPx a q) a q := fun b => Worker.px_setPx x a b q
theorem Worker.tileIs_setTile (x : Worker) (a : Nat) (q : Tile) : x.tileIs (x.setTile a q) a q := fun b => Worker.tile_setTile x a b q
theorem Worker.g_of_word {x y : Worker} (f : Fld) (h : x.word f.reg = y.word f.reg) : x.g f = y.g f := by
  show f.of (x.word f.reg) = f.of (y.word f.reg); rw [h]
/-- The oldest record leaves a full ring (R145, R149, R151). -/
theorem Worker.ringOverwrite_eq (x : Worker) (t n : Nat) (q : Tile) (e : RingEnt) :
    x.ringOverwrite t n q e =
      (let x2 : Worker := { x with marks := { x.marks with serving := x.marks.serving.map (fun sv =>
        if sv.toCopy.contains (t, e.ix) then { sv with partialTiles := sv.partialTiles ||| (1 <<< t) } else sv) } }
       let q1 := { q with ovwT := some (match q.ovwT with
        | some o => later48 o e.hit.cnt
        | none => e.hit.cnt) }
       if n < e.t0 + 32768 then ((x2.raise F.WK_FLAGS_RING_OVW).sat (F.TILE_STAT_OVF_CNT.ix 4 t), q1) else (x2, q1)) := by
  unfold Worker.ringOverwrite
  obtain ⟨_, _, _, _, _, _, _, ⟨mq, sv, tr⟩, _, _, _, _, _⟩ := x
  cases sv with
  | none => rfl
  | some sv =>
    simp only [Option.map_some]
    by_cases h : sv.toCopy.contains (t, e.ix) = true
    · simp only [h, if_true] <;> rfl
    · simp only [h] <;> rfl

/-- A record enters a ring with room, or takes the place of its oldest (R145, R149). -/
theorem Worker.ringWrite_took (k : Worker) (t n m : Nat) (r : Hit) :
    let hwm := F.TILE_STAT_FIFO_HWM.ix 4 t
    let ovf := F.TILE_STAT_OVF_CNT.ix 4 t
    let y := (k.high hwm m).ringWrite t n r
    let q := k.tile t
    let ent : RingEnt := ⟨r, false, n, q.nextIx⟩
    (q.ring.length < 1024 →
      k.tileIs y t { q with ring := q.ring ++ [ent], nextIx := q.nextIx + 1 } ∧ k.puts y [(hwm, max (k.g hwm) m)] ∧
      y.out = k.out ∧ y.marks = k.marks) ∧
    ∀ (e : RingEnt) (rest : List RingEnt), 1024 ≤ q.ring.length → q.ring = e :: rest →
      let early : Bool := decide (n < e.t0 + 32768)
      k.tileIs y t { q with ring := rest ++ [ent], nextIx := q.nextIx + 1, ovwT := some (match q.ovwT with
        | some o => later48 o e.hit.cnt
        | none => e.hit.cnt) } ∧
      k.puts y ((hwm, max (k.g hwm) m) :: (if early then [(F.WK_FLAGS_RING_OVW, 1), (ovf, satTo ovf (k.g ovf) 1)] else [])) ∧
      y.out = { k.out with monitor := k.out.monitor || (early && k.reports F.WK_FLAGS_RING_OVW) } ∧
      y.marks = { k.marks with serving := k.marks.serving.map (fun sv =>
        if sv.toCopy.contains (t, e.ix) then { sv with partialTiles := sv.partialTiles ||| (1 <<< t) } else sv) } := by
  intro hwm ovf y q ent
  have y_eq : y = (k.high hwm m).ringWrite t n r := rfl
  unfold Worker.ringWrite at y_eq
  simp only [Worker.tile_high] at y_eq
  constructor
  · intro hr
    cases hc : (k.tile t).ring with
    | nil =>
      simp only [hc] at y_eq
      rw [y_eq]
      refine ⟨?_, ?_, ?_, ?_⟩
      · intro b; rw [Worker.tile_setTile]; simp [q, ent]
      · intro b; simp [putAll, Worker.word_high]
      · simp [Worker.setTile]
      · simp [Worker.setTile]
    | cons e rest =>
      have : ¬ (e :: rest).length ≥ 1024 := by rw [← hc]; exact Nat.not_le.mpr hr
      simp only [hc, this, if_false] at y_eq
      rw [y_eq]
      refine ⟨?_, ?_, ?_, ?_⟩
      · intro b; rw [Worker.tile_setTile]; simp [q, ent]
      · intro b; simp [putAll, Worker.word_high]
      · simp [Worker.setTile]
      · simp [Worker.setTile]
  · intro e rest hr hc
    have hl : (e :: rest).length ≥ 1024 := by rw [← hc]; exact hr
    have hc' : (k.tile t).ring = e :: rest := hc
    simp only [hc', hl, if_true] at y_eq
    generalize hx1 : k.high hwm m = x1 at y_eq
    have w1 : ∀ b, x1.word b = if hwm.reg = b then hwm.put (k.word b) (max (k.g hwm) m) else k.word b := by
      intro b; rw [← hx1, Worker.word_high]
    have fl : ∀ f : Fld, f.fits = true → hwm.apart f = true → x1.g f = k.g f := by
      intro f hf ha
      rw [← hx1]; unfold Worker.high; split
      · exact Worker.g_s_apart _ _ _ _ hf ha
      · rfl
    have o1 : x1.out = k.out := by rw [← hx1]; simp
    have m1 : x1.marks = k.marks := by rw [← hx1]; simp
    have t1 : ∀ b, x1.tile b = k.tile b := by intro b; rw [← hx1]; simp
    have rep : x1.reports F.WK_FLAGS_RING_OVW = k.reports F.WK_FLAGS_RING_OVW := by
      unfold Worker.reports Worker.b
      rw [fl, fl]
      · decide
      · simp [hwm, Fld.apart, Fld.ix, F.TILE_STAT_FIFO_HWM, F.WK_FLAG_EN_FLAG_EN]; omega
      · decide
      · simp [hwm, Fld.apart, Fld.ix, F.TILE_STAT_FIFO_HWM, F.WK_FLAGS_RING_OVW]; omega
    have ov : x1.g ovf = k.g ovf := by
      rw [fl]
      · rfl
      · simp [hwm, ovf, Fld.apart, Fld.ix, F.TILE_STAT_FIFO_HWM, F.TILE_STAT_OVF_CNT]
    rw [Worker.ringOverwrite_eq] at y_eq
    simp only [] at y_eq
    generalize hx2 : ({ x1 with marks := { x1.marks with serving := x1.marks.serving.map (fun sv =>
      if sv.toCopy.contains (t, e.ix) then { sv with partialTiles := sv.partialTiles ||| (1 <<< t) } else sv) } } : Worker) = x2 at y_eq
    have w2 : ∀ b, x2.word b = x1.word b := fun b => Worker.word_of_eq (by rw [← hx2]) b
    have g2 : ∀ b, x2.g b = x1.g b := fun b => Worker.g_of_eq (by rw [← hx2]) b
    have o2 : x2.out = k.out := by rw [← hx2]; exact o1
    have m2 : x2.marks = { k.marks with serving := k.marks.serving.map (fun sv =>
      if sv.toCopy.contains (t, e.ix) then { sv with partialTiles := sv.partialTiles ||| (1 <<< t) } else sv) } := by rw [← hx2, m1]
    have t2 : ∀ b, x2.tile b = k.tile b := fun b => (Worker.tile_of_eq (by rw [← hx2]) b).trans (t1 b)
    have rep2 : x2.reports F.WK_FLAGS_RING_OVW = k.reports F.WK_FLAGS_RING_OVW := by
      unfold Worker.reports Worker.b; rw [g2, g2]; exact rep
    intro early
    by_cases he : n < e.t0 + 32768
    · have hb : early = true := decide_eq_true he
      rw [if_pos he] at y_eq
      rw [y_eq, hb]
      refine ⟨?_, ?_, ?_, ?_⟩
      · intro b; rw [Worker.tile_setTile]; simp only [Worker.tile_sat, Worker.tile_raise, t2]; rfl
      · intro b
        simp only [Worker.word_setTile, Worker.word_sat, Worker.word_raise, w2, w1]
        have : (x2.raise F.WK_FLAGS_RING_OVW).g ovf = k.g ovf := by
          rw [← ov, ← g2]
          apply Worker.g_of_word
          rw [Worker.word_raise, if_neg]
          simp [ovf, Fld.ix, F.WK_FLAGS_RING_OVW, F.TILE_STAT_OVF_CNT]; omega
        rw [show F.TILE_STAT_OVF_CNT.ix 4 t = ovf from rfl, this]
        simp [putAll]
      · simp only [Worker.setTile, Worker.sat, Worker.out_raise, o2, rep2, Bool.true_and]
      · simp only [Worker.setTile, Worker.sat, Worker.marks_raise, m2]
    · have hb : early = false := decide_eq_false he
      rw [if_neg he] at y_eq
      rw [y_eq, hb]
      refine ⟨?_, ?_, ?_, ?_⟩
      · intro b; rw [Worker.tile_setTile]; simp only [t2]; rfl
      · intro b
        simp only [Worker.word_setTile, w2, w1]
        simp [putAll]
      · simp only [Worker.setTile, o2, Bool.false_and, Bool.or_false]
      · simp only [Worker.setTile, m2]

/-- A record enters its tile, or is counted as lost (R135, R137, R138, R145). -/
theorem Worker.took_fifoWrite (x : Worker) (n t : Nat) (r : Hit) : x.took (x.fifoWrite t n r) n t r [] := by
  unfold Worker.took Worker.fifoWrite
  generalize x.moveFirst t n = z
  simp only []
  by_cases hf : 256 ≤ (z.tile t).fifo.length
  · simp only [if_pos hf]
    have rep : ∀ g : Fld, g.fits = true → F.WK_DROP_FIFO_LOST.apart g = true → (F.TILE_STAT_OVF_CNT.ix 4 t).apart g = true →
        ((z.sat (F.TILE_STAT_OVF_CNT.ix 4 t)).sat F.WK_DROP_FIFO_LOST).g g = z.g g := by
      intro g h1 h2 h3
      exact (Worker.g_s_apart _ _ _ _ h1 h2).trans (Worker.g_s_apart _ _ _ _ h1 h3)
    refine ⟨?_, ?_, ?_, ?_⟩
    · intro b; simp
    · simp
    · rw [Worker.out_raise]
      have : ((z.sat (F.TILE_STAT_OVF_CNT.ix 4 t)).sat F.WK_DROP_FIFO_LOST).reports F.WK_FLAGS_FIFO_OVF = z.reports F.WK_FLAGS_FIFO_OVF := by
        unfold Worker.reports Worker.b
        rw [rep, rep]
        · decide
        · decide
        · simp [Fld.apart, Fld.ix, F.TILE_STAT_OVF_CNT, F.WK_FLAG_EN_FLAG_EN]; omega
        · decide
        · decide
        · simp [Fld.apart, Fld.ix, F.TILE_STAT_OVF_CNT, F.WK_FLAGS_FIFO_OVF]
      rw [this]; rfl
    · intro b
      rw [Worker.word_raise, Worker.word_sat, Worker.word_sat]
      have : (z.sat (F.TILE_STAT_OVF_CNT.ix 4 t)).g F.WK_DROP_FIFO_LOST = z.g F.WK_DROP_FIFO_LOST :=
        Worker.g_s_apart _ _ _ _ (by decide) (by simp [Fld.apart, Fld.ix, F.TILE_STAT_OVF_CNT, F.WK_DROP_FIFO_LOST])
      rw [this]
      simp [putAll]
  · simp only [if_neg hf]
    by_cases hm : z.marked = true
    · simp only [hm, if_true, Bool.true_eq_false, if_false, List.append_nil]
      exact Worker.ringWrite_took _ _ _ _ _
    · have hm' : z.marked = false := by simpa using hm
      simp only [hm', if_true, if_false, Bool.false_eq_true]
      refine ⟨?_, ?_, ?_, ?_⟩
      · intro b; rw [Worker.tile_setTile, Worker.tile_high]
      · intro b; simp [putAll, Worker.word_high]
      · simp [Worker.setTile]
      · simp [Worker.setTile]

namespace Machine

/-- What a command of a live worker answers: a next state in which that worker alone has changed, as the command says. -/
theorem State.workerDoes_wkr (s : State) (c : Instr) (w : Nat) (f : Worker → Worker) (P : Worker → Prop)
    (he : exec c s = s.wkr w f) (ha : s.alive w) (hp : P (f (s.chip.worker w))) : s.workerDoes c w P := by
  refine ⟨_, he.trans (State.wkr_alive s w f ha.1 ha.2), ⟨rfl, rfl, rfl, ?_⟩, ?_⟩
  · intro k hk
    show (s.chip.setWorker w (f (s.chip.worker w))).worker k = _
    rw [Chip.worker_setWorker, if_neg hk]
  · show P ((s.chip.setWorker w (f (s.chip.worker w))).worker w)
    rw [Chip.worker_setWorker_same]; exact hp

/-- A worker without supply, or held in reset, is left as it is. -/
theorem State.wkr_dead (s : State) (w : Nat) (f : Worker → Worker) (h : ¬ s.alive w) : s.wkr w f = .next s := by
  unfold State.wkr Chip.modW
  unfold State.alive at h
  by_cases h1 : (s.chip.worker w).ctl.powered = true <;> by_cases h2 : (s.chip.worker w).ctl.inReset = false <;> simp_all

end Machine
end Sys2Proof
end

