-- ==== Sys2Proof/WellFormed.lean ====
section
/-!
DEFINITION. WellFormed.lean: the operands a command may carry: numbers of parts the chipset has (R22, R36, R45, R58, R296,
R300, R322, R327, R337, R380, R416, R479).
-/
namespace Sys2Proof

/-- A port of the chipset (R25, R45). -/
def PortRef.wf : PortRef → Bool
  | .mgr p => decide (p < 130)
  | .worker k _ => decide (k < 1024)

/-- Whose registers a write may address, at which addresses, and in which size: a CMD carries whole words (R10, R44, R47). -/
def Target.wf (a : Nat) (size : AccSize) : Target → Bool
  | .mgr => decide (a < 2 ^ 32)
  | .worker k => size == .word && decide (k < 1024 ∧ a < 2 ^ 16)

/-- The operands of a command name parts the chipset has. -/
def Instr.wf : Instr → Bool
  | .registerWrite tgt size a _ _ => tgt.wf a size
  | .leadingEdge w a p v _ => decide (w < 1024 ∧ a < 16384 ∧ p < 16 ∧ v < 50)
  | .validationEvent w a p _ => decide (w < 1024 ∧ a < 16384 ∧ p < 16)
  | .lowDiscFall w a p _ => decide (w < 1024 ∧ a < 16384 ∧ p < 16)
  | .totSaturate w a _ => decide (w < 1024 ∧ a < 16384)
  | .deadTimeEnd w a => decide (w < 1024 ∧ a < 16384)
  | .relaxExpiry w a => decide (w < 1024 ∧ a < 16384)
  | .rangeSettleEnd w a => decide (w < 1024 ∧ a < 16384)
  | .leakSaturate w a p _ => decide (w < 1024 ∧ a < 16384 ∧ p < 16)
  | .leakRecover w a => decide (w < 1024 ∧ a < 16384)
  | .calInEdge w _ _ => decide (w < 1024)
  | .injectionStrobe w => decide (w < 1024)
  | .injectionBurst w _ => decide (w < 1024)
  | .tilePowerDown w t _ => decide (w < 1024 ∧ t < 64)
  | .tilePowerOff w t => decide (w < 1024 ∧ t < 64)
  | .tilePowerUp w t => decide (w < 1024 ∧ t < 64)
  | .tileSettleEnd w t => decide (w < 1024 ∧ t < 64)
  | .pixelScrub w _ => decide (w < 1024)
  | .noisyPixelMask slot a _ _ => decide (slot < 1024 ∧ a < 16384)
  | .trimUpdateCycle slot _ => decide (slot < 1024)
  | .pulserHit w p v _ => decide (w < 1024 ∧ p < 16 ∧ v < 50)
  | .calTableComplete w _ => decide (w < 1024)
  | .calFg w => decide (w < 1024)
  | .fgPassEnd w => decide (w < 1024)
  | .swapGo w t => decide (w < 1024 ∧ t < 64)
  | .tblDataAccess w _ _ => decide (w < 1024)
  | .cntLoRead w => decide (w < 1024)
  | .tableScrub w _ _ => decide (w < 1024)
  | .tableInitDone w => decide (w < 1024)
  | .arbiterMove w => decide (w < 1024)
  | .uplinkSlot w _ => decide (w < 1024)
  | .pairWaitExpiry w => decide (w < 1024)
  | .timeReferenceDue w => decide (w < 1024)
  | .sightingWindowExpiry w t => decide (w < 1024 ∧ t < 64)
  | .forwardedBlockArrival w => decide (w < 1024)
  | .modeChange w _ => decide (w < 1024)
  | .markReceived w _ => decide (w < 1024)
  | .markServeStart w => decide (w < 1024)
  | .markScanEnd w => decide (w < 1024)
  | .markCopy w => decide (w < 1024)
  | .throttleReceived w _ => decide (w < 1024)
  | .trimReceived w _ _ => decide (w < 1024)
  | .flagRiseReport w flag => decide (w < 1024 ∧ flag < 20)
  | .monitorPeriodExpiry w => decide (w < 1024)
  | .workerEnable w => decide (w < 1024)
  | .workerDisable w => decide (w < 1024)
  | .oqHwmWrite w _ => decide (w < 1024)
  | .slipHwmWrite w _ => decide (w < 1024)
  | .fifoHwmWrite w t _ => decide (w < 1024 ∧ t < 64)
  | .blockReceived port _ phase => port.wf && decide (phase < 8)
  | .lossOfSignal port => port.wf
  | .signalReturn port => port.wf
  | .noLockTimeout port => port.wf
  | .testSequenceStart port => port.wf
  | .testSequenceAbandon port => port.wf
  | .rejoinBackoffExpiry port => port.wf
  | .gridSlewEnd w _ => decide (w < 1024)
  | .eqFreeze port _ => port.wf
  | .eqResume port => port.wf
  | .eqCapture port _ => port.wf
  | .errorInject port _ => port.wf
  | .testModeSet port _ => port.wf
  | .svcEnChange port _ => port.wf
  | .cntClr port => port.wf
  | .wckSelect w => decide (w < 1024)
  | .enumerationCommand w _ => decide (w < 1024)
  | .enumeratePair n => decide (n < 64)
  | .unseenReenumerate p => decide (p < 128)
  | .prtCmdGo p _ => decide (p < 128)
  | .replyReceived p => decide (p < 128)
  | .replyTimeout p => decide (p < 128)
  | .workerCmdExecute w _ _ => decide (w < 1024)
  | .probeReceived w _ sub => decide (w < 1024 ∧ sub < 800)
  | .epochEndSend w => decide (w < 1024)
  | .holdSelfRelease w _ => decide (w < 1024)
  | .keepaliveRead slot => decide (slot < 1024)
  | .plannedMove n => decide (n < 64)
  | .echoReceived p _ => decide (p < 128)
  | .probeTimeout slot => decide (slot < 1024)
  | .failOver n => decide (n < 64)
  | .livenessTimeout slot => decide (slot < 1024)
  | .workerLost slot => decide (slot < 1024)
  | .lostWorkerReturn slot _ => decide (slot < 1024)
  | .selfCheck w _ _ => decide (w < 1024)
  | .voteFault w => decide (w < 1024)
  | .drainTimeout slot => decide (slot < 1024)
  | .rebalanceCheck n => decide (n < 64)
  | .peerBlockForward _ _ => true
  | .peerPortSwitch => true
  | .ppsInEdge _ sub _ => decide (sub < 1600)
  | .ppsTimeout => true
  | .refInLoss _ => true
  | .padjWrite _ => true
  | .fadjWrite _ => true
  | .ptpServoTimeout => true
  | .reckoningBoundExceeded => true
  | .merSetGo => true
  | .sourceChange sel => decide (sel < 8)
  | .peerBeaconSend => true
  | .peerBeaconReceived _ _ => true
  | .peerBeaconMiss => true
  | .periodicBeacon => true
  | .beaconReceived w _ sub => decide (w < 1024 ∧ sub < 800)
  | .slewStep w => decide (w < 1024)
  | .beaconMiss w => decide (w < 1024)
  | .probeSend slot _ => decide (slot < 1024)
  | .hopStale ix _ => decide (ix < 2048)
  | .peerProbe _ => true
  | .merNowRead _ => true
  | .txtsPop => true
  | .poolServe p _ => decide (p < 128)
  | .throttleResend slot => decide (slot < 1024)
  | .shareInterval p => decide (p < 128)
  | .bucketClose g => decide (g < 32)
  | .absentTimeout q => decide (q < 8192)
  | .engineEmit e _ => decide (e < 224)
  | .queFlushGo _ => true
  | .flushTimeout p => decide (p < 128)
  | .streamRebalance q target => decide (q < 8192 ∧ target < 224)
  | .rseMigGo _ => true
  | .migrationTimeout => true
  | .sightingArrival => true
  | .tileSetExpiry set => decide (set < 256)
  | .markOutPulseEnd line => decide (line < 4)
  | .moutTest mask => decide (mask < 16)
  | .dcqHwmWrite p _ => decide (p < 128)
  | .poolMinWrite _ => true
  | .markInEdge line _ _ => decide (line < 4)
  | .deferredMark _ => true
  | .peerMarkReceived => true
  | .markTimeout e => decide (e < 4096)
  | .windowReady e => decide (e < 4096)
  | .windowExtract _ => true
  | .watchClose g => decide (g < 32)
  | .watchBuild g => decide (g < 32)
  | .watchDeadline g => decide (g < 32)
  | .spanWrite g _ => decide (g < 32)
  | .wakeHwm => true
  | .frameSend l => decide (l < 8)
  | .frameConfirm l => decide (l < 8)
  | .pfcReceived p enable quanta => decide (p < 9 ∧ enable < 256 ∧ quanta < 2 ^ 128)
  | .rxFrameDiscard p => decide (p < 9)
  | .pfcWatchdog p prio => decide (p < 9 ∧ prio < 8)
  | .laneFault p cause _ _ => decide (p < 9 ∧ cause < 8)
  | .firstResentFrame l _ => decide (l < 8)
  | .laneRecover p => decide (p < 9)
  | .monitorFrame => true
  | .factorMinWrite _ => true
  | .chartStore k _ => decide (k < 4)
  | .chartActivate k _ => decide (k < 4)
  | .chartErase k _ => decide (k < 4)
  | .chartBootActivate _ => true
  | .chartDigestCheck _ _ => true
  | .runEnSet => true
  | .consistencyCheckEnd => true
  | .runEnClear => true
  | .trimTargetWrite _ => true
  | .scrubWord m a _ => wordExists m a
  | .targetedTest m _ => decide (memWords m ≠ 0)
  | .remapInstall m => decide (memWords m ≠ 0)
  | .stupGo => true
  | .startupSelfTestEnd _ => true
  | .bypassAccess _ => true
  | .elogPop => true
  | .muFault cause => decide (cause < 256)
  | .muSwitchRequest => true
  | .muStandbyFault => true
  | .muSelfTestEnd u _ => decide (u < 2)
  | .checkpoint => true
  | .coreMismatch p => decide (p < 2)
  | .coreFailoverEnd => true
  | .coreSelfTestEnd p _ => decide (p < 2)
  | .coreReboot => true
  | .stackSefi k => decide (k < 8)
  | .stackTempRead k _ => decide (k < 8)
  | .doseRefreshChange k => decide (k < 8)
  | .settleEnd x => decide (x < 2)
  | .conversionEnd x _ => decide (x < 2)
  | .urgentTrigger _ => true
  | .hkIncfgWrite k _ => decide (k < 40)
  | .seqEnWrite _ => true
  | .hkBlankAssert => true
  | .hkBlankRelease => true
  | .blankLong => true
  | .hkTestGo _ => true
  | .hkTestEnd _ _ _ _ => true
  | .slopeSubinterval _ => true
  | .hkFifoPop => true
  | .hkLastRead k => decide (k < 40)
  | .vddSafeUp s1 s2 => decide (s1 < 256 ∧ s2 < 256)
  | .interlockSelfTestEnd _ _ _ => true
  | .channelOpen _ _ => true
  | .channelClosed _ _ => true
  | .discrepancyTimeout => true
  | .switchReadsOpen _ _ => true
  | .removalWatchEnd _ => true
  | .slopeValue _ => true
  | .rampTimeLimit => true
  | .monitorGap => true
  | .readbackMismatch which => decide (which < 3)
  | .precheckStep _ _ _ => true
  | .resetPressRelease _ => true
  | .resetStuck => true
  | .resetStuckClear => true
  | .sckCheck _ => true
  | .vddSafeLow => true
  | .helmRequest _ _ _ => true
  | .helmRead => true
  | .logRead => true
  | .attest => true
  | .keys => true
  | .netGet => true
  | .write _ => true
  | .chartChunk => true
  | .trimChunk => true
  | .trimCommit _ => true
  | .fwChunk => true
  | .fwCommit _ => true
  | .mark => true
  | .enrol => true
  | .revoke => true
  | .subscribe => true
  | .net => true
  | .rekey => true
  | .diag => true
  | .fuseRead => true
  | .roleEnd => true
  | .subscriptionLapse num => decide (num < 4)
  | .eventOccurrence e d => decide (e < 256 ∧ d < 4294967296)
  | .notificationSend num e => decide (num < 4 ∧ e < 256)
  | .eventRecordWrite e => decide (e < 256)
  | .logWrGo _ => true
  | .logRdGo => true
  | .logbookCommit _ => true
  | .nvmFailure _ => true
  | .optimeTick => true
  | .mgmtFrameReceived _ sub => decide (sub < 1600)
  | .mgmtFrameSend _ _ tsId sub => decide (tsId < 65536 ∧ sub < 1600)
  | .powerOnResetRelease bootSel _ _ => decide (bootSel < 4)
  | .resetNAssert => true
  | .resetNRelease bootSel _ => decide (bootSel < 4)
  | .resetNFailed bootSel _ => decide (bootSel < 4)
  | .resetNHonouredAgain => true
  | .supplyOutOfRange rail => decide (rail < 11)
  | .supplyBrownOut rail => decide (rail < 11)
  | .dieTempEvent _ => true
  | .tapLeaveReset => true
  | .workerPorRelease w => decide (w < 1024)
  | .workerRstN w => decide (w < 1024)
  | .linkLossReset w => decide (w < 1024)
  | .supplyReturn rail => decide (rail < 11)
  | .workerSupplyLoss w => decide (w < 1024)
  | .mgmtLinkChange _ => true
  | .laneLinkUp p => decide (p < 9)
  | .pfcPauseExpiry p prio => decide (p < 9 ∧ prio < 8)
  | .stackRetrainEnd k _ => decide (k < 8)
  | .indexEntryRebuilt page => decide (page < 63488)
  | .wordReloaded m a => wordExists m a
  | .testSequenceEnd port => port.wf

end Sys2Proof
end

