-- ==== Sys2Proof/Tests/Slice0.lean ====
section
/-!
SUPPORT. Tests/Slice0.lean: tests of the model. Ill-formed commands; the worked examples of the manual; single steps; and,
for every statement of Certificates/Slice0/Obligations.lean that has hypotheses, states and operands that meet them, clause
by clause. Expected values come from the manual's rules and examples, never from the model.
-/
namespace Sys2Proof.Tests
set_option Elab.async false
open Sys2Proof Sys2Proof.Machine

/-! ## Ill-formed commands -/

/-- Commands with one operand at the first value out of its range. -/
def illFormed1 : List Instr := [
  .registerWrite .mgr .word (2 ^ 32) 0 false, .registerWrite (.worker 1024) .word 0 0 false,
  .registerWrite (.worker 0) .word (2 ^ 16) 0 false, .registerWrite (.worker 0) .half 0 0 false, .leadingEdge 1024 0 0 0 .crossing,
  .leadingEdge 0 16384 0 0 .crossing, .leadingEdge 0 0 16 0 .crossing, .leadingEdge 0 0 0 50 .crossing, .validationEvent 1024 0 0 .crossing,
  .validationEvent 0 16384 0 .crossing, .validationEvent 0 0 16 .crossing, .lowDiscFall 1024 0 0 false, .lowDiscFall 0 16384 0 false,
  .lowDiscFall 0 0 16 false, .totSaturate 1024 0 false, .totSaturate 0 16384 false, .deadTimeEnd 1024 0, .deadTimeEnd 0 16384,
  .relaxExpiry 1024 0, .relaxExpiry 0 16384, .rangeSettleEnd 1024 0, .rangeSettleEnd 0 16384, .leakSaturate 1024 0 0 false,
  .leakSaturate 0 16384 0 false, .leakSaturate 0 0 16 false, .leakRecover 1024 0, .leakRecover 0 16384, .calInEdge 1024 false 0,
  .injectionStrobe 1024, .injectionBurst 1024 0, .tilePowerDown 1024 0 .write, .tilePowerDown 0 64 .write, .tilePowerOff 1024 0,
  .tilePowerOff 0 64, .tilePowerUp 1024 0, .tilePowerUp 0 64, .tileSettleEnd 1024 0, .tileSettleEnd 0 64, .pixelScrub 1024 .clean,
  .noisyPixelMask 1024 0 false 0, .noisyPixelMask 0 16384 false 0, .trimUpdateCycle 1024 [], .pulserHit 1024 0 0 false,
  .pulserHit 0 16 0 false, .pulserHit 0 0 50 false, .calTableComplete 1024 false, .calFg 1024, .fgPassEnd 1024, .swapGo 1024 0, .swapGo 0 64,
  .tblDataAccess 1024 none .clean, .cntLoRead 1024, .tableScrub 1024 .clean .clean, .tableInitDone 1024, .arbiterMove 1024,
  .uplinkSlot 1024 false, .pairWaitExpiry 1024, .timeReferenceDue 1024, .sightingWindowExpiry 1024 0, .sightingWindowExpiry 0 64]

/-- Commands with one operand at the first value out of its range. -/
def illFormed2 : List Instr := [
  .forwardedBlockArrival 1024, .modeChange 1024 false, .markReceived 1024 false, .markServeStart 1024, .markScanEnd 1024, .markCopy 1024,
  .throttleReceived 1024 false, .trimReceived 1024 false [], .flagRiseReport 1024 0, .flagRiseReport 0 20, .monitorPeriodExpiry 1024,
  .workerEnable 1024, .workerDisable 1024, .oqHwmWrite 1024 0, .slipHwmWrite 1024 0, .fifoHwmWrite 1024 0 0, .fifoHwmWrite 0 64 0,
  .blockReceived (.mgr 130) 0 0, .blockReceived (.worker 1024 false) 0 0, .blockReceived (.mgr 0) 0 8, .lossOfSignal (.mgr 130),
  .lossOfSignal (.worker 1024 false), .signalReturn (.mgr 130), .signalReturn (.worker 1024 false), .noLockTimeout (.mgr 130),
  .noLockTimeout (.worker 1024 false), .testSequenceStart (.mgr 130), .testSequenceStart (.worker 1024 false),
  .testSequenceAbandon (.mgr 130), .testSequenceAbandon (.worker 1024 false), .rejoinBackoffExpiry (.mgr 130),
  .rejoinBackoffExpiry (.worker 1024 false), .gridSlewEnd 1024 false, .eqFreeze (.mgr 130) ⟨0, 0, 0, 0⟩,
  .eqFreeze (.worker 1024 false) ⟨0, 0, 0, 0⟩, .eqResume (.mgr 130), .eqResume (.worker 1024 false), .eqCapture (.mgr 130) ⟨0, 0, 0, 0⟩,
  .eqCapture (.worker 1024 false) ⟨0, 0, 0, 0⟩, .errorInject (.mgr 130) 0, .errorInject (.worker 1024 false) 0, .testModeSet (.mgr 130) 0,
  .testModeSet (.worker 1024 false) 0, .svcEnChange (.mgr 130) false, .svcEnChange (.worker 1024 false) false, .cntClr (.mgr 130),
  .cntClr (.worker 1024 false), .wckSelect 1024, .enumerationCommand 1024 false, .enumeratePair 64, .unseenReenumerate 128, .prtCmdGo 128 0,
  .replyReceived 128, .replyTimeout 128, .workerCmdExecute 1024 false .clean, .probeReceived 1024 false 0, .probeReceived 0 false 800,
  .epochEndSend 1024, .holdSelfRelease 1024 false, .keepaliveRead 1024]

/-- Commands with one operand at the first value out of its range. -/
def illFormed3 : List Instr := [
  .plannedMove 64, .echoReceived 128 0, .probeTimeout 1024, .failOver 64, .livenessTimeout 1024, .workerLost 1024,
  .lostWorkerReturn 1024 false, .selfCheck 1024 false false, .voteFault 1024, .drainTimeout 1024, .rebalanceCheck 64,
  .ppsInEdge false 1600 0, .sourceChange 8, .beaconReceived 1024 false 0, .beaconReceived 0 false 800, .slewStep 1024, .beaconMiss 1024,
  .probeSend 1024 none, .hopStale 2048 none, .poolServe 128 none, .throttleResend 1024, .shareInterval 128, .bucketClose 32,
  .absentTimeout 8192, .engineEmit 224 none, .flushTimeout 128, .streamRebalance 8192 0, .streamRebalance 0 224, .tileSetExpiry 256,
  .markOutPulseEnd 4, .moutTest 16, .dcqHwmWrite 128 0, .markInEdge 4 false 0, .markTimeout 4096, .windowReady 4096, .watchClose 32,
  .watchBuild 32, .watchDeadline 32, .spanWrite 32 0, .frameSend 8, .frameConfirm 8, .pfcReceived 9 0 0, .pfcReceived 0 256 0,
  .pfcReceived 0 0 (2 ^ 128), .rxFrameDiscard 9, .pfcWatchdog 9 0, .pfcWatchdog 0 8, .laneFault 9 0 0 0, .laneFault 0 8 0 0,
  .firstResentFrame 8 none, .laneRecover 9, .chartStore 4 false, .chartActivate 4 false, .chartErase 4 false,
  .scrubWord 11 0 ⟨.scrub, 0, 0, false, none⟩, .scrubWord 2 131072 ⟨.scrub, 0, 0, false, none⟩, .targetedTest 11 false, .remapInstall 11,
  .muFault 256, .muSelfTestEnd 2 false]

/-- Commands with one operand at the first value out of its range. -/
def illFormed4 : List Instr := [
  .coreMismatch 2, .coreSelfTestEnd 2 false, .stackSefi 8, .stackTempRead 8 0, .doseRefreshChange 8, .settleEnd 2, .conversionEnd 2 0,
  .hkIncfgWrite 40 0, .hkLastRead 40, .vddSafeUp 256 0, .vddSafeUp 0 256, .readbackMismatch 3, .subscriptionLapse 4, .eventOccurrence 256 0,
  .eventOccurrence 0 4294967296, .notificationSend 4 0, .notificationSend 0 256, .eventRecordWrite 256, .mgmtFrameReceived [] 1600,
  .mgmtFrameSend [] false 65536 0, .mgmtFrameSend [] false 0 1600, .powerOnResetRelease 4 false false, .resetNRelease 4 false,
  .resetNFailed 4 false, .supplyOutOfRange 11, .supplyBrownOut 11, .workerPorRelease 1024, .workerRstN 1024, .linkLossReset 1024,
  .supplyReturn 11, .workerSupplyLoss 1024, .laneLinkUp 9, .pfcPauseExpiry 9 0, .pfcPauseExpiry 0 8, .stackRetrainEnd 8 false,
  .indexEntryRebuilt 63488, .scrubWord 11 0 ⟨.scrub, 0, 0, false, none⟩, .scrubWord 2 131072 ⟨.scrub, 0, 0, false, none⟩,
  .testSequenceEnd (.mgr 130), .testSequenceEnd (.worker 1024 false)]

/-- Commands with every operand at the last value of its range. -/
def edge1 : List Instr := [
  .registerWrite .mgr .byte (2 ^ 32 - 1) 0 false, .registerWrite (.worker 1023) .word (2 ^ 16 - 1) 0 false,
  .leadingEdge 1023 16383 15 49 .crossing, .validationEvent 1023 16383 15 .crossing, .lowDiscFall 1023 16383 15 false,
  .totSaturate 1023 16383 false, .deadTimeEnd 1023 16383, .relaxExpiry 1023 16383, .rangeSettleEnd 1023 16383,
  .leakSaturate 1023 16383 15 false, .leakRecover 1023 16383, .calInEdge 1023 false 0, .injectionStrobe 1023, .injectionBurst 1023 0,
  .tilePowerDown 1023 63 .write, .tilePowerOff 1023 63, .tilePowerUp 1023 63, .tileSettleEnd 1023 63, .pixelScrub 1023 .clean,
  .noisyPixelMask 1023 16383 false 0, .trimUpdateCycle 1023 [], .pulserHit 1023 15 49 false, .calTableComplete 1023 false, .calFg 1023,
  .fgPassEnd 1023, .swapGo 1023 63, .tblDataAccess 1023 none .clean, .cntLoRead 1023, .tableScrub 1023 .clean .clean, .tableInitDone 1023,
  .arbiterMove 1023, .uplinkSlot 1023 false, .pairWaitExpiry 1023, .timeReferenceDue 1023, .sightingWindowExpiry 1023 63,
  .forwardedBlockArrival 1023, .modeChange 1023 false, .markReceived 1023 false, .markServeStart 1023, .markScanEnd 1023, .markCopy 1023,
  .throttleReceived 1023 false, .trimReceived 1023 false [], .flagRiseReport 1023 19, .monitorPeriodExpiry 1023, .workerEnable 1023,
  .workerDisable 1023, .oqHwmWrite 1023 0, .slipHwmWrite 1023 0, .fifoHwmWrite 1023 63 0, .blockReceived (.worker 1023 true) 0 7,
  .lossOfSignal (.worker 1023 true), .signalReturn (.worker 1023 true), .noLockTimeout (.worker 1023 true),
  .testSequenceStart (.worker 1023 true), .testSequenceAbandon (.worker 1023 true), .rejoinBackoffExpiry (.worker 1023 true),
  .gridSlewEnd 1023 false, .eqFreeze (.worker 1023 true) ⟨0, 0, 0, 0⟩, .eqResume (.worker 1023 true)]

/-- Commands with every operand at the last value of its range. -/
def edge2 : List Instr := [
  .eqCapture (.worker 1023 true) ⟨0, 0, 0, 0⟩, .errorInject (.worker 1023 true) 0, .testModeSet (.worker 1023 true) 0,
  .svcEnChange (.worker 1023 true) false, .cntClr (.worker 1023 true), .wckSelect 1023, .enumerationCommand 1023 false, .enumeratePair 63,
  .unseenReenumerate 127, .prtCmdGo 127 0, .replyReceived 127, .replyTimeout 127, .workerCmdExecute 1023 false .clean,
  .probeReceived 1023 false 799, .epochEndSend 1023, .holdSelfRelease 1023 false, .keepaliveRead 1023, .plannedMove 63, .echoReceived 127 0,
  .probeTimeout 1023, .failOver 63, .livenessTimeout 1023, .workerLost 1023, .lostWorkerReturn 1023 false, .selfCheck 1023 false false,
  .voteFault 1023, .drainTimeout 1023, .rebalanceCheck 63, .ppsInEdge false 1599 0, .sourceChange 7, .beaconReceived 1023 false 799,
  .slewStep 1023, .beaconMiss 1023, .probeSend 1023 none, .hopStale 2047 none, .poolServe 127 none, .throttleResend 1023, .shareInterval 127,
  .bucketClose 31, .absentTimeout 8191, .engineEmit 223 none, .flushTimeout 127, .streamRebalance 8191 223, .tileSetExpiry 255,
  .markOutPulseEnd 3, .moutTest 15, .dcqHwmWrite 127 0, .markInEdge 3 false 0, .markTimeout 4095, .windowReady 4095, .watchClose 31,
  .watchBuild 31, .watchDeadline 31, .spanWrite 31 0, .frameSend 7, .frameConfirm 7, .pfcReceived 8 255 (2 ^ 128 - 1), .rxFrameDiscard 8,
  .pfcWatchdog 8 7, .laneFault 8 7 0 0]

/-- Commands with every operand at the last value of its range. -/
def edge3 : List Instr := [
  .firstResentFrame 7 none, .laneRecover 8, .chartStore 3 false, .chartActivate 3 false, .chartErase 3 false,
  .scrubWord 2 131071 ⟨.scrub, 0, 0, false, none⟩, .targetedTest 23 false, .remapInstall 23, .muFault 255, .muSelfTestEnd 1 false,
  .coreMismatch 1, .coreSelfTestEnd 1 false, .stackSefi 7, .stackTempRead 7 0, .doseRefreshChange 7, .settleEnd 1, .conversionEnd 1 0,
  .hkIncfgWrite 39 0, .hkLastRead 39, .vddSafeUp 255 255, .readbackMismatch 2, .subscriptionLapse 3, .eventOccurrence 255 4294967295,
  .notificationSend 3 255, .eventRecordWrite 255, .mgmtFrameReceived [] 1599, .mgmtFrameSend [] false 65535 1599,
  .powerOnResetRelease 3 false false, .resetNRelease 3 false, .resetNFailed 3 false, .supplyOutOfRange 10, .supplyBrownOut 10,
  .workerPorRelease 1023, .workerRstN 1023, .linkLossReset 1023, .supplyReturn 10, .workerSupplyLoss 1023, .laneLinkUp 8,
  .pfcPauseExpiry 8 7, .stackRetrainEnd 7 false, .indexEntryRebuilt 63487, .scrubWord 2 131071 ⟨.scrub, 0, 0, false, none⟩,
  .testSequenceEnd (.worker 1023 true)]

theorem test_illFormed1_refused : ∀ i ∈ illFormed1, i.wf = false := by decide +kernel

theorem test_illFormed2_refused : ∀ i ∈ illFormed2, i.wf = false := by decide +kernel

theorem test_illFormed3_refused : ∀ i ∈ illFormed3, i.wf = false := by decide +kernel

theorem test_illFormed4_refused : ∀ i ∈ illFormed4, i.wf = false := by decide +kernel

theorem test_edge1_wellFormed : ∀ i ∈ edge1, i.wf = true := by decide +kernel

theorem test_edge2_wellFormed : ∀ i ∈ edge2, i.wf = true := by decide +kernel

theorem test_edge3_wellFormed : ∀ i ∈ edge3, i.wf = true := by decide +kernel

/-! ## Worked examples of the manual -/

/-- A walk table with entries 41 and 42 of the example of R118, in the table of G1. -/
def walkExample : Worker :=
  { Worker.init with tab := { Worker.init.tab with
    walk := [(105, BitVec.ofNat 32 (260 * 2 ^ 18 + 11 * 2 ^ 10 + 16 * 4)), (106, BitVec.ofNat 32 (244 * 2 ^ 18))] } }.s F.TC_CTL_SLOPE_EN 1

/-- 03_worker_time_capture, example of R118: ToT 614 has index 41, and the walk is 1,052 quarter LSBs. -/
theorem test_walk_example : walkIdx 614 = 41 ∧ walkLower 41 = 576 ∧ walkWidth 41 = 64 ∧ walkExample.walk4 1 614 12 = 1052 := by decide +kernel

/-- 03_worker_time_capture, example of R118: the hit is placed at 800 (C − 1) + 742. -/
theorem test_time_example : correctedTime 0x41C0A5 673 (-37) 1052 = 800 * 0x41C0A4 + 742 := by decide +kernel

/-- 03_worker_time_capture, example of R120. -/
theorem test_record_example : (mkHit 0 0x2EA9 (800 * 0x41C0A4 + 742) 614 1).bits = 0x2EA91C0A4B98999#60 := by decide +kernel

/-- 04_worker_readout_and_sightings, example of R144. -/
theorem test_extension_example : extendCoarse 0x41C00C0000 0x4A4B7 = 0x41C004A4B7 := by decide +kernel

/-- 01_system_architecture and 02_worker_pixel_front_end: the pixel at row 93, column 41 is in tile 42. -/
theorem test_tile_example : tileOf 0x2EA9 = 42 ∧ 93 * 128 + 41 = 0x2EA9 := by decide +kernel

/-- 02_worker_pixel_front_end and 04: the addresses of the registers of tile 42. -/
theorem test_tile_registers : (F.TILE_THR_THR_LO.ix 4 42).reg = 0x3A8 ∧ (F.TILE_AFE_PG.ix 4 42).reg = 0x3A9 ∧ (F.TILE_SGT_ST.ix 4 42).reg = 0x3AA ∧
    (F.TILE_STAT_FIFO_HWM.ix 4 42).reg = 0x3AB := by decide +kernel

/-- 01_system_architecture: the window of port 37. 06_loops_and_worker_control: PRT_SLOT of slot 330. -/
theorem test_window_examples : windowBase 37 = 0x40109400 ∧ (slotFld F.PRT_SLOT_STATE 330).reg = 0x4010A228 := by decide +kernel

/-- 00_scope, example of GBL_ID. -/
theorem test_id_example : State.reset.chip.word 0x40000000 = 0x0A313000#32 := by decide +kernel

/-- The scrambled payload of the example of R177. -/
def stuffingExample : List Bool :=
  List.replicate 23 true ++ [false] ++ (List.range 35).map (fun i => i % 2 == 0) ++ List.replicate 20 false ++ [true] ++
    (List.range 40).map (fun i => i % 2 == 0)

/-- The line bits of the example, sent from a transmitter after reset. -/
def stuffedExample : List Bool :=
  (encodeBlock LineTx.init ⟨1, BitVec.ofNat 120 (bitsNat (descrambleAll (BitVec.allOnes 47) stuffingExample).1)⟩).1

/-- 05_plom_links, stuffing example: where each bit falls on the line. -/
theorem test_stuffing_example : stuffedExample.length = 128 ∧
    stuffedExample.take 27 = [false, true] ++ List.replicate 19 true ++ [false] ++ List.replicate 4 true ++ [false] ∧
    (stuffedExample.drop 61).take 22 = [true] ++ List.replicate 20 false ++ [true] ∧ (stuffedExample.drop 83).take 1 = [true] ∧
    stuffedExample.drop 123 = [false, true, false, true, false] := by decide +kernel

/-- 05_plom_links, R187: the code of each control block type, any two apart in four bits or more. -/
theorem test_ctl_types : (mkIdle 1 2 3 4 0).pay.toNat / 2 ^ 112 = 0x1E ∧ (mkMark 1 2 3 4).pay.toNat / 2 ^ 112 = 0x4B ∧
    (mkSighting 1 2 3).pay.toNat / 2 ^ 112 = 0x33 ∧ (mkPktStart 1 0 1 0).pay.toNat / 2 ^ 112 = 0xAA := by decide +kernel

/-- 11_integrity_and_fault_handling: h(17) is 0x32 and h(0) is 0x07. -/
theorem test_ecc_columns : secH[17]? = some 0x32 ∧ secH[0]? = some 0x07 ∧ secH.length = 64 := by decide +kernel

/-- 11_integrity_and_fault_handling, example of INT_BYP: an inverted D[0] is found with Σ 0x07 and corrected. -/
theorem test_ecc_example : secDecode (0x123456789 ^^^ 1) (secCheck 0x123456789) = (.corrected, 0x123456789, 0x07) := by decide +kernel

/-- Hits of slot 83 in the bucket of 4,096 cycles that starts at 0, as the example of hit packing gives them. -/
def packExample : List WEnt :=
  [1700, 1520, 3100000].map fun t => ⟨0, .hit 83 false false (t / 800) (mkHit 0 5 t 7 1).bits⟩

/-- 09_wake_watches_and_egress: the three records of the example take 165 bits with their header, coded as the example gives. -/
theorem test_packing_example : (packEnts 12 ⟨0, none, 0, 0⟩ [] packExample).length = 165 ∧ tdBits 12 0 0 1700 = true :: false :: beBits 14 0xD48 ∧
    tdBits 12 0 1700 1520 = false :: beBits 10 359 ∧ tdBits 12 0 1520 3100000 = true :: true :: beBits 22 3100000 := by decide +kernel

/-- The first segment of watch 8,000 of group 3, of the example of R339. -/
def headerExample : EObj :=
  ⟨.watch, 3, 12, 8000, 0, 0x5E1C4A81F400, 0x5E1C4A81F400 + 63999, 2, 0, false, false, false, false, 0, 0, none, 0, 0, 0, [], 0, 0, 0, 0, [], 0⟩

/-- 09_wake_watches_and_egress, example of R339: the header bytes. -/
theorem test_header_example : aedurnHeader headerExample 0x207 2 100000 8192 true false =
    [0xAE, 0x11, 0x80, 0x83, 0x02, 0x07, 0xC2, 0x00, 0x00, 0x01, 0x86, 0xA0, 0x00, 0x00, 0x1F, 0x40,
     0x00, 0x00, 0x20, 0x00, 0x5E, 0x1C, 0x4A, 0x81, 0xF4, 0x00, 0x00, 0x00, 0xFA, 0x00, 0x00, 0x00] := by decide +kernel

/-- 13_bias_interlock: SAFE_SEL 0xB1 is category B, 30 ms, with a discharge path, 50 Hz, HKV[10], 4 s. -/
theorem test_safe_sel_example : let i : Interlock := { Interlock.off with sel := 0xB1 }
    i.catB = true ∧ i.tdisc = 30 * 640000 ∧ i.hasDsc = true ∧ i.hz60 = false ∧ i.slopeIn = 34 ∧ i.rampSec = 4 ∧ Interlock.selValid 0xB1 0xB1 = true := by
  decide +kernel

/-! ## Single steps -/

/-- The state after a command; the same state where it does not complete. -/
def after (c : Instr) (s : State) : State :=
  match exec c s with
  | .next t => t
  | _ => s

/-- A block idles one MCK cycle on an empty queue. -/
theorem test_idle_ticks : ∃ t, step State.reset = .next t ∧ t.chip.tick = 1 := ⟨_, rfl, by decide +kernel⟩

/-- R166: an enable before the tables are initialised is refused with 0xA4. -/
theorem test_enable_needs_init : ((after (.workerEnable 0) State.reset).chip.worker 0).g F.WK_GSTAT_REASON = 0xA4 := by decide +kernel

/-- R60, R97: a masked pixel, as after reset, starts no pulse. -/
theorem test_masked_pixel : (((after (.leadingEdge 0 5 3 17 .crossing) State.reset).chip.worker 0).px 5).pulse = none := by decide +kernel

/-- R380: MEM 0x02 has 131,072 words, and MEM 0x0B is reserved. -/
theorem test_no_such_word : exec (.scrubWord 0x02 131072 ⟨.scrub, 0, 0, false, none⟩) State.reset = .fault .noSuchWord ∧
    exec (.targetedTest 0x0B true) State.reset = .fault .noSuchWord := ⟨rfl, rfl⟩

/-- R510: event 4 rises above 115 °C, not at it. -/
theorem test_die_hot : (after (.dieTempEvent 115) State.reset).chip.pend 4 = false ∧ (after (.dieTempEvent 116) State.reset).chip.pend 4 = true := by
  decide +kernel

/-- R510: it rises again only below 110 °C. -/
theorem test_die_cools : (after (.dieTempEvent 110) (after (.dieTempEvent 116) State.reset)).chip.pwr.hot115 = true ∧
    (after (.dieTempEvent 109) (after (.dieTempEvent 116) State.reset)).chip.pwr.hot115 = false := by decide +kernel

/-- R452: 3,640 to 4,350 SCK cycles a millisecond are in range. -/
theorem test_sck_limits : let s : State := { State.reset with saf := { Interlock.off with up := true, st := .safe } }
    (after (.sckCheck 3640) s).saf.sckFault = false ∧ (after (.sckCheck 4350) s).saf.sckFault = false ∧
    (after (.sckCheck 3639) s).saf.sckFault = true ∧ (after (.sckCheck 4351) s).saf.sckFault = true := by decide +kernel

/-- R16: a register write with no role in context leaves a register that is writable only by a role. -/
theorem test_write_refused : (after (.registerWrite .mgr .word 0x44000000 0xFFFFFFFF true) State.reset).chip.word 0x44000000 = State.reset.chip.word 0x44000000 := by
  decide +kernel

/-- R47: a worker's registers lie at 16-bit addresses of their own; WK_ID is read only. -/
theorem test_worker_id : (after (.registerWrite (.worker 3) .word 0 0xFFFFFFFF true) State.reset).chip.worker 3 = Worker.init := by decide +kernel

/-- R170 to R177: two blocks in a row reach a receiver in step unchanged. -/
theorem test_line_two_blocks : let a := encodeBlock LineTx.init (mkIdle 3 0x1234 5 6 1)
    let b := encodeBlock a.2 (mkMark 1 2 3 4)
    let x := decodeBlock ⟨0, false, BitVec.allOnes 47⟩ a.1
    x.1 = mkIdle 3 0x1234 5 6 1 ∧ (decodeBlock x.2.2 b.1).1 = mkMark 1 2 3 4 := by decide +kernel

/-! ## Small states

Each helper changes one part of a state; a state of a test is a chain of them. -/

/-- Write a field of a manager register. -/
def mgrFld (f : Fld) (n : Nat) (s : State) : State := { s with chip := s.chip.s f n }
def onChip (f : Chip → Chip) (s : State) : State := { s with chip := f s.chip }
def onIlk (f : Interlock → Interlock) (s : State) : State := { s with saf := f s.saf }
def onWorker (k : Nat) (f : Worker → Worker) (s : State) : State := { s with chip := s.chip.setWorker k (f (s.chip.worker k)) }
/-- Write a field of a worker register. -/
def wkrFld (k : Nat) (f : Fld) (n : Nat) (s : State) : State := onWorker k (fun w => w.s f n) s
def onMgrPort (p : Nat) (f : Port → Port) (s : State) : State := { s with chip := s.chip.setPort p (f (s.chip.port p)) }
def onPixel (k a : Nat) (f : Pixel → Pixel) (s : State) : State :=
  onWorker k (fun x => { x with pixels := AMap.upd (always Pixel.init) x.pixels a f }) s
def onTile (k t : Nat) (f : Tile → Tile) (s : State) : State :=
  onWorker k (fun x => { x with tiles := AMap.upd (always Tile.init) x.tiles t f }) s
def onOut (k : Nat) (f : WOut → WOut) (s : State) : State := onWorker k (fun x => { x with out := f x.out }) s
def onMarks (k : Nat) (f : WMarks → WMarks) (s : State) : State := onWorker k (fun x => { x with marks := f x.marks }) s
def onCtl (k : Nat) (f : WCtl → WCtl) (s : State) : State := onWorker k (fun x => { x with ctl := f x.ctl }) s
def onTime (k : Nat) (f : WTime → WTime) (s : State) : State := onWorker k (fun x => { x with time := f x.time }) s
def onWkrPort (k : Nat) (west : Bool) (f : Port → Port) (s : State) : State := onWorker k (fun x => x.modPort west f) s
/-- A port in service: locked, its rejoin test passed, and the far end in service (R183). -/
def upPort (wk : Bool) (p : Port) : Port :=
  ((({ p with los := false, rx := { p.rx with lock := .locked, passed := true } }.s wk F.LNK_STAT_LOCKED 1).s wk F.LNK_STAT_RX_ST 3).s wk
    F.LNK_STAT_FAR_ST 3).s wk F.LNK_CTL_SVC_EN 1
def upWkr (k : Nat) (west : Bool) (s : State) : State := onWkrPort k west (upPort true) s
def upMgr (p : Nat) (s : State) : State := onMgrPort p (upPort false) s
/-- Blocks that a worker's port, or a manager's, has received and not yet acted on. -/
def received (k : Nat) (west : Bool) (l : List Block) (s : State) : State :=
  onWkrPort k west (fun p => { p with inbox := p.inbox ++ l.map .block }) s
def mgrReceived (p : Nat) (l : List Block) (s : State) : State := onMgrPort p (fun x => { x with inbox := x.inbox ++ l.map .block }) s
def dataB (n : Nat) : Block := ⟨1, BitVec.ofNat 120 n⟩
def pulse0 : Pulse := ⟨3, 4, 5, 6, 0, none, false, false, false, false, false⟩
/-- A hit at a time. -/
def hit0 (n : Nat) : Hit := mkHit 0 5 n 100 0
/-- The same state at a tick. -/
def atTick (n : Nat) (s : State) : State := { s with chip := { s.chip with tick := n } }
/-- A Chart image: section t at 512 t; a patch is a section, an offset in it, a number of bytes and their value. -/
def image (ps : List (Nat × Nat × Nat × Nat)) : Image :=
  let dir := (List.range 11).map fun i => (64 + 16 * i + 4, 4, 512 * (i + 1))
  let all := dir ++ ps.map fun (t, o, n, v) => (512 * t + o, n, v)
  (List.range 6400).map fun i =>
    match all.find? (fun (o, n, _) => o ≤ i && i < o + n) with
    | some (o, n, v) => BitVec.ofNat 8 (v / 256 ^ (o + n - 1 - i))
    | none => 0
def setWork (g : Image) (s : State) : State := { s with chip := { s.chip with work := g } }
/-- The worker entries of a Chart. -/
def loops (l : List Nat) : List (Nat × Nat × Nat × Nat) := (2, 64, 2, l.length) :: (l.zipIdx.map fun (k, i) => (2, 72 + 16 * i, 2, k))
def onSlot (k : Nat) (f : SlotX → SlotX) (s : State) : State := { s with chip := s.chip.modSlot k f }
def onPair (n : Nat) (f : Pair → Pair) (s : State) : State := { s with chip := s.chip.modPair n f }
def onEngine (p : Nat) (f : Engine → Engine) (s : State) : State := { s with chip := s.chip.setEngine p (f (s.chip.engine p)) }
/-- Write a field of a slot's, a pair's or a port's registers. -/
def slotF (f : Fld) (k n : Nat) (s : State) : State := { s with chip := s.chip.ss f k n }
def pairF (f : Fld) (n v : Nat) (s : State) : State := { s with chip := s.chip.s (pairFld f n) v }
def portF (f : Fld) (p v : Nat) (s : State) : State := { s with chip := s.chip.s (portFld f p) v }
/-- A Chart with six workers and LIMITS that start with these flags. -/
def loopImg (flags : Nat) : Image :=
  image (loops [0, 1, 2, 3, 8, 9] ++ [(11, 0, 4, flags), (11, 14, 2, 1), (11, 16, 2, 2), (11, 20, 4, 1000), (11, 32, 2, 10), (11, 34, 1, 1),
    (11, 28, 1, 1), (11, 29, 1, 2)])
def onEng (e : Nat) (f : Eng → Eng) (s : State) : State := { s with chip := s.chip.modEng e f }
def onLq (q : Nat) (f : LQueue → LQueue) (s : State) : State := { s with chip := s.chip.modLq q f }
def onGroup (g : Nat) (f : Group → Group) (s : State) : State := { s with chip := s.chip.modGrp g f }
def onRose (f : Rose → Rose) (s : State) : State := { s with chip := s.chip.modRose f }
def onQue (f : Que → Que) (s : State) : State := { s with chip := s.chip.modQue f }
def free14 : List Nat := List.replicate 14 noInput
/-- One merge group: two leaf engines under a root. -/
def roseBase (s : State) : State :=
  onGroup 0 (fun _ => { Group.init with
    valid := true, orderLog := 4, root := 2, streams := 2, settle := 1, absentTo := 3, quietLag := 1, close := 5, running := true })
  (onEng 0 (fun _ => { Eng.init with used := true, parent := 2, inputs := [2, 3] ++ free14, bucket := 3 })
  (onEng 1 (fun _ => { Eng.init with used := true, parent := 2, inputs := [noInput, noInput] ++ free14, bucket := 4 })
  (onEng 2 (fun _ => { Eng.init with used := true, level := 2, inputs := [0x8000, 0x8001] ++ free14, bucket := 2 }) s)))
/-- A Chart with a tile set, a rule and queue entries. -/
def ruleImg : Image :=
  image (loops [0, 1, 2] ++ [(4, 0, 4, 2), (4, 4, 2, 2), (4, 6, 2, 1), (4, 8, 2, 64), (4, 10, 4, 0x0001FFFF), (4, 16, 2, 66), (4, 18, 4, 0x0101FFFF),
    (4, 24, 1, 0), (4, 26, 2, 5), (4, 28, 1, 1), (4, 30, 2, 4095), (4, 32, 1, 3), (5, 10, 2, 1), (5, 16, 2, 1), (5, 18, 2, 100), (5, 28, 2, 1),
    (5, 30, 2, 5), (5, 112, 2, 8), (5, 114, 2, 1), (5, 116, 2, 3)])
/-- The same Chart with a dead time and a prescale of the rule. -/
def ruleImgD (dead pre : Nat) : Image :=
  image (loops [0, 1, 2] ++ [(4, 0, 4, 2), (4, 4, 2, 2), (4, 6, 2, 1), (4, 8, 2, 64), (4, 10, 4, 0x0001FFFF), (4, 16, 2, 66), (4, 18, 4, 0x0101FFFF),
    (4, 24, 1, 0), (4, 26, 2, 5), (4, 28, 1, 1), (4, 30, 2, 4095), (4, 32, 1, 0), (4, 36, 2, dead), (4, 38, 2, pre), (4, 56, 4, 0x40000001)])
/-- A Chart with a merge group of three queues. -/
def poolImg : Image :=
  image (loops [0, 1, 2] ++ [(5, 10, 2, 1), (5, 16, 2, 1), (5, 18, 2, 100), (5, 28, 2, 1), (5, 30, 2, 5), (5, 52, 2, 1), (5, 54, 2, 1), (5, 64, 2, 1),
    (5, 66, 2, 1), (5, 112, 2, 8), (5, 114, 2, 1), (5, 116, 2, 3)])
/-- Sightings of two ports. -/
def sights1 : List (Nat × Block) := [(0, mkSighting 2 5 99), (1, mkSighting 2 0x8000000000000001 12345), (0, mkSighting 9 1 1)]
/-- The dual-clock queue of a port. -/
def atFront (p : Nat) (l : List RxItem) (s : State) : State := onQue (fun q => { q with dcq := AMap.set (always []) q.dcq p l }) s
def onWake (f : Wake → Wake) (s : State) : State := { s with chip := s.chip.modWake f }
def onEgr (f : Egr → Egr) (s : State) : State := { s with chip := s.chip.modEgr f }
def onLane (l : Nat) (f : Lane → Lane) (s : State) : State := { s with chip := s.chip.setLane l (f (s.chip.lane l)) }
def onWatch (g : Nat) (f : WatchSt → WatchSt) (s : State) : State := { s with chip := s.chip.setWatch g (f (s.chip.watchSt g)) }
def frame0 (n ph : Nat) : Frame := ⟨0, n, .watch, 0, List.replicate 64 7, [1, 2], [], ph, 50⟩
def obj0 (t : FType) (d lo hi : Nat) : EObj :=
  ⟨t, 0, 4, 3, d, lo, hi, 0, 1, false, false, false, false, 0, 0, none, 0, 0, 0, [], 0, 0, 0, 0, [1, 2, 3], 0⟩
def window0 : Window := ⟨0, 10, 50, .waiting, false, 1, [], 0, none, 2⟩
/-- Charts with destinations and watches. -/
def egImg : Image :=
  image (loops [0, 1] ++ [(8, 3, 1, 2), (8, 24, 1, 1), (8, 26, 2, 3), (8, 64, 2, 0x0001), (8, 128, 4, 0x10000000), (8, 180, 4, 0x08800000),
    (11, 0, 4, 0x04000000), (11, 36, 4, 640), (11, 40, 4, 6400), (7, 0, 1, 1), (7, 4, 1, 0)])
def egImg2 : Image := image (loops [0, 1] ++ [(8, 3, 1, 2), (8, 24, 1, 0), (8, 26, 2, 300), (8, 64, 2, 0x0002), (11, 40, 4, 0xFFFFFFFF)])
def onInteg (f : Integ → Integ) (s : State) : State := { s with chip := s.chip.modInt f }
def onMem (m : Nat) (f : MemX → MemX) (s : State) : State := { s with chip := s.chip.modMem m f }
def onStack (k : Nat) (f : StackX → StackX) (s : State) : State := { s with chip := s.chip.modStack k f }
def onChart (k : Nat) (x : ChartSlot) (s : State) : State := { s with chip := s.chip.setChart k x }
/-- The chip holds an installer's key. -/
def withKey (c : Chip) : Chip := { c with nvm := { c.nvm with keys := [⟨2, 5, 0, [], 0, 0⟩] } }
/-- A housekeeping sequence of three regular slots, and injected ones. -/
def hkImg (inj : Nat) : Image :=
  image ([(10, 0, 1, 0), (10, 2, 1, 3), (10, 3, 1, inj)] ++
    ([(0, 5, 0), (3, 9, 1), (30, 1, 0), (1, 7, 0), (31, 2, 1)].zipIdx.flatMap fun ((i, c, v), s) =>
      [(10, 168 + 4 * s, 1, i), (10, 169 + 4 * s, 1, c), (10, 170 + 4 * s, 1, v)]))
def onHk (f : Hk → Hk) (s : State) : State := { s with chip := { s.chip with hk := f s.chip.hk } }
def onConvA (f : HkConv → HkConv) (s : State) : State := onHk (fun h => { h with a := f h.a }) s
def onConvB (f : HkConv → HkConv) (s : State) : State := onHk (fun h => { h with b := f h.b }) s
def res0 : HkRes := ⟨0xC0000000, 2, 3, 4, 5, 5⟩
def bytes4 (n : Nat) : List Byte := beBytes 4 n
def wbody : List Byte := bytes4 0x40000020 ++ bytes4 0xFFFFFFFF ++ bytes4 77
/-- A waiting Helm request of an operator, and of an installer. -/
def opReq (op : Nat) (body : List Byte) : HelmReq := ⟨op, 77, 1, 5, 5, body, 0x1234, 99⟩
def instReq (op : Nat) (body : List Byte) : HelmReq := ⟨op, 77, 2, 5, 5, body, 0x1234, 99⟩
def onMgt (f : Mgt → Mgt) (s : State) : State := { s with chip := { s.chip with mgt := f s.chip.mgt } }
def helmQueue (q : HelmReq) (s : State) : State := onMgt (fun m => { m with queue := [q, opReq 1 (bytes4 0)] }) s
def onNvm (f : Nvm → Nvm) (s : State) : State := { s with chip := { s.chip with nvm := f s.chip.nvm } }
def onLog (f : LogState → LogState) (s : State) : State := { s with chip := { s.chip with log := f s.chip.log } }
def onEvt (f : EvtState → EvtState) (s : State) : State := { s with chip := { s.chip with evt := f s.chip.evt } }
/-- A chip with a maker's key, and a firmware commit waiting. -/
def makerKeyState : State := onNvm (fun n => { n with keys := [⟨3, 5, 0, [], 0, 0⟩] }) State.reset
def helmState : State := helmQueue (instReq 0x86 (bytes4 262)) makerKeyState
/-- A Chart whose run check passes: every used section holds what R378 asks for, and nothing is connected. -/
def runChart : Image :=
  [0, 0, 0, 0, 0, 0, 0, 0, 0, 0, 0, 0, 0, 0, 0, 0, 0, 0, 0, 0, 0, 0, 0, 0, 0, 0, 0, 0, 0, 0, 0, 0, 0, 0, 0, 0, 0, 0, 0, 0, 0, 0, 0, 0,
  0, 0, 0, 0, 0, 0, 0, 0, 0, 0, 0, 0, 0, 0, 0, 0, 0, 0, 0, 0, 0, 0, 0, 0, 0, 0, 255, 255, 0, 0, 0, 0, 0, 0, 0, 0, 0, 0, 0, 0, 0, 0, 0, 0,
  0, 0, 0, 0, 0, 0, 0, 0, 0, 0, 0, 0, 0, 0, 255, 255, 0, 0, 0, 0, 0, 0, 0, 0, 0, 0, 0, 0, 0, 0, 255, 255, 0, 0, 0, 0, 0, 0, 0, 0, 0, 0, 0, 0,
  0, 0, 255, 255, 0, 0, 0, 0, 0, 0, 0, 0, 0, 0, 0, 0, 0, 0, 1, 112, 0, 0, 0, 0, 0, 0, 0, 0, 0, 0, 0, 0, 0, 0, 255, 255, 0, 0, 0, 0, 0, 0, 0, 0,
  0, 0, 0, 0, 0, 0, 0, 240, 0, 0, 0, 0, 0, 0, 0, 0, 0, 0, 0, 0, 0, 0, 1, 122, 0, 0, 0, 0, 0, 0, 0, 0, 0, 0, 0, 0, 0, 0, 255, 255, 0, 0, 0, 0,
  0, 0, 0, 0, 0, 0, 0, 0, 0, 0, 1, 124, 0, 0, 0, 0, 0, 0, 0, 0, 0, 0, 255, 0, 0, 0, 0, 0, 0, 0, 0, 0, 0, 0, 0, 0, 0, 0, 0, 0, 0, 0, 0, 0,
  255, 255, 0, 0, 255, 255, 255, 255, 255, 255, 255, 255, 0, 0, 0, 0, 0, 0, 0, 0, 0, 0, 0, 0, 0, 0, 0, 0, 0, 0, 0, 0, 0, 0, 0, 0, 0, 0, 0, 0, 255, 255, 255, 255,
  255, 255, 255, 255, 255, 255, 255, 255, 255, 255, 255, 255, 255, 255, 255, 255, 255, 255, 255, 255, 255, 255, 255, 255, 255, 255, 255, 255, 255, 255, 255, 255, 255, 255, 255, 255, 255, 255, 255, 255, 255, 255, 255, 255,
  255, 255, 255, 255, 255, 255, 255, 255, 255, 255, 255, 255, 255, 255, 255, 255, 0, 0, 0, 0, 0, 0, 0, 0, 0, 1, 0, 1, 0, 0, 0, 0, 0, 0, 0, 0, 0, 0, 3, 232, 1, 0, 0, 1]
/-- A manager whose run check passes. -/
def runState : State :=
  State.reset |> onChip (fun c => { c with trim := List.replicate 242 0 }) |> mgrFld F.MGT_ROLE_ROLE 2 |> mgrFld F.GBL_STAT_CHECK_BUSY 1
    |> mgrFld F.HK_STAT_TDAC_OK_B 1 |> mgrFld F.HK_STAT_TDAC_OK_A 1 |> mgrFld F.MER_STAT_SEC_SET 1 |> mgrFld F.MER_STAT_STATE 2
    |> mgrFld F.GBL_STAT_CHART_OK 1 |> mgrFld F.INT_STUP_PASS 1 |> setWork runChart |> onIlk (fun i => { i with testOk := true, selOk := true })

/-! ## Facts that settle a premise about every set, slot or block -/

/-- Counts after sightings, at the sets that either map or the sightings name, settle them at every set. -/
theorem counts_everywhere (m n : AMap (List (Nat × Nat))) (added : List Nat) (bump : Nat → List (Nat × Nat))
    (h : ∀ k ∈ m.map (·.1) ++ n.map (·.1) ++ added, AMap.get (always []) m k = if k ∈ added then bump k else AMap.get (always []) n k) :
    ∀ k, AMap.get (always []) m k = if k ∈ added then bump k else AMap.get (always []) n k := by
  have absent : ∀ (x : AMap (List (Nat × Nat))) (k : Nat), k ∉ x.map (·.1) → AMap.get (always []) x k = [] := by
    intro x k
    induction x with
    | nil => intro _; rfl
    | cons e r ih => intro hk; simp only [List.map_cons, List.mem_cons, not_or] at hk; simp only [AMap.get, if_neg hk.1, ih hk.2]
  intro k
  by_cases hk : k ∈ m.map (·.1) ++ n.map (·.1) ++ added
  · exact h k hk
  · simp only [List.mem_append, not_or] at hk
    rw [if_neg hk.2, absent m k hk.1.1, absent n k hk.1.2]
/-- With no word of a pair's window written, no slot is running. -/
theorem slots_idle (c : Chip) (h : c.regs.all (fun e => !(decide (0x40100000 ≤ e.1) && decide (e.1 < 0x40120000))) = true) :
    ∀ k, k < 1024 → c.sg F.PRT_SLOT_STATE k ≠ 4 := by
  have unlisted : ∀ (m : AMap Word) (a : Nat), (∀ e ∈ m, e.1 ≠ a) → AMap.get mgrReset m a = mgrReset a := by
    intro m a
    induction m with
    | nil => intro _; rfl
    | cons e r ih =>
      intro hm
      simp only [AMap.get, if_neg (Ne.symm (hm e (List.mem_cons_self ..))), ih (fun x hx => hm x (List.mem_cons_of_mem _ hx))]
  have fresh : ∀ p, p < 64 → ∀ j, j < 16 → (slotFld F.PRT_SLOT_STATE (16 * p + j)).of (mgrReset (slotFld F.PRT_SLOT_STATE (16 * p + j)).reg) ≠ 4 ∧
      0x40100000 ≤ (slotFld F.PRT_SLOT_STATE (16 * p + j)).reg ∧ (slotFld F.PRT_SLOT_STATE (16 * p + j)).reg < 0x40120000 := by decide +kernel
  intro k hk
  have e : k = 16 * (k / 16) + k % 16 := by omega
  have f := fresh (k / 16) (by omega) (k % 16) (by omega)
  rw [← e] at f
  have u := unlisted c.regs (slotFld F.PRT_SLOT_STATE k).reg (fun x hx hxa => by
    have y := List.all_eq_true.mp h x hx
    rw [hxa] at y
    simp [f.2.1, f.2.2] at y)
  show (slotFld F.PRT_SLOT_STATE k).of (AMap.get mgrReset c.regs (slotFld F.PRT_SLOT_STATE k).reg) ≠ 4
  rw [u]; exact f.1
/-- A manager takes the first block that its source has sent and that it wants (R54). -/
theorem takePeer_first (c : Chip) (want : Block → Bool) (b : Block) (l : List Block) (hb : c.mer.peerIn = b :: l) (hw : want b = true) :
    c.takePeer want = some (b, c.modMer (fun m => { m with peerIn := l })) := by
  simp only [Chip.takePeer, hb, List.find?_cons_of_pos hw, Option.some.injEq, Prod.mk.injEq, true_and]
  simp only [Chip.modMer, hb, List.eraseP_cons_of_pos hw]

/-- A receiver of worker 1 in line with a transmitter after reset. -/
def lineWkr (west : Bool) (s : State) : State := onWkrPort 1 west (fun p => { upPort true p with rx := { (upPort true p).rx with line := ⟨0, false, BitVec.allOnes 47⟩ } }) s

/-- The receiver of port 4 in line with a transmitter after reset. -/
def lineMgr (s : State) : State := onMgrPort 4 (fun p => { upPort false p with rx := { (upPort false p).rx with line := ⟨0, false, BitVec.allOnes 47⟩ } }) s

/-- A downstream beacon. -/
def beacon (pos set cnt adj : Nat) : Block := ctlBlock .beacon (at_ 109 105 pos + at_ 104 104 set + at_ 103 56 cnt + at_ 55 36 adj)

/-! ## States and operands that meet the hypotheses of each statement -/

theorem witness_HitAndValidation :
  (let s : State := State.reset |> onPixel 1 5 (fun q => { q with latch := 0x82010000#32, range := 1 })
    |> onTile 1 0 (fun q => { q with power := .on, bank := true })
   let w : Nat := 1
   let a : Nat := 5
   let p : Nat := 0
   let g : Signal := Signal.crossing
   let x := s.chip.worker w
   let n := s.chip.tick
   let q := x.px a
   let t := tileOf a
   let made := g = Signal.injected ∧ q.inj.any (·.spent) = true
   let takes := x.forcedLow a = false ∧ q.low = false ∧ q.lifts (x.tile t).polNow n p (x.lowThr n a q.range) g = true ∧ ¬ made
   s.alive w ∧ takes ∧ q.pulse = none ∧ q.settleEnd = none ∧ x.accepts t = true) ∧
  (let s : State := State.reset |> onPixel 1 5 (fun q => { q with pulse := some pulse0 })
    |> onPixel 1 5 (fun q => { q with latch := 0#32, range := 1 }) |> onTile 1 0 (fun q => { q with power := .closing })
   let w : Nat := 1
   let a : Nat := 5
   let p : Nat := 15
   let g : Signal := Signal.crossing
   let x := s.chip.worker w
   let n := s.chip.tick
   let q := x.px a
   let t := tileOf a
   let made := g = Signal.injected ∧ q.inj.any (·.spent) = true
   let takes := x.forcedLow a = false ∧ q.low = false ∧ q.lifts (x.tile t).polNow n p (x.lowThr n a q.range) g = true ∧ ¬ made
   s.alive w ∧ takes ∧ q.pulse ≠ none) ∧
  (let s : State := State.reset |> onPixel 1 5 (fun q => { q with latch := 0x82010000#32, range := 1 })
    |> onTile 1 0 (fun q => { q with power := .closing })
   let w : Nat := 1
   let a : Nat := 5
   let p : Nat := 3
   let g : Signal := Signal.crossing
   let x := s.chip.worker w
   let n := s.chip.tick
   let q := x.px a
   let t := tileOf a
   let made := g = Signal.injected ∧ q.inj.any (·.spent) = true
   let takes := x.forcedLow a = false ∧ q.low = false ∧ q.lifts (x.tile t).polNow n p (x.lowThr n a q.range) g = true ∧ ¬ made
   s.alive w ∧ takes ∧ q.pulse = none ∧ ((q.settleEnd ≠ none ∨ x.accepts t = false))) ∧
  (let s : State := State.reset |> onPixel 1 5 (fun q => { q with low := true })
   let w : Nat := 1
   let a : Nat := 5
   let p : Nat := 0
   let g : Signal := Signal.crossing
   let x := s.chip.worker w
   let n := s.chip.tick
   let q := x.px a
   let t := tileOf a
   let made := g = Signal.injected ∧ q.inj.any (·.spent) = true
   let takes := x.forcedLow a = false ∧ q.low = false ∧ q.lifts (x.tile t).polNow n p (x.lowThr n a q.range) g = true ∧ ¬ made
   s.alive w ∧ ¬ takes) ∧
  (let s : State := State.reset
   let w : Nat := 1
   let a : Nat := 5
   let x := s.chip.worker w
   let t := tileOf a
   s.alive w ∧ (x.tile t).thrWas = []) ∧
  (let s : State := State.reset |> onPixel 1 5 (fun q => { q with low := true }) |> onPixel 1 5 (fun q => { q with pulse := some pulse0 })
   let w : Nat := 1
   let a : Nat := 5
   let p : Nat := 0
   let g : Signal := Signal.charge 40000000 false
   let pu : Pulse := { c := 3, p := 4, v := 5, centre := 6, range := 0, dt := none, ovr := false, sat := false, formed := false, silent := false, pulser := false }
   let x := s.chip.worker w
   let n := s.chip.tick
   let q := x.px a
   let lifts := q.lifts (x.tile (tileOf a)).polNow n p (x.highThr n a pu.range) g
   s.alive w ∧ q.inPulse = some pu ∧ pu.dt = none ∧ lifts = true ∧ pu.sat = false) ∧
  (let s : State := State.reset |> onPixel 1 5 (fun q => { q with low := true })
    |> onPixel 1 5 (fun q => { q with pulse := some { pulse0 with sat := true, silent := true } })
   let w : Nat := 1
   let a : Nat := 5
   let p : Nat := 0
   let g : Signal := Signal.crossing
   let pu : Pulse := { c := 3, p := 4, v := 5, centre := 6, range := 0, dt := none, ovr := false, sat := true, formed := false, silent := true, pulser := false }
   let x := s.chip.worker w
   let n := s.chip.tick
   let q := x.px a
   let lifts := q.lifts (x.tile (tileOf a)).polNow n p (x.highThr n a pu.range) g
   s.alive w ∧ q.inPulse = some pu ∧ pu.dt = none ∧ lifts = true ∧ pu.sat = true) ∧
  (let s : State := State.reset |> onPixel 1 5 (fun q => { q with low := true })
    |> onPixel 1 5 (fun q => { q with pulse := some { pulse0 with dt := some 4 } })
   let w : Nat := 1
   let a : Nat := 5
   let p : Nat := 5
   let g : Signal := Signal.charge 4000000 true
   let pu : Pulse := { c := 3, p := 4, v := 5, centre := 6, range := 0, dt := some 4, ovr := false, sat := false, formed := false, silent := false, pulser := false }
   let x := s.chip.worker w
   let n := s.chip.tick
   let q := x.px a
   let lifts := q.lifts (x.tile (tileOf a)).polNow n p (x.highThr n a pu.range) g
   s.alive w ∧ q.inPulse = some pu ∧ ((pu.dt ≠ none ∨ lifts = false))) ∧
  (let s : State := State.reset
   let w : Nat := 1
   let a : Nat := 5
   let x := s.chip.worker w
   let q := x.px a
   s.alive w ∧ q.inPulse = none) := by
  refine ⟨?_, ?_, ?_, ?_, ?_, ?_, ?_, ?_, ?_⟩ <;>
    (unfold State.alive; decide +kernel)

theorem witness_RecordFormed :
  (let s : State := State.reset |> onPixel 1 5 (fun q => { q with pulse := some { pulse0 with dt := some 4 } })
    |> onPixel 1 5 (fun q => { q with low := true })
   let w : Nat := 1
   let a : Nat := 5
   let pu : Pulse := { c := 3, p := 4, v := 5, centre := 6, range := 0, dt := some 4, ovr := false, sat := false, formed := false, silent := false, pulser := false }
   let x := s.chip.worker w
   let q := x.px a
   s.alive w ∧ q.inPulse = some pu) ∧
  (let s : State := State.reset |> onPixel 1 5 (fun q => { q with pulse := some pulse0 }) |> onPixel 1 5 (fun q => { q with low := true })
   let w : Nat := 1
   let a : Nat := 5
   let pu : Pulse := { c := 3, p := 4, v := 5, centre := 6, range := 0, dt := none, ovr := false, sat := false, formed := false, silent := false, pulser := false }
   let x := s.chip.worker w
   let n := s.chip.tick
   let q := x.px a
   s.alive w ∧ q.inPulse = some pu ∧ 4095 ≤ pu.since (x.coarse n) 15 ∧ pu.sat = false) ∧
  (let s : State := State.reset |> onPixel 1 5 (fun q => { q with pulse := some { pulse0 with dt := some 4 } })
    |> onPixel 1 5 (fun q => { q with low := true }) |> onPixel 1 5 (fun q => { q with pulse := q.pulse.map (fun p => { p with sat := true }) })
   let w : Nat := 1
   let a : Nat := 5
   let pu : Pulse := { c := 3, p := 4, v := 5, centre := 6, range := 0, dt := some 4, ovr := false, sat := true, formed := false, silent := false, pulser := false }
   let x := s.chip.worker w
   let n := s.chip.tick
   let q := x.px a
   s.alive w ∧ q.inPulse = some pu ∧ ((pu.since (x.coarse n) 15 < 4095 ∨ pu.sat = true))) ∧
  (let s : State := State.reset
   let w : Nat := 1
   let a : Nat := 5
   let x := s.chip.worker w
   let q := x.px a
   s.alive w ∧ q.inPulse = none) ∧
  (let s : State := State.reset |> onPixel 1 5 (fun q => { q with low := true })
   let w : Nat := 1
   let a : Nat := 5
   let x := s.chip.worker w
   let q := x.px a
   s.alive w ∧ q.inPulse = none ∧ q.low = true) ∧
  (let s : State := State.reset
   let w : Nat := 1
   let a : Nat := 5
   let x := s.chip.worker w
   let q := x.px a
   s.alive w ∧ q.inPulse = none ∧ q.low = false) := by
  refine ⟨?_, ?_, ?_, ?_, ?_, ?_⟩ <;>
    (unfold State.alive; decide +kernel)

theorem witness_RangeSteps :
  (let s : State := State.reset |> onPixel 1 5 (fun q => { q with pulse := some pulse0 }) |> onPixel 1 5 (fun q => { q with deadEnd := some 100 })
    |> atTick 100
   let w : Nat := 1
   let a : Nat := 5
   let d : Nat := 100
   let pu : Pulse := { c := 3, p := 4, v := 5, centre := 6, range := 0, dt := none, ovr := false, sat := false, formed := false, silent := false, pulser := false }
   let x := s.chip.worker w
   let n := s.chip.tick
   let q := x.px a
   s.alive w ∧ q.pulse = some pu ∧ q.deadEnd = some d ∧ d ≤ n) ∧
  (let s : State := State.reset
   let w : Nat := 1
   let a : Nat := 5
   let d : Nat := 7
   let x := s.chip.worker w
   let n := s.chip.tick
   let q := x.px a
   s.alive w ∧ ((q.pulse = none ∨ q.deadEnd = none ∨ q.deadEnd = some d ∧ n < d))) ∧
  (let s : State := State.reset |> onPixel 1 5 (fun q => { q with range := 2 }) |> atTick 1000000000
   let w : Nat := 1
   let a : Nat := 5
   let x := s.chip.worker w
   let n := s.chip.tick
   let q := x.px a
   let relaxes := cfgAuto q.latch = true ∧ cfgFloor q.latch < q.range ∧ q.relaxFrom + x.relax (tileOf a) ≤ n
   s.alive w ∧ relaxes ∧ q.low = false) ∧
  (let s : State := State.reset |> onPixel 1 5 (fun q => { q with low := true }) |> onPixel 1 5 (fun q => { q with range := 2 }) |> atTick 1000000000
   let w : Nat := 1
   let a : Nat := 5
   let x := s.chip.worker w
   let n := s.chip.tick
   let q := x.px a
   let relaxes := cfgAuto q.latch = true ∧ cfgFloor q.latch < q.range ∧ q.relaxFrom + x.relax (tileOf a) ≤ n
   s.alive w ∧ relaxes ∧ q.low = true) ∧
  (let s : State := State.reset
   let w : Nat := 1
   let a : Nat := 5
   let x := s.chip.worker w
   let n := s.chip.tick
   let q := x.px a
   let relaxes := cfgAuto q.latch = true ∧ cfgFloor q.latch < q.range ∧ q.relaxFrom + x.relax (tileOf a) ≤ n
   s.alive w ∧ ¬ relaxes) ∧
  (let s : State := State.reset |> onPixel 1 5 (fun q => { q with settleEnd := some 100 }) |> atTick 100
   let w : Nat := 1
   let a : Nat := 5
   let d : Nat := 100
   let x := s.chip.worker w
   let n := s.chip.tick
   let q := x.px a
   s.alive w ∧ q.settleEnd = some d ∧ d ≤ n) ∧
  (let s : State := State.reset
   let w : Nat := 1
   let a : Nat := 5
   let d : Nat := 7
   let x := s.chip.worker w
   let n := s.chip.tick
   let q := x.px a
   s.alive w ∧ ((q.settleEnd = none ∨ q.settleEnd = some d ∧ n < d))) := by
  refine ⟨?_, ?_, ?_, ?_, ?_, ?_, ?_⟩ <;>
    (unfold State.alive; decide +kernel)

theorem witness_LeakageAndInjection :
  (let s : State := State.reset |> onPixel 1 5 (fun q => { q with pulse := some pulse0 })
    |> onPixel 1 5 (fun q => { q with low := true, unarmed := true })
   let w : Nat := 1
   let a : Nat := 5
   let pu : Pulse := { c := 3, p := 4, v := 5, centre := 6, range := 0, dt := none, ovr := false, sat := false, formed := false, silent := false, pulser := false }
   let x := s.chip.worker w
   let q := x.px a
   s.alive w ∧ q.inPulse = some pu) ∧
  (let s : State := State.reset
   let w : Nat := 1
   let a : Nat := 5
   let x := s.chip.worker w
   let q := x.px a
   s.alive w ∧ q.inPulse = none) ∧
  (let s : State := State.reset |> onCtl 1 (fun q => { q with calIn := true })
   let w : Nat := 1
   let x := s.chip.worker w
   s.alive w ∧ x.ctl.calIn = true) ∧
  (let s : State := State.reset
   let w : Nat := 1
   let x := s.chip.worker w
   s.alive w ∧ x.ctl.calIn = false) ∧
  (let s : State := State.reset |> onWorker 1 (fun x => { x with cal := { x.cal with burst := some (3, 1, 0) } })
   let w : Nat := 1
   let ph : Nat := 3
   let pl : Nat := 1
   let k : Nat := 0
   let x := s.chip.worker w
   let n := s.chip.tick
   s.alive w ∧ x.cal.burst = some (ph, pl, k) ∧ x.coarse n % 2 ^ (11 + pl) = 0 ∧ x.cal.strobeAt ≠ some n) ∧
  (let s : State := State.reset |> onWorker 1 (fun x => { x with cal := { x.cal with burst := some (3, 0, 5) } }) |> atTick 99
   let w : Nat := 1
   let ph : Nat := 3
   let pl : Nat := 0
   let k : Nat := 5
   let x := s.chip.worker w
   let n := s.chip.tick
   s.alive w ∧ x.cal.burst = some (ph, pl, k) ∧ ((x.coarse n % 2 ^ (11 + pl) ≠ 0 ∨ x.cal.strobeAt = some n))) ∧
  (let s : State := State.reset
   let w : Nat := 1
   let x := s.chip.worker w
   s.alive w ∧ x.cal.burst = none) := by
  refine ⟨?_, ?_, ?_, ?_, ?_, ?_, ?_⟩ <;>
    (unfold State.alive; decide +kernel)

theorem witness_TilePower :
  (let s : State := State.reset |> onTile 1 3 (fun q => { q with power := .closing })
   let w : Nat := 1
   let t : Nat := 3
   let x := s.chip.worker w
   let q := x.tile t
   s.alive w ∧ t < 64 ∧ q.power = .closing ∧ x.tileQuiet t = true) ∧
  (let s : State := State.reset
   let w : Nat := 1
   let t : Nat := 3
   let x := s.chip.worker w
   let q := x.tile t
   s.alive w ∧ t < 64 ∧ ¬ (q.power = .closing ∧ x.tileQuiet t = true)) ∧
  (let s : State := State.reset |> onTile 1 3 (fun q => { q with power := .settling 100 }) |> atTick 100
   let w : Nat := 1
   let t : Nat := 3
   let d : Nat := 100
   let x := s.chip.worker w
   let n := s.chip.tick
   let q := x.tile t
   s.alive w ∧ t < 64 ∧ q.power = .settling d ∧ d ≤ n) ∧
  (let s : State := State.reset |> onTile 1 3 (fun q => { q with power := .settling 100 })
   let w : Nat := 1
   let t : Nat := 3
   let d : Nat := 100
   let x := s.chip.worker w
   let n := s.chip.tick
   let q := x.tile t
   s.alive w ∧ t < 64 ∧ q.power = .settling d ∧ n < d) ∧
  (let s : State := State.reset
   let w : Nat := 1
   let t : Nat := 3
   let x := s.chip.worker w
   let q := x.tile t
   s.alive w ∧ t < 64 ∧ (∀ d, q.power ≠ .settling d)) := by
  refine ⟨?_, ?_, ?_, ?_, ?_⟩
  · unfold State.alive; decide +kernel
  · unfold State.alive; decide +kernel
  · unfold State.alive; decide +kernel
  · unfold State.alive; decide +kernel
  · repeat' apply And.intro
    all_goals first
      | decide +kernel
      | (intro i h; cases h; exact ⟨_, rfl⟩)
      | (intro i h; cases h; done)
      | (intro i j h; cases h; done)
      | (intro i; rfl)
      | (rintro ⟨h, -⟩; revert h; decide +kernel)
      | (rintro ⟨-, h⟩; revert h; decide +kernel)
      | (rintro (⟨_, h⟩ | ⟨_, h⟩) <;> cases h; done)
      | (rintro _ (h | h) <;> cases h; done)
      | (rintro _ (h | h) <;> cases h <;> decide)
      | exact Or.inl (by decide +kernel)
      | exact Or.inr (by decide +kernel)
      | exact Or.inl (by rintro (⟨_, h⟩ | ⟨_, h⟩) <;> cases h)
      | exact rfl
      | exact And.intro rfl rfl
      | exact fun (h : _ ∧ _) => absurd h (by decide +kernel)
      | exact fun (h : _ = _) => absurd h (by decide +kernel)

theorem witness_WorkerScrub :
  (let s : State := State.reset
   let w : Nat := 1
   let x := s.chip.worker w
   let n := s.chip.tick
   let due := x.scrub.pixAt + 1024 ≤ n
   s.alive w ∧ ¬ due) ∧
  (let s : State := State.reset |> atTick 2000
   let w : Nat := 1
   let f : Finding := Finding.uncorrectable 0x80000001#32
   let x := s.chip.worker w
   let n := s.chip.tick
   let a := x.scrub.pix
   let due := x.scrub.pixAt + 1024 ≤ n
   let skips := fun (k : WordId) => x.scrub.wroteAt = n ∧ k ∈ x.scrub.wrote
   s.alive w ∧ due ∧ f.ue = true ∧ ¬ skips (.pixel a)) ∧
  (let s : State := State.reset |> atTick 2000
   let w : Nat := 1
   let f : Finding := Finding.clean
   let x := s.chip.worker w
   let n := s.chip.tick
   let a := x.scrub.pix
   let due := x.scrub.pixAt + 1024 ≤ n
   let skips := fun (k : WordId) => x.scrub.wroteAt = n ∧ k ∈ x.scrub.wrote
   s.alive w ∧ due ∧ ((f.ue = false ∨ skips (.pixel a)))) ∧
  (let s : State := State.reset
   let w : Nat := 1
   let x := s.chip.worker w
   let n := s.chip.tick
   s.alive w ∧ n < x.scrub.tabAt + 1024) ∧
  (let s : State := State.reset |> atTick 2000
   let w : Nat := 1
   let x := s.chip.worker w
   let n := s.chip.tick
   s.alive w ∧ x.scrub.tabAt + 1024 ≤ n) := by
  refine ⟨?_, ?_, ?_, ?_, ?_⟩ <;>
    (unfold State.alive; decide +kernel)

theorem witness_TableAccess :
  (let s : State := State.reset
   let w : Nat := 1
   let t : Nat := 40
   let x := s.chip.worker w
   let i := x.g F.TC_TBL_ADDR_INDEX
   let tbl := x.g F.TC_TBL_ADDR_TBL
   let bin := tbl = 0 ∧ i % 1024 < 800 ∧ i / 1024 < 64
   s.alive w ∧ t < 64 ∧ bin) ∧
  (let s : State := State.reset |> wkrFld 1 F.TC_TBL_ADDR_TBL 2
   let w : Nat := 1
   let t : Nat := 40
   let x := s.chip.worker w
   let i := x.g F.TC_TBL_ADDR_INDEX
   let tbl := x.g F.TC_TBL_ADDR_TBL
   s.alive w ∧ t < 64 ∧ tbl = 2 ∧ i < 16384) ∧
  (let s : State := State.reset |> wkrFld 1 F.TC_TBL_ADDR_TBL 3
   let w : Nat := 1
   let t : Nat := 3
   let x := s.chip.worker w
   let i := x.g F.TC_TBL_ADDR_INDEX
   let tbl := x.g F.TC_TBL_ADDR_TBL
   let bin := tbl = 0 ∧ i % 1024 < 800 ∧ i / 1024 < 64
   s.alive w ∧ t < 64 ∧ ¬ bin ∧ ¬ (tbl = 2 ∧ i < 16384)) ∧
  (let s : State := State.reset |> wkrFld 1 F.TC_TBL_ADDR_TBL 1
   let w : Nat := 1
   let t : Nat := 3
   let x := s.chip.worker w
   let i := x.g F.TC_TBL_ADDR_INDEX
   let tbl := x.g F.TC_TBL_ADDR_TBL
   s.alive w ∧ t < 64 ∧ tbl = 1 ∧ i < 192) ∧
  (let s : State := State.reset |> wkrFld 1 F.TC_TBL_ADDR_TBL 3
   let w : Nat := 1
   let t : Nat := 3
   let x := s.chip.worker w
   let i := x.g F.TC_TBL_ADDR_INDEX
   let tbl := x.g F.TC_TBL_ADDR_TBL
   let bin := tbl = 0 ∧ i % 1024 < 800 ∧ i / 1024 < 64
   s.alive w ∧ t < 64 ∧ ¬ bin ∧ ¬ (tbl = 1 ∧ i < 192) ∧ ¬ (tbl = 2 ∧ i < 16384)) ∧
  (let s : State := State.reset |> wkrFld 1 F.TC_STAT_INIT_DONE 1
   let w : Nat := 1
   let t : Nat := 3
   let x := s.chip.worker w
   s.alive w ∧ t < 64 ∧ x.b F.TC_STAT_INIT_DONE = true) ∧
  (let s : State := State.reset
   let w : Nat := 1
   let t : Nat := 40
   let x := s.chip.worker w
   s.alive w ∧ t < 64 ∧ x.b F.TC_STAT_INIT_DONE = false) := by
  refine ⟨?_, ?_, ?_, ?_, ?_, ?_, ?_⟩ <;>
    (unfold State.alive; decide +kernel)

theorem witness_Calibration :
  (let s : State := State.reset |> wkrFld 1 F.TC_STAT_CAL_BUSY 1
   let w : Nat := 1
   let x := s.chip.worker w
   let t := x.g F.TC_STAT_CAL_TILE
   let a := (16 * (t / 8) + x.cal.px / 16) * 128 + 16 * (t % 8) + x.cal.px % 16
   let q := x.px a
   let runs := x.b F.TC_STAT_CAL_BUSY = true ∧ x.cal.hits < x.calN
   let idle := q.low = false ∧ q.pulse = none
   s.alive w ∧ runs ∧ idle) ∧
  (let s : State := State.reset |> (fun s => onPixel 1 0 (fun q => { q with low := true }) (wkrFld 1 F.TC_STAT_CAL_BUSY 1 s))
   let w : Nat := 1
   let x := s.chip.worker w
   let t := x.g F.TC_STAT_CAL_TILE
   let a := (16 * (t / 8) + x.cal.px / 16) * 128 + 16 * (t % 8) + x.cal.px % 16
   let q := x.px a
   let runs := x.b F.TC_STAT_CAL_BUSY = true ∧ x.cal.hits < x.calN
   let idle := q.low = false ∧ q.pulse = none
   s.alive w ∧ runs ∧ ¬ idle) ∧
  (let s : State := State.reset
   let w : Nat := 1
   let x := s.chip.worker w
   let runs := x.b F.TC_STAT_CAL_BUSY = true ∧ x.cal.hits < x.calN
   s.alive w ∧ ¬ runs) ∧
  (let s : State := State.reset
   let w : Nat := 1
   let x := s.chip.worker w
   let full := x.b F.TC_STAT_CAL_BUSY = true ∧ x.calN ≤ x.cal.hits
   s.alive w ∧ ¬ full) ∧
  (let s : State := State.reset |> wkrFld 1 F.TC_STAT_CAL_BUSY 1
    |> onWorker 1 (fun x => { x with cal := { x.cal with hits := x.calN, hist := (List.range 800).map (fun b => (b, x.calN / 800)) } })
   let w : Nat := 1
   let x := s.chip.worker w
   let full := x.b F.TC_STAT_CAL_BUSY = true ∧ x.calN ≤ x.cal.hits
   s.alive w ∧ full) ∧
  (let s : State := State.reset |> wkrFld 1 F.TC_STAT_CAL_BUSY 1 |> onWorker 1 (fun x => { x with cal := { x.cal with hits := x.calN } })
   let w : Nat := 1
   let x := s.chip.worker w
   let t := x.g F.TC_STAT_CAL_TILE
   let full := x.b F.TC_STAT_CAL_BUSY = true ∧ x.calN ≤ x.cal.hits
   let counts := (List.range 800).map (fun b => AMap.get (always 0) x.cal.hist b)
   let cen := newCentres x.calN 0 counts
   s.alive w ∧ full ∧ x.rejects t counts cen = true) ∧
  (let s : State := State.reset |> wkrFld 1 F.TC_STAT_FG_BUSY 1 |> onWorker 1 (fun x => { x with cal := { x.cal with fgDone := true } })
   let w : Nat := 1
   let x := s.chip.worker w
   s.alive w ∧ x.b F.TC_STAT_FG_BUSY = true ∧ x.cal.fgDone = true) ∧
  (let s : State := State.reset
   let w : Nat := 1
   let x := s.chip.worker w
   s.alive w ∧ ¬ (x.b F.TC_STAT_FG_BUSY = true ∧ x.cal.fgDone = true)) := by
  refine ⟨?_, ?_, ?_, ?_, ?_, ?_, ?_, ?_⟩ <;>
    (unfold State.alive; decide +kernel)

theorem witness_ReadoutQueue :
  (let s : State := State.reset |> onTile 1 63 (fun q => { q with fifo := [⟨hit0 5, 1⟩] }) |> atTick 262144
   let w : Nat := 1
   let t : Nat := 63
   let flag : Nat := 3
   let r : FifoEnt := { hit := { bits := 0x000500000014190#60, cnt := 0 }, t0 := 1 }
   let rest : List FifoEnt := []
   let x := s.chip.worker w
   let n := s.chip.tick
   let len := x.out.oq.length + 1
   let turn := (List.range 64).map (fun i => (x.out.lastTile + 1 + i) % 64)
   let has := fun (u : Nat) => (x.tile u).fifo.head?.any (fun e => decide (e.t0 < n))
   let moves := len ≤ 4096 ∧ x.out.movedAt ≠ some n
   s.alive w ∧ flag < 20 ∧ moves ∧ turn.find? has = some t ∧ (x.tile t).fifo = r :: rest) ∧
  (let s : State := State.reset
   let w : Nat := 1
   let flag : Nat := 0
   let x := s.chip.worker w
   let n := s.chip.tick
   let len := x.out.oq.length + 1
   let turn := (List.range 64).map (fun i => (x.out.lastTile + 1 + i) % 64)
   let has := fun (u : Nat) => (x.tile u).fifo.head?.any (fun e => decide (e.t0 < n))
   let moves := len ≤ 4096 ∧ x.out.movedAt ≠ some n
   s.alive w ∧ flag < 20 ∧ (¬ moves ∨ turn.find? has = none)) ∧
  (let s : State := State.reset |> onOut 1 (fun o => { o with oq := [⟨some (hit0 1), false, 20⟩] ++ o.oq }) |> atTick 0x10000000000
   let w : Nat := 1
   let flag : Nat := 3
   let e : OqEnt := { hit := some { bits := 0x000500000004190#60, cnt := 0 }, mark := false, t0 := 20 }
   let x := s.chip.worker w
   let n := s.chip.tick
   let l := x.out.oq.filter (fun e => !e.mark)
   s.alive w ∧ flag < 20 ∧ l.getLast? = some e ∧ e.t0 + 8 * x.g F.WK_RDO_PAIR_WAIT ≤ n) ∧
  (let s : State := State.reset |> onOut 1 (fun o => { o with oq := [⟨some (hit0 1), false, 20⟩] ++ o.oq })
   let w : Nat := 1
   let flag : Nat := 0
   let e : OqEnt := { hit := some { bits := 0x000500000004190#60, cnt := 0 }, mark := false, t0 := 20 }
   let x := s.chip.worker w
   let n := s.chip.tick
   let l := x.out.oq.filter (fun e => !e.mark)
   s.alive w ∧ flag < 20 ∧ l.getLast? = some e ∧ n < e.t0 + 8 * x.g F.WK_RDO_PAIR_WAIT) ∧
  (let s : State := State.reset
   let w : Nat := 1
   let flag : Nat := 0
   let x := s.chip.worker w
   let l := x.out.oq.filter (fun e => !e.mark)
   s.alive w ∧ flag < 20 ∧ l = []) ∧
  (let s : State := State.reset |> wkrFld 1 F.WK_POS_POS 3 |> atTick 262144
   let w : Nat := 1
   let flag : Nat := 3
   let x := s.chip.worker w
   let n := s.chip.tick
   let passed := x.pos ≠ 0 ∧ x.coarse n / 2 ^ 18 ≠ x.coarse x.out.lastRef / 2 ^ 18
   s.alive w ∧ flag < 20 ∧ passed) ∧
  (let s : State := State.reset
   let w : Nat := 1
   let flag : Nat := 0
   let x := s.chip.worker w
   let n := s.chip.tick
   let passed := x.pos ≠ 0 ∧ x.coarse n / 2 ^ 18 ≠ x.coarse x.out.lastRef / 2 ^ 18
   s.alive w ∧ flag < 20 ∧ ¬ passed) ∧
  (let s : State := State.reset |> atTick 0x10000000000
   let w : Nat := 1
   let flag : Nat := 0
   let x := s.chip.worker w
   let n := s.chip.tick
   let period := x.b F.WK_GCTL_MON_EN = true ∧ x.ctl.monFrom + 2 ^ (14 + x.g F.WK_RDO_MON_PER) ≤ n
   s.alive w ∧ flag < 20 ∧ period) ∧
  (let s : State := State.reset
   let w : Nat := 1
   let flag : Nat := 0
   let x := s.chip.worker w
   let n := s.chip.tick
   let period := x.b F.WK_GCTL_MON_EN = true ∧ x.ctl.monFrom + 2 ^ (14 + x.g F.WK_RDO_MON_PER) ≤ n
   s.alive w ∧ flag < 20 ∧ ¬ period) ∧
  (let s : State := State.reset
   let w : Nat := 1
   let flag : Nat := 0
   let x := s.chip.worker w
   s.alive w ∧ flag < 20 ∧ x.out.pkts = []) ∧
  (let s : State := State.reset |> onOut 1 (fun o => { o with oq := [⟨some (hit0 1), false, 20⟩] ++ o.oq }) |> atTick 0x10000000000
   let w : Nat := 1
   let flag : Nat := 0
   let x := s.chip.worker w
   let n := s.chip.tick
   let gone := x.out.oq.length - (x.dropStale n).out.oq.length
   s.alive w ∧ flag < 20 ∧ 0 < gone) ∧
  (let s : State := State.reset
   let w : Nat := 1
   let flag : Nat := 0
   let x := s.chip.worker w
   let n := s.chip.tick
   let gone := x.out.oq.length - (x.dropStale n).out.oq.length
   s.alive w ∧ flag < 20 ∧ gone = 0) := by
  refine ⟨?_, ?_, ?_, ?_, ?_, ?_, ?_, ?_, ?_, ?_, ?_, ?_⟩ <;>
    (unfold State.alive; decide +kernel)

theorem witness_WorkerMarks :
  (let s : State := State.reset |> wkrFld 1 F.WK_GSTAT_FWD_ONLY 1 |> received 1 false [mkThrottle 3 5, mkMark 3 77 1000 20]
   let w : Nat := 1
   let west : Bool := false
   let b : Block := { hdr := 0x2#2, pay := 0x4b0c1340000000fa000a00000000e2#120 }
   let x1 : Worker := (((((s.chip.worker w).takeDown s.chip.tick west (fun b => b.is .mark)).map (·.2)).toList ++ [Worker.init])[0]?).getD (s.chip.worker w)
   let x := s.chip.worker w
   let n := s.chip.tick
   let got := x.takeDown n west (fun b => b.is .mark) = some (b, x1)
   s.alive w ∧ got ∧ x1.b F.WK_GSTAT_FWD_ONLY = true) ∧
  (let s : State := State.reset |> received 1 false [mkThrottle 3 5, mkMark 3 77 1000 20]
   let w : Nat := 1
   let west : Bool := false
   let b : Block := { hdr := 0x2#2, pay := 0x4b0c1340000000fa000a00000000e2#120 }
   let x1 : Worker := (((((s.chip.worker w).takeDown s.chip.tick west (fun b => b.is .mark)).map (·.2)).toList ++ [Worker.init])[0]?).getD (s.chip.worker w)
   let x := s.chip.worker w
   let n := s.chip.tick
   let got := x.takeDown n west (fun b => b.is .mark) = some (b, x1)
   s.alive w ∧ got ∧ x1.b F.WK_GSTAT_FWD_ONLY = false ∧ x1.marked = false) ∧
  (let s : State := State.reset |> wkrFld 1 F.WK_GSTAT_MODE_NOW 1 |> received 1 true [mkMark 4 78 1000 20]
    |> onMarks 1 (fun m => { m with queue := List.replicate 8 ⟨1,2,3,false⟩ })
   let w : Nat := 1
   let west : Bool := true
   let b : Block := { hdr := 0x2#2, pay := 0x4b101380000000fa000a0000000007#120 }
   let x1 : Worker := (((((s.chip.worker w).takeDown s.chip.tick west (fun b => b.is .mark)).map (·.2)).toList ++ [Worker.init])[0]?).getD (s.chip.worker w)
   let x := s.chip.worker w
   let n := s.chip.tick
   let got := x.takeDown n west (fun b => b.is .mark) = some (b, x1)
   s.alive w ∧ got ∧ x1.b F.WK_GSTAT_FWD_ONLY = false ∧ x1.marked = true ∧ 8 ≤ x1.marks.queue.length) ∧
  (let s : State := State.reset |> wkrFld 1 F.WK_GSTAT_MODE_NOW 1 |> received 1 true [mkMark 4 78 1000 20]
   let w : Nat := 1
   let west : Bool := true
   let b : Block := { hdr := 0x2#2, pay := 0x4b101380000000fa000a0000000007#120 }
   let x1 : Worker := (((((s.chip.worker w).takeDown s.chip.tick west (fun b => b.is .mark)).map (·.2)).toList ++ [Worker.init])[0]?).getD (s.chip.worker w)
   let x := s.chip.worker w
   let n := s.chip.tick
   let got := x.takeDown n west (fun b => b.is .mark) = some (b, x1)
   s.alive w ∧ got ∧ x1.b F.WK_GSTAT_FWD_ONLY = false ∧ x1.marked = true ∧ x1.marks.queue.length < 8) ∧
  (let s : State := State.reset
   let w : Nat := 1
   let west : Bool := false
   let x := s.chip.worker w
   let n := s.chip.tick
   s.alive w ∧ x.takeDown n west (fun b => b.is .mark) = none) ∧
  (let s : State := State.reset |> onMarks 1 (fun m => { m with queue := [⟨1,2,3,true⟩] }) |> atTick 600000
   let w : Nat := 1
   let m : WMark := { id := 1, start := 2, len := 3, west := true }
   let rest : List WMark := []
   let x := s.chip.worker w
   let n := s.chip.tick
   let due := dist48 (m.start + m.len - 1 + 320) (x.coarse n) < 2 ^ 47
   s.alive w ∧ x.marks.serving = none ∧ x.marks.queue = m :: rest ∧ due) ∧
  (let s : State := State.reset
   let w : Nat := 1
   let m : WMark := { id := 1, start := 2, len := 3, west := true }
   let rest : List WMark := []
   let x := s.chip.worker w
   let n := s.chip.tick
   let due := dist48 (m.start + m.len - 1 + 320) (x.coarse n) < 2 ^ 47
   s.alive w ∧ (x.marks.serving ≠ none ∨ x.marks.queue = [] ∨ (x.marks.queue = m :: rest ∧ ¬ due))) ∧
  (let s : State := State.reset |> onMarks 1 (fun m => { m with serving := some ⟨⟨1,90,800000,false⟩,0,[],0,0,false⟩ })
   let w : Nat := 1
   let sv : Serving := { mark := { id := 1, start := 90, len := 800000, west := false }, part := 0, toCopy := [], left := 0, partialTiles := 0x0000000000000000#64, scanned := false }
   let x := s.chip.worker w
   s.alive w ∧ x.marks.serving = some sv ∧ sv.scanned = false) ∧
  (let s : State := State.reset
   let w : Nat := 1
   let sv : Serving := { mark := { id := 1, start := 0, len := 300, west := false }, part := 0, toCopy := [], left := 2, partialTiles := 0x0000000000000001#64, scanned := true }
   let x := s.chip.worker w
   s.alive w ∧ (x.marks.serving = none ∨ (x.marks.serving = some sv ∧ sv.scanned = true))) ∧
  (let s : State := State.reset |> onMarks 1 (fun m => { m with serving := some ⟨⟨1,0,300,false⟩,0,[(5,1)],2,1,true⟩ })
   let w : Nat := 1
   let sv : Serving := { mark := { id := 1, start := 0, len := 300, west := false }, part := 0, toCopy := [(5, 1)], left := 2, partialTiles := 0x0000000000000001#64, scanned := true }
   let t : Nat := 5
   let ix : Nat := 1
   let more : List (Nat × Nat) := []
   let x := s.chip.worker w
   let n := s.chip.tick
   let len := x.out.oq.length + 1
   s.alive w ∧ x.marks.serving = some sv ∧ sv.toCopy = (t, ix) :: more ∧ len ≤ 4096 ∧ x.out.copiedAt ≠ some n) ∧
  (let s : State := State.reset
   let w : Nat := 1
   let sv : Serving := { mark := { id := 1, start := 0, len := 300, west := false }, part := 0, toCopy := [], left := 2, partialTiles := 0x0000000000000001#64, scanned := true }
   let x := s.chip.worker w
   let n := s.chip.tick
   let len := x.out.oq.length + 1
   s.alive w ∧ (x.marks.serving = none ∨ 4096 < len ∨ x.out.copiedAt = some n ∨ (x.marks.serving = some sv ∧ sv.toCopy = []))) := by
  refine ⟨?_, ?_, ?_, ?_, ?_, ?_, ?_, ?_, ?_, ?_, ?_⟩ <;>
    (unfold State.alive; decide +kernel)

theorem witness_WorkerRun :
  (let s : State := State.reset |> wkrFld 1 F.WK_GSTAT_RUNNING 1
   let w : Nat := 1
   let t : Nat := 3
   let x := s.chip.worker w
   s.alive w ∧ t < 64 ∧ x.running = true) ∧
  (let s : State := State.reset
   let w : Nat := 1
   let t : Nat := 3
   let x := s.chip.worker w
   let code := if x.b F.TC_STAT_INIT_DONE = false then 0xA4 else if x.b F.WK_GSTAT_CNT_SET = false then 0xA5
         else if x.b F.WK_GSTAT_FWD_ONLY = true then 0xA6 else 0
   s.alive w ∧ t < 64 ∧ x.running = false ∧ code ≠ 0) ∧
  (let s : State := State.reset |> wkrFld 1 F.TC_STAT_INIT_DONE 1 |> wkrFld 1 F.WK_GSTAT_CNT_SET 1
   let w : Nat := 1
   let t : Nat := 3
   let x := s.chip.worker w
   let code := if x.b F.TC_STAT_INIT_DONE = false then 0xA4 else if x.b F.WK_GSTAT_CNT_SET = false then 0xA5
         else if x.b F.WK_GSTAT_FWD_ONLY = true then 0xA6 else 0
   s.alive w ∧ t < 64 ∧ x.running = false ∧ code = 0) ∧
  (let s : State := State.reset |> received 1 true [mkThrottle 3 0]
   let w : Nat := 1
   let t : Nat := 3
   let west : Bool := true
   let b : Block := { hdr := 0x2#2, pay := 0x7818000000000000000000000000af#120 }
   let x1 : Worker := (((((s.chip.worker w).takeDown s.chip.tick west (fun b => b.is .throttle)).map (·.2)).toList ++ (((s.chip.worker w).takeDown s.chip.tick west (fun b => b.is .trim)).map (·.2)).toList ++ [Worker.init])[0]?).getD (s.chip.worker w)
   let x := s.chip.worker w
   let n := s.chip.tick
   s.alive w ∧ t < 64 ∧ x.takeDown n west (fun b => b.is .throttle) = some (b, x1)) ∧
  (let s : State := State.reset
   let w : Nat := 1
   let t : Nat := 3
   let west : Bool := true
   let x := s.chip.worker w
   let n := s.chip.tick
   s.alive w ∧ t < 64 ∧ x.takeDown n west (fun b => b.is .throttle) = none) ∧
  (let s : State := State.reset |> received 1 false [mkTrim 3 [trimUpd 5 true 9, trimUpd 6 false 63, 0, trimUpd 5 false 1]]
   let w : Nat := 1
   let t : Nat := 3
   let west : Bool := false
   let b : Block := { hdr := 0x2#2, pay := 0x871c005930019f80000100140800ec#120 }
   let x1 : Worker := (((((s.chip.worker w).takeDown s.chip.tick west (fun b => b.is .throttle)).map (·.2)).toList ++ (((s.chip.worker w).takeDown s.chip.tick west (fun b => b.is .trim)).map (·.2)).toList ++ [Worker.init])[0]?).getD (s.chip.worker w)
   let x := s.chip.worker w
   let n := s.chip.tick
   s.alive w ∧ t < 64 ∧ x.takeDown n west (fun b => b.is .trim) = some (b, x1)) ∧
  (let s : State := State.reset
   let w : Nat := 1
   let t : Nat := 3
   let west : Bool := false
   let x := s.chip.worker w
   let n := s.chip.tick
   s.alive w ∧ t < 64 ∧ x.takeDown n west (fun b => b.is .trim) = none) ∧
  (let s : State := State.reset
   let w : Nat := 1
   let t : Nat := 3
   let u : Nat := 0
   s.alive w ∧ t < 64 ∧ bitOf u 21 = false) ∧
  (let s : State := State.reset
   let w : Nat := 1
   let t : Nat := 3
   let u : Nat := 4194240
   let f0 : Finding := Finding.uncorrectable 0x00000000#32
   let x := s.chip.worker w
   let a := bitsOf u 20 7
   s.alive w ∧ t < 64 ∧ bitOf u 21 = true ∧ ((f0.ue = true ∨ F.PIX_ECC_ERR.of (x.cfg a) = 1))) ∧
  (let s : State := State.reset
   let w : Nat := 1
   let t : Nat := 3
   let u : Nat := 2097865
   let f0 : Finding := Finding.corrected
   let x := s.chip.worker w
   let a := bitsOf u 20 7
   s.alive w ∧ t < 64 ∧ bitOf u 21 = true ∧ f0.ue = false ∧ F.PIX_ECC_ERR.of (x.cfg a) ≠ 1) := by
  refine ⟨?_, ?_, ?_, ?_, ?_, ?_, ?_, ?_, ?_, ?_⟩ <;>
    (unfold State.alive; decide +kernel)

theorem witness_UplinkPriority :
  (let s : State := upWkr 1 false (upWkr 1 true (onCtl 1 (fun c => { c with clock := some true }) (wkrFld 1 F.WK_POS_POS 3 State.reset)))
    |> onCtl 1 (fun c => { c with clock := none })
   let w : Nat := 1
   let x := s.chip.worker w
   s.alive w ∧ x.ctl.clock = none) ∧
  (let s : State := upWkr 1 false (upWkr 1 true (onCtl 1 (fun c => { c with clock := some true }) (wkrFld 1 F.WK_POS_POS 3 State.reset)))
    |> wkrFld 1 F.WK_POS_POS 0
   let w : Nat := 1
   let x := s.chip.worker w
   s.alive w ∧ x.ctl.clock ≠ none ∧ x.pos = 0) ∧
  (let s : State := upWkr 1 false (upWkr 1 true (onCtl 1 (fun c => { c with clock := some true }) (wkrFld 1 F.WK_POS_POS 3 State.reset)))
    |> onOut 1 (fun o => { o with arriving := some (mkSighting 4 9 10) })
   let w : Nat := 1
   let west : Bool := false
   let b : Block := { hdr := 0x2#2, pay := 0x332000000000000000480000000052#120 }
   let x := s.chip.worker w
   let rate := x.g F.WK_TRIM_RATE_NOW
   let cr : Int := if west = x.near then
         (if rate = 0xFF then 65536 else if rate = 0 then min 0 x.out.credit else min 65536 (x.out.credit + rate)) else x.out.credit
   let back := (x.port west).segUp true = true ∧ x.out.wasOut = true ∧ (west = x.near ∨ x.ctl.both = true)
   let o : WOut := { x.out with
         credit := cr, wasOut := x.out.wasOut && !decide back, timeRef := if back then some (x.out.timeRef.getD 0) else x.out.timeRef }
   let a := o.arriving
   let up := (x.port west).segUp true = true
   let on := x.ctl.clock ≠ none ∧ x.pos ≠ 0
   let ser := on ∧ (west = x.near ∨ x.ctl.both = true)
   s.alive w ∧ ser ∧ up ∧ a = some b ∧ b.is .sighting = true) ∧
  (let s : State := upWkr 1 false (upWkr 1 true (onCtl 1 (fun c => { c with clock := some true }) (wkrFld 1 F.WK_POS_POS 3 State.reset)))
    |> onOut 1 (fun o => { o with sights := [⟨3, 89, 99⟩, ⟨7, 97, 100⟩] }) |> atTick 100
   let w : Nat := 1
   let west : Bool := false
   let e : SightEnt := { tile := 3, when := 89, stamp := 99 }
   let es : List SightEnt := [{ tile := 7, when := 97, stamp := 100 }]
   let x := s.chip.worker w
   let n := s.chip.tick
   let rate := x.g F.WK_TRIM_RATE_NOW
   let cr : Int := if west = x.near then
         (if rate = 0xFF then 65536 else if rate = 0 then min 0 x.out.credit else min 65536 (x.out.credit + rate)) else x.out.credit
   let back := (x.port west).segUp true = true ∧ x.out.wasOut = true ∧ (west = x.near ∨ x.ctl.both = true)
   let o : WOut := { x.out with
         credit := cr, wasOut := x.out.wasOut && !decide back, timeRef := if back then some (x.out.timeRef.getD 0) else x.out.timeRef }
   let a := o.arriving
   let up := (x.port west).segUp true = true
   let on := x.ctl.clock ≠ none ∧ x.pos ≠ 0
   let ser := on ∧ (west = x.near ∨ x.ctl.both = true)
   let go := ser ∧ up ∧ a.any (·.is .sighting) = false
   let ready := o.sights.filter (fun e => decide (e.when + 3 ≤ n))
   let pkt := o.pkts.find? (fun p => p.west == west)
   let cut := 287 ≤ o.slip.length ∧ pkt ≠ none ∧ west = x.near
   s.alive w ∧ go ∧ ready = e :: es ∧ o.slip.length < 288 ∧ ¬ cut) ∧
  (let s : State := upWkr 1 false (upWkr 1 true (onCtl 1 (fun c => { c with clock := some true }) (wkrFld 1 F.WK_POS_POS 3 State.reset)))
    |> onOut 1 (fun o => { o with pkts := [⟨false, kindRecords, 5, 3, 77, 3, 0, [], none, false, 1⟩] })
   let w : Nat := 1
   let west : Bool := false
   let p : OwnPkt := { west := false, kind := 0, len := 5, sent := 3, crc := 77, recsLeft := 3, recsSent := 0, words := [], trailer := none, serves := false, epoch := 1 }
   let x := s.chip.worker w
   let n := s.chip.tick
   let rate := x.g F.WK_TRIM_RATE_NOW
   let cr : Int := if west = x.near then
         (if rate = 0xFF then 65536 else if rate = 0 then min 0 x.out.credit else min 65536 (x.out.credit + rate)) else x.out.credit
   let back := (x.port west).segUp true = true ∧ x.out.wasOut = true ∧ (west = x.near ∨ x.ctl.both = true)
   let o : WOut := { x.out with
         credit := cr, wasOut := x.out.wasOut && !decide back, timeRef := if back then some (x.out.timeRef.getD 0) else x.out.timeRef }
   let a := o.arriving
   let up := (x.port west).segUp true = true
   let on := x.ctl.clock ≠ none ∧ x.pos ≠ 0
   let ser := on ∧ (west = x.near ∨ x.ctl.both = true)
   let go := ser ∧ up ∧ a.any (·.is .sighting) = false
   let ready := o.sights.filter (fun e => decide (e.when + 3 ≤ n))
   let pkt := o.pkts.find? (fun p => p.west == west)
   let cut := 287 ≤ o.slip.length ∧ pkt ≠ none ∧ west = x.near
   let own := go ∧ (ready = [] ∨ 288 ≤ o.slip.length ∨ cut)
   s.alive w ∧ own ∧ pkt = some p) ∧
  (let s : State := upWkr 1 false (upWkr 1 true (onCtl 1 (fun c => { c with clock := some true }) (wkrFld 1 F.WK_POS_POS 3 State.reset)))
    |> onOut 1 (fun o => { o with timeRef := some 1 })
   let w : Nat := 1
   let west : Bool := false
   let r : Nat := 1
   let x := s.chip.worker w
   let n := s.chip.tick
   let rate := x.g F.WK_TRIM_RATE_NOW
   let cr : Int := if west = x.near then
         (if rate = 0xFF then 65536 else if rate = 0 then min 0 x.out.credit else min 65536 (x.out.credit + rate)) else x.out.credit
   let back := (x.port west).segUp true = true ∧ x.out.wasOut = true ∧ (west = x.near ∨ x.ctl.both = true)
   let o : WOut := { x.out with
         credit := cr, wasOut := x.out.wasOut && !decide back, timeRef := if back then some (x.out.timeRef.getD 0) else x.out.timeRef }
   let a := o.arriving
   let up := (x.port west).segUp true = true
   let on := x.ctl.clock ≠ none ∧ x.pos ≠ 0
   let ser := on ∧ (west = x.near ∨ x.ctl.both = true)
   let go := ser ∧ up ∧ a.any (·.is .sighting) = false
   let ready := o.sights.filter (fun e => decide (e.when + 3 ≤ n))
   let pkt := o.pkts.find? (fun p => p.west == west)
   let cut := 287 ≤ o.slip.length ∧ pkt ≠ none ∧ west = x.near
   let own := go ∧ (ready = [] ∨ 288 ≤ o.slip.length ∨ cut)
   let tight := 288 ≤ o.slip.length ∧ a.any (fun b => !b.is .idle) = true
   let low := own ∧ pkt = none
   let free := low ∧ o.fwd = none ∧ o.first = 0 ∧ ¬ tight
   let due := if o.timeRef ≠ none then o.timeRef else o.owed.bind (fun q => if q.1 = west then some q.2 else none)
   s.alive w ∧ free ∧ due = some r) ∧
  (let s : State := upWkr 1 false (upWkr 1 true (onCtl 1 (fun c => { c with clock := some true }) (wkrFld 1 F.WK_POS_POS 3 State.reset)))
    |> onOut 1 (fun o => { o with replies := [⟨mkReply 3 0 1 2 3, true⟩, ⟨mkReply 3 0 1 2 4, false⟩] })
   let w : Nat := 1
   let west : Bool := false
   let g : Answer := { blk := { hdr := 0x2#2, pay := 0x661800010000000203000000000065#120 }, west := true }
   let x := s.chip.worker w
   let n := s.chip.tick
   let rate := x.g F.WK_TRIM_RATE_NOW
   let cr : Int := if west = x.near then
         (if rate = 0xFF then 65536 else if rate = 0 then min 0 x.out.credit else min 65536 (x.out.credit + rate)) else x.out.credit
   let back := (x.port west).segUp true = true ∧ x.out.wasOut = true ∧ (west = x.near ∨ x.ctl.both = true)
   let o : WOut := { x.out with
         credit := cr, wasOut := x.out.wasOut && !decide back, timeRef := if back then some (x.out.timeRef.getD 0) else x.out.timeRef }
   let a := o.arriving
   let up := (x.port west).segUp true = true
   let on := x.ctl.clock ≠ none ∧ x.pos ≠ 0
   let ser := on ∧ (west = x.near ∨ x.ctl.both = true)
   let go := ser ∧ up ∧ a.any (·.is .sighting) = false
   let ready := o.sights.filter (fun e => decide (e.when + 3 ≤ n))
   let pkt := o.pkts.find? (fun p => p.west == west)
   let cut := 287 ≤ o.slip.length ∧ pkt ≠ none ∧ west = x.near
   let own := go ∧ (ready = [] ∨ 288 ≤ o.slip.length ∨ cut)
   let tight := 288 ≤ o.slip.length ∧ a.any (fun b => !b.is .idle) = true
   let low := own ∧ pkt = none
   let free := low ∧ o.fwd = none ∧ o.first = 0 ∧ ¬ tight
   let due := if o.timeRef ≠ none then o.timeRef else o.owed.bind (fun q => if q.1 = west then some q.2 else none)
   let ans := o.replies.find? (fun g => !x.ctl.both || g.west == west)
   s.alive w ∧ free ∧ due = none ∧ ans = some g) ∧
  (let s : State := upWkr 1 false (upWkr 1 true (onCtl 1 (fun c => { c with clock := some true }) (wkrFld 1 F.WK_POS_POS 3 State.reset)))
    |> onOut 1 (fun o => { o with slip := List.replicate 287 (dataB 4) })
   let w : Nat := 1
   let west : Bool := false
   let b : Block := { hdr := 0x1#2, pay := 0x000000000000000000000000000004#120 }
   let l : List Block := [{ hdr := 0x1#2, pay := 0x000000000000000000000000000004#120 }, { hdr := 0x1#2, pay := 0x000000000000000000000000000004#120 }, { hdr := 0x1#2, pay := 0x000000000000000000000000000004#120 }, { hdr := 0x1#2, pay := 0x000000000000000000000000000004#120 }, { hdr := 0x1#2, pay := 0x000000000000000000000000000004#120 }, { hdr := 0x1#2, pay := 0x000000000000000000000000000004#120 }, { hdr := 0x1#2, pay := 0x000000000000000000000000000004#120 }, { hdr := 0x1#2, pay := 0x000000000000000000000000000004#120 }, { hdr := 0x1#2, pay := 0x000000000000000000000000000004#120 }, { hdr := 0x1#2, pay := 0x000000000000000000000000000004#120 }, { hdr := 0x1#2, pay := 0x000000000000000000000000000004#120 }, { hdr := 0x1#2, pay := 0x000000000000000000000000000004#120 }, { hdr := 0x1#2, pay := 0x000000000000000000000000000004#120 }, { hdr := 0x1#2, pay := 0x000000000000000000000000000004#120 }, { hdr := 0x1#2, pay := 0x000000000000000000000000000004#120 }, { hdr := 0x1#2, pay := 0x000000000000000000000000000004#120 }, { hdr := 0x1#2, pay := 0x000000000000000000000000000004#120 }, { hdr := 0x1#2, pay := 0x000000000000000000000000000004#120 }, { hdr := 0x1#2, pay := 0x000000000000000000000000000004#120 }, { hdr := 0x1#2, pay := 0x000000000000000000000000000004#120 }, { hdr := 0x1#2, pay := 0x000000000000000000000000000004#120 }, { hdr := 0x1#2, pay := 0x000000000000000000000000000004#120 }, { hdr := 0x1#2, pay := 0x000000000000000000000000000004#120 }, { hdr := 0x1#2, pay := 0x000000000000000000000000000004#120 }, { hdr := 0x1#2, pay := 0x000000000000000000000000000004#120 }, { hdr := 0x1#2, pay := 0x000000000000000000000000000004#120 }, { hdr := 0x1#2, pay := 0x000000000000000000000000000004#120 }, { hdr := 0x1#2, pay := 0x000000000000000000000000000004#120 }, { hdr := 0x1#2, pay := 0x000000000000000000000000000004#120 }, { hdr := 0x1#2, pay := 0x000000000000000000000000000004#120 }, { hdr := 0x1#2, pay := 0x000000000000000000000000000004#120 }, { hdr := 0x1#2, pay := 0x000000000000000000000000000004#120 }, { hdr := 0x1#2, pay := 0x000000000000000000000000000004#120 }, { hdr := 0x1#2, pay := 0x000000000000000000000000000004#120 }, { hdr := 0x1#2, pay := 0x000000000000000000000000000004#120 }, { hdr := 0x1#2, pay := 0x000000000000000000000000000004#120 }, { hdr := 0x1#2, pay := 0x000000000000000000000000000004#120 }, { hdr := 0x1#2, pay := 0x000000000000000000000000000004#120 }, { hdr := 0x1#2, pay := 0x000000000000000000000000000004#120 }, { hdr := 0x1#2, pay := 0x000000000000000000000000000004#120 }, { hdr := 0x1#2, pay := 0x000000000000000000000000000004#120 }, { hdr := 0x1#2, pay := 0x000000000000000000000000000004#120 }, { hdr := 0x1#2, pay := 0x000000000000000000000000000004#120 }, { hdr := 0x1#2, pay := 0x000000000000000000000000000004#120 }, { hdr := 0x1#2, pay := 0x000000000000000000000000000004#120 }, { hdr := 0x1#2, pay := 0x000000000000000000000000000004#120 }, { hdr := 0x1#2, pay := 0x000000000000000000000000000004#120 }, { hdr := 0x1#2, pay := 0x000000000000000000000000000004#120 }, { hdr := 0x1#2, pay := 0x000000000000000000000000000004#120 }, { hdr := 0x1#2, pay := 0x000000000000000000000000000004#120 }, { hdr := 0x1#2, pay := 0x000000000000000000000000000004#120 }, { hdr := 0x1#2, pay := 0x000000000000000000000000000004#120 }, { hdr := 0x1#2, pay := 0x000000000000000000000000000004#120 }, { hdr := 0x1#2, pay := 0x000000000000000000000000000004#120 }, { hdr := 0x1#2, pay := 0x000000000000000000000000000004#120 }, { hdr := 0x1#2, pay := 0x000000000000000000000000000004#120 }, { hdr := 0x1#2, pay := 0x000000000000000000000000000004#120 }, { hdr := 0x1#2, pay := 0x000000000000000000000000000004#120 }, { hdr := 0x1#2, pay := 0x000000000000000000000000000004#120 }, { hdr := 0x1#2, pay := 0x000000000000000000000000000004#120 }, { hdr := 0x1#2, pay := 0x000000000000000000000000000004#120 }, { hdr := 0x1#2, pay := 0x000000000000000000000000000004#120 }, { hdr := 0x1#2, pay := 0x000000000000000000000000000004#120 }, { hdr := 0x1#2, pay := 0x000000000000000000000000000004#120 }, { hdr := 0x1#2, pay := 0x000000000000000000000000000004#120 }, { hdr := 0x1#2, pay := 0x000000000000000000000000000004#120 }, { hdr := 0x1#2, pay := 0x000000000000000000000000000004#120 }, { hdr := 0x1#2, pay := 0x000000000000000000000000000004#120 }, { hdr := 0x1#2, pay := 0x000000000000000000000000000004#120 }, { hdr := 0x1#2, pay := 0x000000000000000000000000000004#120 }, { hdr := 0x1#2, pay := 0x000000000000000000000000000004#120 }, { hdr := 0x1#2, pay := 0x000000000000000000000000000004#120 }, { hdr := 0x1#2, pay := 0x000000000000000000000000000004#120 }, { hdr := 0x1#2, pay := 0x000000000000000000000000000004#120 }, { hdr := 0x1#2, pay := 0x000000000000000000000000000004#120 }, { hdr := 0x1#2, pay := 0x000000000000000000000000000004#120 }, { hdr := 0x1#2, pay := 0x000000000000000000000000000004#120 }, { hdr := 0x1#2, pay := 0x000000000000000000000000000004#120 }, { hdr := 0x1#2, pay := 0x000000000000000000000000000004#120 }, { hdr := 0x1#2, pay := 0x000000000000000000000000000004#120 }, { hdr := 0x1#2, pay := 0x000000000000000000000000000004#120 }, { hdr := 0x1#2, pay := 0x000000000000000000000000000004#120 }, { hdr := 0x1#2, pay := 0x000000000000000000000000000004#120 }, { hdr := 0x1#2, pay := 0x000000000000000000000000000004#120 }, { hdr := 0x1#2, pay := 0x000000000000000000000000000004#120 }, { hdr := 0x1#2, pay := 0x000000000000000000000000000004#120 }, { hdr := 0x1#2, pay := 0x000000000000000000000000000004#120 }, { hdr := 0x1#2, pay := 0x000000000000000000000000000004#120 }, { hdr := 0x1#2, pay := 0x000000000000000000000000000004#120 }, { hdr := 0x1#2, pay := 0x000000000000000000000000000004#120 }, { hdr := 0x1#2, pay := 0x000000000000000000000000000004#120 }, { hdr := 0x1#2, pay := 0x000000000000000000000000000004#120 }, { hdr := 0x1#2, pay := 0x000000000000000000000000000004#120 }, { hdr := 0x1#2, pay := 0x000000000000000000000000000004#120 }, { hdr := 0x1#2, pay := 0x000000000000000000000000000004#120 }, { hdr := 0x1#2, pay := 0x000000000000000000000000000004#120 }, { hdr := 0x1#2, pay := 0x000000000000000000000000000004#120 }, { hdr := 0x1#2, pay := 0x000000000000000000000000000004#120 }, { hdr := 0x1#2, pay := 0x000000000000000000000000000004#120 }, { hdr := 0x1#2, pay := 0x000000000000000000000000000004#120 }, { hdr := 0x1#2, pay := 0x000000000000000000000000000004#120 }, { hdr := 0x1#2, pay := 0x000000000000000000000000000004#120 }, { hdr := 0x1#2, pay := 0x000000000000000000000000000004#120 }, { hdr := 0x1#2, pay := 0x000000000000000000000000000004#120 }, { hdr := 0x1#2, pay := 0x000000000000000000000000000004#120 }, { hdr := 0x1#2, pay := 0x000000000000000000000000000004#120 }, { hdr := 0x1#2, pay := 0x000000000000000000000000000004#120 }, { hdr := 0x1#2, pay := 0x000000000000000000000000000004#120 }, { hdr := 0x1#2, pay := 0x000000000000000000000000000004#120 }, { hdr := 0x1#2, pay := 0x000000000000000000000000000004#120 }, { hdr := 0x1#2, pay := 0x000000000000000000000000000004#120 }, { hdr := 0x1#2, pay := 0x000000000000000000000000000004#120 }, { hdr := 0x1#2, pay := 0x000000000000000000000000000004#120 }, { hdr := 0x1#2, pay := 0x000000000000000000000000000004#120 }, { hdr := 0x1#2, pay := 0x000000000000000000000000000004#120 }, { hdr := 0x1#2, pay := 0x000000000000000000000000000004#120 }, { hdr := 0x1#2, pay := 0x000000000000000000000000000004#120 }, { hdr := 0x1#2, pay := 0x000000000000000000000000000004#120 }, { hdr := 0x1#2, pay := 0x000000000000000000000000000004#120 }, { hdr := 0x1#2, pay := 0x000000000000000000000000000004#120 }, { hdr := 0x1#2, pay := 0x000000000000000000000000000004#120 }, { hdr := 0x1#2, pay := 0x000000000000000000000000000004#120 }, { hdr := 0x1#2, pay := 0x000000000000000000000000000004#120 }, { hdr := 0x1#2, pay := 0x000000000000000000000000000004#120 }, { hdr := 0x1#2, pay := 0x000000000000000000000000000004#120 }, { hdr := 0x1#2, pay := 0x000000000000000000000000000004#120 }, { hdr := 0x1#2, pay := 0x000000000000000000000000000004#120 }, { hdr := 0x1#2, pay := 0x000000000000000000000000000004#120 }, { hdr := 0x1#2, pay := 0x000000000000000000000000000004#120 }, { hdr := 0x1#2, pay := 0x000000000000000000000000000004#120 }, { hdr := 0x1#2, pay := 0x000000000000000000000000000004#120 }, { hdr := 0x1#2, pay := 0x000000000000000000000000000004#120 }, { hdr := 0x1#2, pay := 0x000000000000000000000000000004#120 }, { hdr := 0x1#2, pay := 0x000000000000000000000000000004#120 }, { hdr := 0x1#2, pay := 0x000000000000000000000000000004#120 }, { hdr := 0x1#2, pay := 0x000000000000000000000000000004#120 }, { hdr := 0x1#2, pay := 0x000000000000000000000000000004#120 }, { hdr := 0x1#2, pay := 0x000000000000000000000000000004#120 }, { hdr := 0x1#2, pay := 0x000000000000000000000000000004#120 }, { hdr := 0x1#2, pay := 0x000000000000000000000000000004#120 }, { hdr := 0x1#2, pay := 0x000000000000000000000000000004#120 }, { hdr := 0x1#2, pay := 0x000000000000000000000000000004#120 }, { hdr := 0x1#2, pay := 0x000000000000000000000000000004#120 }, { hdr := 0x1#2, pay := 0x000000000000000000000000000004#120 }, { hdr := 0x1#2, pay := 0x000000000000000000000000000004#120 }, { hdr := 0x1#2, pay := 0x000000000000000000000000000004#120 }, { hdr := 0x1#2, pay := 0x000000000000000000000000000004#120 }, { hdr := 0x1#2, pay := 0x000000000000000000000000000004#120 }, { hdr := 0x1#2, pay := 0x000000000000000000000000000004#120 }, { hdr := 0x1#2, pay := 0x000000000000000000000000000004#120 }, { hdr := 0x1#2, pay := 0x000000000000000000000000000004#120 }, { hdr := 0x1#2, pay := 0x000000000000000000000000000004#120 }, { hdr := 0x1#2, pay := 0x000000000000000000000000000004#120 }, { hdr := 0x1#2, pay := 0x000000000000000000000000000004#120 }, { hdr := 0x1#2, pay := 0x000000000000000000000000000004#120 }, { hdr := 0x1#2, pay := 0x000000000000000000000000000004#120 }, { hdr := 0x1#2, pay := 0x000000000000000000000000000004#120 }, { hdr := 0x1#2, pay := 0x000000000000000000000000000004#120 }, { hdr := 0x1#2, pay := 0x000000000000000000000000000004#120 }, { hdr := 0x1#2, pay := 0x000000000000000000000000000004#120 }, { hdr := 0x1#2, pay := 0x000000000000000000000000000004#120 }, { hdr := 0x1#2, pay := 0x000000000000000000000000000004#120 }, { hdr := 0x1#2, pay := 0x000000000000000000000000000004#120 }, { hdr := 0x1#2, pay := 0x000000000000000000000000000004#120 }, { hdr := 0x1#2, pay := 0x000000000000000000000000000004#120 }, { hdr := 0x1#2, pay := 0x000000000000000000000000000004#120 }, { hdr := 0x1#2, pay := 0x000000000000000000000000000004#120 }, { hdr := 0x1#2, pay := 0x000000000000000000000000000004#120 }, { hdr := 0x1#2, pay := 0x000000000000000000000000000004#120 }, { hdr := 0x1#2, pay := 0x000000000000000000000000000004#120 }, { hdr := 0x1#2, pay := 0x000000000000000000000000000004#120 }, { hdr := 0x1#2, pay := 0x000000000000000000000000000004#120 }, { hdr := 0x1#2, pay := 0x000000000000000000000000000004#120 }, { hdr := 0x1#2, pay := 0x000000000000000000000000000004#120 }, { hdr := 0x1#2, pay := 0x000000000000000000000000000004#120 }, { hdr := 0x1#2, pay := 0x000000000000000000000000000004#120 }, { hdr := 0x1#2, pay := 0x000000000000000000000000000004#120 }, { hdr := 0x1#2, pay := 0x000000000000000000000000000004#120 }, { hdr := 0x1#2, pay := 0x000000000000000000000000000004#120 }, { hdr := 0x1#2, pay := 0x000000000000000000000000000004#120 }, { hdr := 0x1#2, pay := 0x000000000000000000000000000004#120 }, { hdr := 0x1#2, pay := 0x000000000000000000000000000004#120 }, { hdr := 0x1#2, pay := 0x000000000000000000000000000004#120 }, { hdr := 0x1#2, pay := 0x000000000000000000000000000004#120 }, { hdr := 0x1#2, pay := 0x000000000000000000000000000004#120 }, { hdr := 0x1#2, pay := 0x000000000000000000000000000004#120 }, { hdr := 0x1#2, pay := 0x000000000000000000000000000004#120 }, { hdr := 0x1#2, pay := 0x000000000000000000000000000004#120 }, { hdr := 0x1#2, pay := 0x000000000000000000000000000004#120 }, { hdr := 0x1#2, pay := 0x000000000000000000000000000004#120 }, { hdr := 0x1#2, pay := 0x000000000000000000000000000004#120 }, { hdr := 0x1#2, pay := 0x000000000000000000000000000004#120 }, { hdr := 0x1#2, pay := 0x000000000000000000000000000004#120 }, { hdr := 0x1#2, pay := 0x000000000000000000000000000004#120 }, { hdr := 0x1#2, pay := 0x000000000000000000000000000004#120 }, { hdr := 0x1#2, pay := 0x000000000000000000000000000004#120 }, { hdr := 0x1#2, pay := 0x000000000000000000000000000004#120 }, { hdr := 0x1#2, pay := 0x000000000000000000000000000004#120 }, { hdr := 0x1#2, pay := 0x000000000000000000000000000004#120 }, { hdr := 0x1#2, pay := 0x000000000000000000000000000004#120 }, { hdr := 0x1#2, pay := 0x000000000000000000000000000004#120 }, { hdr := 0x1#2, pay := 0x000000000000000000000000000004#120 }, { hdr := 0x1#2, pay := 0x000000000000000000000000000004#120 }, { hdr := 0x1#2, pay := 0x000000000000000000000000000004#120 }, { hdr := 0x1#2, pay := 0x000000000000000000000000000004#120 }, { hdr := 0x1#2, pay := 0x000000000000000000000000000004#120 }, { hdr := 0x1#2, pay := 0x000000000000000000000000000004#120 }, { hdr := 0x1#2, pay := 0x000000000000000000000000000004#120 }, { hdr := 0x1#2, pay := 0x000000000000000000000000000004#120 }, { hdr := 0x1#2, pay := 0x000000000000000000000000000004#120 }, { hdr := 0x1#2, pay := 0x000000000000000000000000000004#120 }, { hdr := 0x1#2, pay := 0x000000000000000000000000000004#120 }, { hdr := 0x1#2, pay := 0x000000000000000000000000000004#120 }, { hdr := 0x1#2, pay := 0x000000000000000000000000000004#120 }, { hdr := 0x1#2, pay := 0x000000000000000000000000000004#120 }, { hdr := 0x1#2, pay := 0x000000000000000000000000000004#120 }, { hdr := 0x1#2, pay := 0x000000000000000000000000000004#120 }, { hdr := 0x1#2, pay := 0x000000000000000000000000000004#120 }, { hdr := 0x1#2, pay := 0x000000000000000000000000000004#120 }, { hdr := 0x1#2, pay := 0x000000000000000000000000000004#120 }, { hdr := 0x1#2, pay := 0x000000000000000000000000000004#120 }, { hdr := 0x1#2, pay := 0x000000000000000000000000000004#120 }, { hdr := 0x1#2, pay := 0x000000000000000000000000000004#120 }, { hdr := 0x1#2, pay := 0x000000000000000000000000000004#120 }, { hdr := 0x1#2, pay := 0x000000000000000000000000000004#120 }, { hdr := 0x1#2, pay := 0x000000000000000000000000000004#120 }, { hdr := 0x1#2, pay := 0x000000000000000000000000000004#120 }, { hdr := 0x1#2, pay := 0x000000000000000000000000000004#120 }, { hdr := 0x1#2, pay := 0x000000000000000000000000000004#120 }, { hdr := 0x1#2, pay := 0x000000000000000000000000000004#120 }, { hdr := 0x1#2, pay := 0x000000000000000000000000000004#120 }, { hdr := 0x1#2, pay := 0x000000000000000000000000000004#120 }, { hdr := 0x1#2, pay := 0x000000000000000000000000000004#120 }, { hdr := 0x1#2, pay := 0x000000000000000000000000000004#120 }, { hdr := 0x1#2, pay := 0x000000000000000000000000000004#120 }, { hdr := 0x1#2, pay := 0x000000000000000000000000000004#120 }, { hdr := 0x1#2, pay := 0x000000000000000000000000000004#120 }, { hdr := 0x1#2, pay := 0x000000000000000000000000000004#120 }, { hdr := 0x1#2, pay := 0x000000000000000000000000000004#120 }, { hdr := 0x1#2, pay := 0x000000000000000000000000000004#120 }, { hdr := 0x1#2, pay := 0x000000000000000000000000000004#120 }, { hdr := 0x1#2, pay := 0x000000000000000000000000000004#120 }, { hdr := 0x1#2, pay := 0x000000000000000000000000000004#120 }, { hdr := 0x1#2, pay := 0x000000000000000000000000000004#120 }, { hdr := 0x1#2, pay := 0x000000000000000000000000000004#120 }, { hdr := 0x1#2, pay := 0x000000000000000000000000000004#120 }, { hdr := 0x1#2, pay := 0x000000000000000000000000000004#120 }, { hdr := 0x1#2, pay := 0x000000000000000000000000000004#120 }, { hdr := 0x1#2, pay := 0x000000000000000000000000000004#120 }, { hdr := 0x1#2, pay := 0x000000000000000000000000000004#120 }, { hdr := 0x1#2, pay := 0x000000000000000000000000000004#120 }, { hdr := 0x1#2, pay := 0x000000000000000000000000000004#120 }, { hdr := 0x1#2, pay := 0x000000000000000000000000000004#120 }, { hdr := 0x1#2, pay := 0x000000000000000000000000000004#120 }, { hdr := 0x1#2, pay := 0x000000000000000000000000000004#120 }, { hdr := 0x1#2, pay := 0x000000000000000000000000000004#120 }, { hdr := 0x1#2, pay := 0x000000000000000000000000000004#120 }, { hdr := 0x1#2, pay := 0x000000000000000000000000000004#120 }, { hdr := 0x1#2, pay := 0x000000000000000000000000000004#120 }, { hdr := 0x1#2, pay := 0x000000000000000000000000000004#120 }, { hdr := 0x1#2, pay := 0x000000000000000000000000000004#120 }, { hdr := 0x1#2, pay := 0x000000000000000000000000000004#120 }, { hdr := 0x1#2, pay := 0x000000000000000000000000000004#120 }, { hdr := 0x1#2, pay := 0x000000000000000000000000000004#120 }, { hdr := 0x1#2, pay := 0x000000000000000000000000000004#120 }, { hdr := 0x1#2, pay := 0x000000000000000000000000000004#120 }, { hdr := 0x1#2, pay := 0x000000000000000000000000000004#120 }, { hdr := 0x1#2, pay := 0x000000000000000000000000000004#120 }, { hdr := 0x1#2, pay := 0x000000000000000000000000000004#120 }, { hdr := 0x1#2, pay := 0x000000000000000000000000000004#120 }, { hdr := 0x1#2, pay := 0x000000000000000000000000000004#120 }, { hdr := 0x1#2, pay := 0x000000000000000000000000000004#120 }, { hdr := 0x1#2, pay := 0x000000000000000000000000000004#120 }, { hdr := 0x1#2, pay := 0x000000000000000000000000000004#120 }, { hdr := 0x1#2, pay := 0x000000000000000000000000000004#120 }, { hdr := 0x1#2, pay := 0x000000000000000000000000000004#120 }, { hdr := 0x1#2, pay := 0x000000000000000000000000000004#120 }, { hdr := 0x1#2, pay := 0x000000000000000000000000000004#120 }, { hdr := 0x1#2, pay := 0x000000000000000000000000000004#120 }, { hdr := 0x1#2, pay := 0x000000000000000000000000000004#120 }, { hdr := 0x1#2, pay := 0x000000000000000000000000000004#120 }, { hdr := 0x1#2, pay := 0x000000000000000000000000000004#120 }, { hdr := 0x1#2, pay := 0x000000000000000000000000000004#120 }, { hdr := 0x1#2, pay := 0x000000000000000000000000000004#120 }, { hdr := 0x1#2, pay := 0x000000000000000000000000000004#120 }, { hdr := 0x1#2, pay := 0x000000000000000000000000000004#120 }]
   let x := s.chip.worker w
   let n := s.chip.tick
   let rate := x.g F.WK_TRIM_RATE_NOW
   let cr : Int := if west = x.near then
         (if rate = 0xFF then 65536 else if rate = 0 then min 0 x.out.credit else min 65536 (x.out.credit + rate)) else x.out.credit
   let back := (x.port west).segUp true = true ∧ x.out.wasOut = true ∧ (west = x.near ∨ x.ctl.both = true)
   let o : WOut := { x.out with
         credit := cr, wasOut := x.out.wasOut && !decide back, timeRef := if back then some (x.out.timeRef.getD 0) else x.out.timeRef }
   let a := o.arriving
   let up := (x.port west).segUp true = true
   let on := x.ctl.clock ≠ none ∧ x.pos ≠ 0
   let ser := on ∧ (west = x.near ∨ x.ctl.both = true)
   let go := ser ∧ up ∧ a.any (·.is .sighting) = false
   let ready := o.sights.filter (fun e => decide (e.when + 3 ≤ n))
   let pkt := o.pkts.find? (fun p => p.west == west)
   let cut := 287 ≤ o.slip.length ∧ pkt ≠ none ∧ west = x.near
   let own := go ∧ (ready = [] ∨ 288 ≤ o.slip.length ∨ cut)
   let tight := 288 ≤ o.slip.length ∧ a.any (fun b => !b.is .idle) = true
   let low := own ∧ pkt = none
   let free := low ∧ o.fwd = none ∧ o.first = 0 ∧ ¬ tight
   let due := if o.timeRef ≠ none then o.timeRef else o.owed.bind (fun q => if q.1 = west then some q.2 else none)
   let ans := o.replies.find? (fun g => !x.ctl.both || g.west == west)
   let fwd := low ∧ ¬ (free ∧ (due ≠ none ∨ ans ≠ none))
   s.alive w ∧ fwd ∧ o.slip = b :: l) ∧
  (let s : State := upWkr 1 false (upWkr 1 true (onCtl 1 (fun c => { c with clock := some true }) (wkrFld 1 F.WK_POS_POS 3 State.reset)))
    |> onOut 1 (fun o => { o with arriving := some (mkReply 4 0 1 2 3) })
   let w : Nat := 1
   let west : Bool := false
   let b : Block := { hdr := 0x2#2, pay := 0x662000010000000203000000000058#120 }
   let x := s.chip.worker w
   let n := s.chip.tick
   let rate := x.g F.WK_TRIM_RATE_NOW
   let cr : Int := if west = x.near then
         (if rate = 0xFF then 65536 else if rate = 0 then min 0 x.out.credit else min 65536 (x.out.credit + rate)) else x.out.credit
   let back := (x.port west).segUp true = true ∧ x.out.wasOut = true ∧ (west = x.near ∨ x.ctl.both = true)
   let o : WOut := { x.out with
         credit := cr, wasOut := x.out.wasOut && !decide back, timeRef := if back then some (x.out.timeRef.getD 0) else x.out.timeRef }
   let a := o.arriving
   let up := (x.port west).segUp true = true
   let on := x.ctl.clock ≠ none ∧ x.pos ≠ 0
   let ser := on ∧ (west = x.near ∨ x.ctl.both = true)
   let go := ser ∧ up ∧ a.any (·.is .sighting) = false
   let ready := o.sights.filter (fun e => decide (e.when + 3 ≤ n))
   let pkt := o.pkts.find? (fun p => p.west == west)
   let cut := 287 ≤ o.slip.length ∧ pkt ≠ none ∧ west = x.near
   let own := go ∧ (ready = [] ∨ 288 ≤ o.slip.length ∨ cut)
   let tight := 288 ≤ o.slip.length ∧ a.any (fun b => !b.is .idle) = true
   let low := own ∧ pkt = none
   let free := low ∧ o.fwd = none ∧ o.first = 0 ∧ ¬ tight
   let due := if o.timeRef ≠ none then o.timeRef else o.owed.bind (fun q => if q.1 = west then some q.2 else none)
   let ans := o.replies.find? (fun g => !x.ctl.both || g.west == west)
   let fwd := low ∧ ¬ (free ∧ (due ≠ none ∨ ans ≠ none))
   s.alive w ∧ fwd ∧ o.slip = [] ∧ a = some b ∧ b.is .idle = false) ∧
  (let s : State := upWkr 1 false (upWkr 1 true (onCtl 1 (fun c => { c with clock := some true }) (wkrFld 1 F.WK_POS_POS 3 State.reset)))
   let w : Nat := 1
   let west : Bool := false
   let x := s.chip.worker w
   let n := s.chip.tick
   let rate := x.g F.WK_TRIM_RATE_NOW
   let cr : Int := if west = x.near then
         (if rate = 0xFF then 65536 else if rate = 0 then min 0 x.out.credit else min 65536 (x.out.credit + rate)) else x.out.credit
   let back := (x.port west).segUp true = true ∧ x.out.wasOut = true ∧ (west = x.near ∨ x.ctl.both = true)
   let o : WOut := { x.out with
         credit := cr, wasOut := x.out.wasOut && !decide back, timeRef := if back then some (x.out.timeRef.getD 0) else x.out.timeRef }
   let a := o.arriving
   let up := (x.port west).segUp true = true
   let on := x.ctl.clock ≠ none ∧ x.pos ≠ 0
   let ser := on ∧ (west = x.near ∨ x.ctl.both = true)
   let go := ser ∧ up ∧ a.any (·.is .sighting) = false
   let ready := o.sights.filter (fun e => decide (e.when + 3 ≤ n))
   let pkt := o.pkts.find? (fun p => p.west == west)
   let cut := 287 ≤ o.slip.length ∧ pkt ≠ none ∧ west = x.near
   let own := go ∧ (ready = [] ∨ 288 ≤ o.slip.length ∨ cut)
   let tight := 288 ≤ o.slip.length ∧ a.any (fun b => !b.is .idle) = true
   let low := own ∧ pkt = none
   let free := low ∧ o.fwd = none ∧ o.first = 0 ∧ ¬ tight
   let due := if o.timeRef ≠ none then o.timeRef else o.owed.bind (fun q => if q.1 = west then some q.2 else none)
   let ans := o.replies.find? (fun g => !x.ctl.both || g.west == west)
   let fwd := low ∧ ¬ (free ∧ (due ≠ none ∨ ans ≠ none))
   s.alive w ∧ fwd ∧ o.slip = [] ∧ a.all (·.is .idle) = true) ∧
  (let s : State := upWkr 1 false (upWkr 1 true (onCtl 1 (fun c => { c with clock := some true }) (wkrFld 1 F.WK_POS_POS 3 State.reset)))
    |> onWkrPort 1 false (fun _ => Port.init)
   let w : Nat := 1
   let west : Bool := false
   let x := s.chip.worker w
   let up := (x.port west).segUp true = true
   let on := x.ctl.clock ≠ none ∧ x.pos ≠ 0
   let ser := on ∧ (west = x.near ∨ x.ctl.both = true)
   s.alive w ∧ ser ∧ ¬ up) ∧
  (let s : State := upWkr 1 false (upWkr 1 true (onCtl 1 (fun c => { c with clock := some true }) (wkrFld 1 F.WK_POS_POS 3 State.reset)))
    |> onCtl 1 (fun c => { c with old := some ⟨true, 3, [], none⟩ })
   let w : Nat := 1
   let west : Bool := true
   let od : OldSide := { west := true, epoch := 3, blocks := [], fwd := none }
   let x := s.chip.worker w
   let up := (x.port west).segUp true = true
   let on := x.ctl.clock ≠ none ∧ x.pos ≠ 0
   let far := on ∧ west ≠ x.near ∧ x.ctl.both = false
   s.alive w ∧ far ∧ x.ctl.old = some od ∧ od.west = west ∧ up) ∧
  (let s : State := upWkr 1 false (upWkr 1 true (onCtl 1 (fun c => { c with clock := some true }) (wkrFld 1 F.WK_POS_POS 3 State.reset)))
    |> onCtl 1 (fun c => { c with old := some ⟨false, 3, [dataB 4], some ⟨4, 2⟩⟩ })
   let w : Nat := 1
   let west : Bool := true
   let od : OldSide := { west := false, epoch := 3, blocks := [{ hdr := 0x1#2, pay := 0x000000000000000000000000000004#120 }], fwd := some { pos := 4, sent := 2 } }
   let x := s.chip.worker w
   let up := (x.port west).segUp true = true
   let on := x.ctl.clock ≠ none ∧ x.pos ≠ 0
   let far := on ∧ west ≠ x.near ∧ x.ctl.both = false
   s.alive w ∧ far ∧ x.ctl.old = some od ∧ ((od.west ≠ west ∨ ¬ up))) ∧
  (let s : State := upWkr 1 false (upWkr 1 true (onCtl 1 (fun c => { c with clock := some true }) (wkrFld 1 F.WK_POS_POS 3 State.reset)))
    |> onWkrPort 1 true (fun p => { p with tx := { p.tx with queue := [mkCmd 4 true 1 2 3, dataB 7] } })
   let w : Nat := 1
   let west : Bool := true
   let b : Block := { hdr := 0x2#2, pay := 0x55240004000000080c000000000000#120 }
   let l : List Block := [{ hdr := 0x1#2, pay := 0x000000000000000000000000000007#120 }]
   let x := s.chip.worker w
   let on := x.ctl.clock ≠ none ∧ x.pos ≠ 0
   let far := on ∧ west ≠ x.near ∧ x.ctl.both = false
   s.alive w ∧ far ∧ x.ctl.old = none ∧ (x.port west).tx.queue = b :: l) ∧
  (let s : State := upWkr 1 false (upWkr 1 true (onCtl 1 (fun c => { c with clock := some true }) (wkrFld 1 F.WK_POS_POS 3 State.reset)))
   let w : Nat := 1
   let west : Bool := true
   let x := s.chip.worker w
   let on := x.ctl.clock ≠ none ∧ x.pos ≠ 0
   let far := on ∧ west ≠ x.near ∧ x.ctl.both = false
   s.alive w ∧ far ∧ x.ctl.old = none ∧ (x.port west).tx.queue = []) ∧
  (let s : State := upWkr 1 false (upWkr 1 true (onCtl 1 (fun c => { c with clock := some true }) (wkrFld 1 F.WK_POS_POS 3 State.reset)))
    |> onOut 1 (fun o => { o with monitor := true })
   let w : Nat := 1
   let x := s.chip.worker w
   let o := x.out
   s.alive w ∧ o.monitor = true) ∧
  (let s : State := upWkr 1 false (upWkr 1 true (onCtl 1 (fun c => { c with clock := some true }) (wkrFld 1 F.WK_POS_POS 3 State.reset)))
    |> onMarks 1 (fun m => { m with trailers := [⟨4, 0, 2, true⟩] })
   let w : Nat := 1
   let west : Bool := true
   let t : Trailer := { id := 4, part := 0, status := 2, west := true }
   let x := s.chip.worker w
   let o := x.out
   s.alive w ∧ o.monitor = false ∧ x.marks.trailers.find? (fun t => !x.ctl.both || t.west == west) = some t) ∧
  (let s : State := upWkr 1 false (upWkr 1 true (onCtl 1 (fun c => { c with clock := some true }) (wkrFld 1 F.WK_POS_POS 3 State.reset)))
    |> onMarks 1 (fun m => { m with serving := some ⟨⟨1,90,30,false⟩,0,[(0,9)],1,0,true⟩ })
   let w : Nat := 1
   let west : Bool := true
   let sv : Serving := { mark := { id := 1, start := 90, len := 30, west := false }, part := 0, toCopy := [(0, 9)], left := 1, partialTiles := 0x0000000000000000#64, scanned := true }
   let x := s.chip.worker w
   let o := x.out
   let next := o.monitor = false ∧ x.marks.trailers.find? (fun t => !x.ctl.both || t.west == west) = none
   let mine := x.marks.serving = some sv ∧ sv.scanned = true ∧ (x.ctl.both = false ∨ sv.mark.west = west)
   s.alive w ∧ next ∧ mine) ∧
  (let s : State := upWkr 1 false (upWkr 1 true (onCtl 1 (fun c => { c with clock := some true }) (wkrFld 1 F.WK_POS_POS 3 State.reset)))
   let w : Nat := 1
   let west : Bool := false
   let sv : Serving := { mark := { id := 1, start := 90, len := 30, west := false }, part := 0, toCopy := [], left := 0, partialTiles := 0x0000000000000000#64, scanned := false }
   let x := s.chip.worker w
   let o := x.out
   let next := o.monitor = false ∧ x.marks.trailers.find? (fun t => !x.ctl.both || t.west == west) = none
   s.alive w ∧ next ∧ ((x.marks.serving = none ∨ x.marks.serving = some sv ∧ (sv.scanned = false ∨ x.ctl.both = true ∧ sv.mark.west ≠ west)))) ∧
  (let s : State := upWkr 1 false (upWkr 1 true (onCtl 1 (fun c => { c with clock := some true }) (wkrFld 1 F.WK_POS_POS 3 State.reset)))
   let w : Nat := 1
   let west : Bool := true
   let p : OwnPkt := { west := true, kind := 0, len := 5, sent := 5, crc := 77, recsLeft := 0, recsSent := 0, words := [], trailer := none, serves := false, epoch := 1 }
   let x := s.chip.worker w
   let o := x.out
   let cut := 287 ≤ o.slip.length ∧ west = x.near
   s.alive w ∧ (cut ∨ p.len ≤ p.sent)) ∧
  (let s : State := upWkr 1 false (upWkr 1 true (onCtl 1 (fun c => { c with clock := some true }) (wkrFld 1 F.WK_POS_POS 3 State.reset)))
   let w : Nat := 1
   let west : Bool := true
   let p : OwnPkt := { west := true, kind := 1, len := 1, sent := 0, crc := 77, recsLeft := 0, recsSent := 0, words := [], trailer := some { id := 4, part := 0, status := 2, west := true }, serves := false, epoch := 1 }
   let x := s.chip.worker w
   let o := x.out
   let cut := 287 ≤ o.slip.length ∧ west = x.near
   s.alive w ∧ ¬ cut ∧ p.sent < p.len ∧ p.words = [] ∧ p.recsLeft = 0) ∧
  (let s : State := upWkr 1 false (upWkr 1 true (onCtl 1 (fun c => { c with clock := some true }) (wkrFld 1 F.WK_POS_POS 3 State.reset)))
   let w : Nat := 1
   let west : Bool := true
   let p : OwnPkt := { west := true, kind := 0, len := 5, sent := 3, crc := 77, recsLeft := 3, recsSent := 0, words := [], trailer := none, serves := false, epoch := 1 }
   let x := s.chip.worker w
   let o := x.out
   let cut := 287 ≤ o.slip.length ∧ west = x.near
   s.alive w ∧ ¬ cut ∧ p.sent < p.len ∧ p.words = [] ∧ p.recsLeft ≠ 0) ∧
  (let s : State := upWkr 1 false (upWkr 1 true (onCtl 1 (fun c => { c with clock := some true }) (wkrFld 1 F.WK_POS_POS 3 State.reset)))
    |> wkrFld 1 F.WK_POS_NEAR 1
   let w : Nat := 1
   let west : Bool := false
   let b : Block := { hdr := 0x1#2, pay := 0x000000000000000000000000000000#120 }
   let p : OwnPkt := { west := false, kind := 2, len := 5, sent := 2, crc := 77, recsLeft := 0, recsSent := 0, words := [{ hdr := 0x1#2, pay := 0x000000000000000000000000000000#120 }], trailer := none, serves := false, epoch := 1 }
   let x := s.chip.worker w
   let o := x.out
   let cut := 287 ≤ o.slip.length ∧ west = x.near
   s.alive w ∧ ¬ cut ∧ p.sent < p.len ∧ p.words.head? = some b) ∧
  (let s : State := upWkr 1 false (upWkr 1 true (onCtl 1 (fun c => { c with clock := some true }) (wkrFld 1 F.WK_POS_POS 3 State.reset)))
   let w : Nat := 1
   let p : OwnPkt := { west := false, kind := 2, len := 5, sent := 2, crc := 77, recsLeft := 0, recsSent := 0, words := [{ hdr := 0x1#2, pay := 0x000000000000000000000000000000#120 }], trailer := none, serves := false, epoch := 1 }
   s.alive w ∧ p.serves = false) ∧
  (let s : State := upWkr 1 false (upWkr 1 true (onCtl 1 (fun c => { c with clock := some true }) (wkrFld 1 F.WK_POS_POS 3 State.reset)))
    |> onOut 1 (fun o => { o with pkts := [⟨true, kindMarkResult, 5, 3, 77, 3, 0, [], none, true, 1⟩] })
    |> onMarks 1 (fun m => { m with serving := some ⟨⟨1,90,30,false⟩,0,[(0,9)],1,0,true⟩ })
   let w : Nat := 1
   let p : OwnPkt := { west := true, kind := 1, len := 5, sent := 3, crc := 77, recsLeft := 3, recsSent := 0, words := [], trailer := none, serves := true, epoch := 1 }
   let sv : Serving := { mark := { id := 1, start := 90, len := 30, west := false }, part := 0, toCopy := [(0, 9)], left := 1, partialTiles := 0x0000000000000000#64, scanned := true }
   let x := s.chip.worker w
   s.alive w ∧ p.serves = true ∧ x.marks.serving = some sv ∧ sv.left ≠ 0) ∧
  (let s : State := upWkr 1 false (upWkr 1 true (onCtl 1 (fun c => { c with clock := some true }) (wkrFld 1 F.WK_POS_POS 3 State.reset)))
    |> onOut 1 (fun o => { o with pkts := [⟨true, kindMarkResult, 5, 3, 77, 3, 0, [], none, true, 1⟩] })
    |> onMarks 1 (fun m => { m with serving := some ⟨⟨1,90,30,true⟩,0,[],0,0,false⟩ })
   let w : Nat := 1
   let p : OwnPkt := { west := true, kind := 1, len := 5, sent := 3, crc := 77, recsLeft := 3, recsSent := 0, words := [], trailer := none, serves := true, epoch := 1 }
   let sv : Serving := { mark := { id := 1, start := 90, len := 30, west := true }, part := 0, toCopy := [], left := 0, partialTiles := 0x0000000000000000#64, scanned := false }
   let x := s.chip.worker w
   s.alive w ∧ p.serves = true ∧ x.marks.serving = some sv ∧ sv.left = 0) ∧
  (let s : State := upWkr 1 false (upWkr 1 true (onCtl 1 (fun c => { c with clock := some true }) (wkrFld 1 F.WK_POS_POS 3 State.reset)))
   let w : Nat := 1
   let x := s.chip.worker w
   let item := (x.port (!x.near)).inbox.find? goesUp
   s.alive w ∧ item = none) ∧
  (let s : State := upWkr 1 false (upWkr 1 true (onCtl 1 (fun c => { c with clock := some true }) (wkrFld 1 F.WK_POS_POS 3 State.reset)))
    |> received 1 true [mkReply 4 0 1 2 3, dataB 1]
   let w : Nat := 1
   let b : Block := { hdr := 0x2#2, pay := 0x662000010000000203000000000058#120 }
   let x := s.chip.worker w
   let item := (x.port (!x.near)).inbox.find? goesUp
   s.alive w ∧ item = some (.block b)) := by
  refine ⟨?_, ?_, ?_, ?_, ?_, ?_, ?_, ?_, ?_, ?_, ?_, ?_, ?_, ?_, ?_, ?_, ?_, ?_, ?_, ?_, ?_, ?_, ?_, ?_, ?_, ?_, ?_, ?_⟩ <;>
    (unfold State.alive; decide +kernel)

theorem witness_LinkLevel :
  (let s : State := State.reset
   let r : PortRef := .worker 1 false
   let p := s.thePort r
   let wk := ofWorker r
   let near := p.g wk F.LNK_CTL_LPB_NEAR = 1
   s.portLive r ∧ ¬ near) ∧
  (let s : State := State.reset |> onWkrPort 1 false (fun p => p.s true F.LNK_CTL_LPB_NEAR 1)
   let r : PortRef := .worker 1 false
   let p := s.thePort r
   let wk := ofWorker r
   let near := p.g wk F.LNK_CTL_LPB_NEAR = 1
   s.portLive r ∧ near) ∧
  (let s : State := State.reset |> atTick 70000
   let r : PortRef := .worker 1 false
   let p := s.thePort r
   let n := s.chip.tick
   s.portLive r ∧ p.noLockDue n = true) ∧
  (let s : State := State.reset
   let r : PortRef := .worker 1 false
   let p := s.thePort r
   let n := s.chip.tick
   s.portLive r ∧ p.noLockDue n = false) ∧
  (let s : State := State.reset |> onWkrPort 1 false (fun p => { p with rx := { p.rx with lock := .locked } })
    |> onWkrPort 1 false (fun p => p.s true F.LNK_STAT_FAR_ST 1) |> onWkrPort 1 false (fun p => { p with tx := { p.tx with seqDue := true } })
   let r : PortRef := .worker 1 false
   let p := s.thePort r
   let wk := ofWorker r
   let far := p.g wk F.LNK_STAT_FAR_ST
   let starts := p.locked = true ∧ p.tx.seqDue = true ∧ far = 1
   s.portLive r ∧ starts) ∧
  (let s : State := State.reset
   let r : PortRef := .worker 1 false
   let p := s.thePort r
   let wk := ofWorker r
   let far := p.g wk F.LNK_STAT_FAR_ST
   let starts := p.locked = true ∧ p.tx.seqDue = true ∧ far = 1
   s.portLive r ∧ ¬ starts) ∧
  (let s : State := State.reset
   let r : PortRef := .worker 1 false
   let p := s.thePort r
   let wk := ofWorker r
   let far := p.g wk F.LNK_STAT_FAR_ST
   s.portLive r ∧ (p.locked = false ∨ (far ≠ 1 ∧ far ≠ 2))) ∧
  (let s : State := State.reset |> onWkrPort 1 true (fun p => { p with rx := { p.rx with lock := .locked } })
    |> onWkrPort 1 true (fun p => p.s true F.LNK_STAT_FAR_ST 2)
   let r : PortRef := .worker 1 true
   let p := s.thePort r
   let wk := ofWorker r
   let far := p.g wk F.LNK_STAT_FAR_ST
   s.portLive r ∧ p.locked = true ∧ (far = 1 ∨ far = 2)) ∧
  (let s : State := State.reset |> onWkrPort 1 true (fun p => { p with rx := { p.rx with backoff := some 100 } }) |> atTick 70000
   let r : PortRef := .worker 1 true
   let d : Nat := 100
   let p := s.thePort r
   let n := s.chip.tick
   s.portLive r ∧ p.rx.backoff = some d ∧ d ≤ n) ∧
  (let s : State := State.reset
   let r : PortRef := .worker 1 false
   let d : Nat := 100000
   let p := s.thePort r
   let n := s.chip.tick
   s.portLive r ∧ (p.rx.backoff = none ∨ (p.rx.backoff = some d ∧ n < d))) ∧
  (let s : State := State.reset |> onWkrPort 1 true (fun p => { p with rx := { p.rx with lock := .locked } })
    |> onWkrPort 1 true (fun p => { p with rx := { p.rx with idleRun := 10000000 } })
   let r : PortRef := .worker 1 true
   let p := s.thePort r
   let wk := ofWorker r
   let log := min 20 (max 6 (p.g wk F.LNK_EQ_CTL_FREEZE_LOG))
   let freezes := p.locked = true ∧ p.g wk F.LNK_STAT_EQ_FROZEN = 0 ∧ 2 ^ log ≤ p.rx.idleRun
   s.portLive r ∧ freezes) ∧
  (let s : State := State.reset
   let r : PortRef := .worker 1 false
   let p := s.thePort r
   let wk := ofWorker r
   let log := min 20 (max 6 (p.g wk F.LNK_EQ_CTL_FREEZE_LOG))
   let freezes := p.locked = true ∧ p.g wk F.LNK_STAT_EQ_FROZEN = 0 ∧ 2 ^ log ≤ p.rx.idleRun
   s.portLive r ∧ ¬ freezes) ∧
  (let s : State := State.reset |> onWkrPort 1 false (fun p => { p with rx := { p.rx with nonIdle := 3 } })
    |> onWkrPort 1 false (fun p => p.s true F.LNK_STAT_EQ_FROZEN 1) |> onWkrPort 1 false (fun p => p.s true F.LNK_EQ_CTL_RESUME 3)
   let r : PortRef := .worker 1 false
   let p := s.thePort r
   let wk := ofWorker r
   let resumes := p.g wk F.LNK_STAT_EQ_FROZEN = 1 ∧ max 1 (p.g wk F.LNK_EQ_CTL_RESUME) ≤ p.rx.nonIdle
   s.portLive r ∧ resumes) ∧
  (let s : State := State.reset
   let r : PortRef := .worker 1 false
   let p := s.thePort r
   let wk := ofWorker r
   let resumes := p.g wk F.LNK_STAT_EQ_FROZEN = 1 ∧ max 1 (p.g wk F.LNK_EQ_CTL_RESUME) ≤ p.rx.nonIdle
   s.portLive r ∧ ¬ resumes) := by
  refine ⟨?_, ?_, ?_, ?_, ?_, ?_, ?_, ?_, ?_, ?_, ?_, ?_, ?_, ?_⟩ <;>
    (dsimp only [State.portLive, State.alive]; decide +kernel)

theorem witness_LinkRegisters :
  (let s : State := State.reset
   let k : Nat := 1
   s.alive k) := by
  unfold State.alive; decide +kernel

theorem witness_ManagerLinkWrites :
  (let s : State := State.reset |> mgrFld F.MGT_ROLE_ROLE 2
   let p : Nat := 4
   let c := s.chip
   s.chip.live = true ∧ p < 130 ∧ c.role = .installer) := by
  decide +kernel

theorem witness_BlockReceived :
  (let s : State := lineWkr true (lineWkr false (lineMgr State.reset)) |> onWkrPort 1 false (fun p => { p with los := true })
   let r : PortRef := .worker 1 false
   let p := s.thePort r
   let wk := ofWorker r
   s.portLive r ∧ p.los = true ∧ p.g wk F.LNK_CTL_LPB_NEAR = 0) ∧
  (let s : State := lineWkr true (lineWkr false (lineMgr State.reset))
   let r : PortRef := .worker 1 false
   let bits : BitVec 128 := 0x00000000000000000000000000000000#128
   let p := s.thePort r
   let wk := ofWorker r
   let still := ((lineBits bits).foldl stillRun (p.rx.lastBit, p.rx.still, false)).2.2
   s.portLive r ∧ p.los = false ∧ p.g wk F.LNK_CTL_LPB_NEAR = 0 ∧ still = true) ∧
  (let s : State := lineWkr true (lineWkr false (lineMgr State.reset))
   let r : PortRef := .worker 1 false
   let bits : BitVec 128 := 0xaad0137c23b3a50027c674c140004de1#128
   let b : Block := { hdr := 0x2#2, pay := 0x1ec8000a0c8000000000000000008d#120 }
   let err : Bool := false
   let line : LineRx := { run := 1, last := true, desc := 0x173710fb202d#47 }
   let p := s.thePort r
   let wk := ofWorker r
   let still := ((lineBits bits).foldl stillRun (p.rx.lastBit, p.rx.still, false)).2.2
   let clear := p.los = false ∧ still = false ∧ p.rx.lock = .locked ∧ p.rx.resid = [] ∧ testMode (p.word wk 0) = 0 ∧ p.g wk F.LNK_CTL_LPB_NEAR = 0 ∧
         p.g wk F.LNK_CTL_LPB_FAR = 0 ∧ p.g wk F.LNK_CTL_INV_RX = 0 ∧ decodeBlock p.rx.line (lineBits bits) = (b, err, line)
   s.portLive r ∧ clear ∧ err = false ∧ b.is .idle = true ∧ b.checkOk = true) ∧
  (let s : State := lineWkr true (lineWkr false (lineMgr State.reset))
   let r : PortRef := .worker 1 false
   let bits : BitVec 128 := 0xa8020003ff0010c00003e00010100000#128
   let b : Block := { hdr := 0x0#2, pay := 0x000000400000000000000000000000#120 }
   let err : Bool := false
   let line : LineRx := { run := 1, last := true, desc := 0x000ffc000401#47 }
   let p := s.thePort r
   let wk := ofWorker r
   let still := ((lineBits bits).foldl stillRun (p.rx.lastBit, p.rx.still, false)).2.2
   let clear := p.los = false ∧ still = false ∧ p.rx.lock = .locked ∧ p.rx.resid = [] ∧ testMode (p.word wk 0) = 0 ∧ p.g wk F.LNK_CTL_LPB_NEAR = 0 ∧
         p.g wk F.LNK_CTL_LPB_FAR = 0 ∧ p.g wk F.LNK_CTL_INV_RX = 0 ∧ decodeBlock p.rx.line (lineBits bits) = (b, err, line)
   s.portLive r ∧ clear ∧ b.validHdr = false ∧ ((true :: p.rx.window).take 64).count true < 24) ∧
  (let s : State := lineWkr true (lineWkr false (lineMgr State.reset))
   let r : PortRef := .worker 1 false
   let bits : BitVec 128 := 0xa8800007fe0000800007c40000200001#128
   let b : Block := { hdr := 0x2#2, pay := 0x000000000000000000000000000005#120 }
   let err : Bool := false
   let line : LineRx := { run := 1, last := true, desc := 0x000ffc000005#47 }
   let p := s.thePort r
   let wk := ofWorker r
   let kind := match r with | .mgr m => s.chip.kindOf m | .worker k west => (s.chip.worker k).kindOf west
   let still := ((lineBits bits).foldl stillRun (p.rx.lastBit, p.rx.still, false)).2.2
   let clear := p.los = false ∧ still = false ∧ p.rx.lock = .locked ∧ p.rx.resid = [] ∧ testMode (p.word wk 0) = 0 ∧ p.g wk F.LNK_CTL_LPB_NEAR = 0 ∧
         p.g wk F.LNK_CTL_LPB_FAR = 0 ∧ p.g wk F.LNK_CTL_INV_RX = 0 ∧ decodeBlock p.rx.line (lineBits bits) = (b, err, line)
   s.portLive r ∧ clear ∧ err = false ∧ b.isCtl = true ∧ (b.type = none ∨ b.checkOk = false ∨ kind.accepts b = false)) ∧
  (let s : State := lineWkr true (lineWkr false (lineMgr State.reset)) |> onMgrPort 4 (fun p => p.s false F.LNK_STAT_RX_ST 1)
   let r : PortRef := .mgr 4
   let bits : BitVec 128 := 0x40800007fe0000800007c80000400002#128
   let b : Block := { hdr := 0x1#2, pay := 0x000000000000000000000000000000#120 }
   let err : Bool := false
   let line : LineRx := { run := 1, last := false, desc := 0x000ffc000000#47 }
   let p := s.thePort r
   let wk := ofWorker r
   let still := ((lineBits bits).foldl stillRun (p.rx.lastBit, p.rx.still, false)).2.2
   let clear := p.los = false ∧ still = false ∧ p.rx.lock = .locked ∧ p.rx.resid = [] ∧ testMode (p.word wk 0) = 0 ∧ p.g wk F.LNK_CTL_LPB_NEAR = 0 ∧
         p.g wk F.LNK_CTL_LPB_FAR = 0 ∧ p.g wk F.LNK_CTL_INV_RX = 0 ∧ decodeBlock p.rx.line (lineBits bits) = (b, err, line)
   s.portLive r ∧ clear ∧ err = false ∧ b.isData = true ∧ p.rxSt wk = 1) ∧
  (let s : State := lineWkr true (lineWkr false (lineMgr State.reset))
    |> onWkrPort 1 false (fun p => { p with rx := { p.rx with test := some ⟨79999, BitVec.allOnes 31⟩ } }.s true F.LNK_STAT_RX_ST 2)
   let r : PortRef := .worker 1 false
   let bits : BitVec 128 := 0x40800007fe0000800007c80000400002#128
   let b : Block := { hdr := 0x1#2, pay := 0x000000000000000000000000000000#120 }
   let err : Bool := false
   let line : LineRx := { run := 1, last := false, desc := 0x000ffc000000#47 }
   let t : RejoinTest := { got := 79999, prbs := 0x7fffffff#31 }
   let p := s.thePort r
   let wk := ofWorker r
   let still := ((lineBits bits).foldl stillRun (p.rx.lastBit, p.rx.still, false)).2.2
   let clear := p.los = false ∧ still = false ∧ p.rx.lock = .locked ∧ p.rx.resid = [] ∧ testMode (p.word wk 0) = 0 ∧ p.g wk F.LNK_CTL_LPB_NEAR = 0 ∧
         p.g wk F.LNK_CTL_LPB_FAR = 0 ∧ p.g wk F.LNK_CTL_INV_RX = 0 ∧ decodeBlock p.rx.line (lineBits bits) = (b, err, line)
   s.portLive r ∧ clear ∧ err = false ∧ b.isData = true ∧ p.rxSt wk = 2 ∧ p.rx.test = some t) := by
  refine ⟨?_, ?_, ?_, ?_, ?_, ?_, ?_⟩ <;>
    (dsimp only [State.portLive, State.alive]; decide +kernel)

theorem witness_WorkerControl :
  (let s : State := State.reset |> atTick 8242 |> received 1 true [mkCmd 3 true 0x000 0x30 7] |> onCtl 1 (fun c => { c with lockWest := some 8184 })
   let w : Nat := 1
   let x := s.chip.worker w
   let n := s.chip.tick
   let e := x.ctl.lockEast
   let l := x.ctl.lockWest
   let due := fun (m : Option Nat) => m.any (fun t => decide (t + 8 ≤ n))
   s.alive w ∧ x.pos = 0 ∧ x.ctl.clock = none ∧ (due e = true ∨ due l = true)) ∧
  (let s : State := State.reset |> received 1 false [mkCmd 3 true 0x003 5 3]
   let w : Nat := 1
   let x := s.chip.worker w
   let n := s.chip.tick
   let e := x.ctl.lockEast
   let l := x.ctl.lockWest
   let due := fun (m : Option Nat) => m.any (fun t => decide (t + 8 ≤ n))
   s.alive w ∧ (x.pos ≠ 0 ∨ x.ctl.clock ≠ none ∨ (due e = false ∧ due l = false))) ∧
  (let s : State := State.reset |> received 1 true [mkCmd 0 true 0x00B 7 2]
   let w : Nat := 1
   let west : Bool := true
   let b : Block := { hdr := 0x2#2, pay := 0x5504002c0000001c080000000000ed#120 }
   let x1 : Worker := ((((s.chip.worker w).takeDown s.chip.tick west (fun b' => b'.is .cmd && (b'.pos == 0) == (b.pos == 0))).toList.map (·.2))[0]?).getD (s.chip.worker w)
   let x := s.chip.worker w
   let n := s.chip.tick
   let d := b.f 89 58
   let zero := x.takeDown n west (fun b => b.is .cmd && b.pos == 0)
   let good := b.f 106 106 = 1 ∧ b.f 105 90 = 0x00B ∧ 1 ≤ d ∧ d ≤ 16
   s.alive w ∧ x.pos = 0 ∧ zero = some (b, x1) ∧ good) ∧
  (let s : State := State.reset |> received 1 true [mkCmd 0 true 0x003 4 2]
   let w : Nat := 1
   let west : Bool := true
   let b : Block := { hdr := 0x2#2, pay := 0x5504000c000000100800000000009b#120 }
   let x1 : Worker := ((((s.chip.worker w).takeDown s.chip.tick west (fun b' => b'.is .cmd && (b'.pos == 0) == (b.pos == 0))).toList.map (·.2))[0]?).getD (s.chip.worker w)
   let x := s.chip.worker w
   let n := s.chip.tick
   let d := b.f 89 58
   let zero := x.takeDown n west (fun b => b.is .cmd && b.pos == 0)
   let good := b.f 106 106 = 1 ∧ b.f 105 90 = 0x00B ∧ 1 ≤ d ∧ d ≤ 16
   s.alive w ∧ x.pos = 0 ∧ zero = some (b, x1) ∧ ¬ good) ∧
  (let s : State := State.reset |> received 1 true [mkCmd 3 true 0x001 2 7]
   let w : Nat := 1
   let west : Bool := true
   let x := s.chip.worker w
   let n := s.chip.tick
   let zero := x.takeDown n west (fun b => b.is .cmd && b.pos == 0)
   s.alive w ∧ (x.pos ≠ 0 ∨ zero = none)) ∧
  (let s : State := State.reset |> onCtl 1 (fun c => { c with cmds := [⟨2, true, 0x003, 5, mkReply 3 0 3 5 2⟩] })
    |> received 1 true [mkCmd 3 true 0x003 5 2]
   let w : Nat := 1
   let west : Bool := true
   let b : Block := { hdr := 0x2#2, pay := 0x551c000c000000140800000000002d#120 }
   let rp : Block := { hdr := 0x2#2, pay := 0x661800030000000502000000000061#120 }
   let x1 : Worker := ((((s.chip.worker w).takeDown s.chip.tick west (fun b' => b'.is .cmd && (b'.pos == 0) == (b.pos == 0))).toList.map (·.2))[0]?).getD (s.chip.worker w)
   let x := s.chip.worker w
   let n := s.chip.tick
   let cmd := x.takeDown n west (fun b => b.is .cmd && b.pos != 0) = some (b, x1)
   s.alive w ∧ cmd ∧ x1.storedReply b = some rp) ∧
  (let s : State := State.reset |> received 1 false [mkCmd 3 true 0x003 5 3]
   let w : Nat := 1
   let west : Bool := false
   let b : Block := { hdr := 0x2#2, pay := 0x551c000c000000140c000000000089#120 }
   let x1 : Worker := ((((s.chip.worker w).takeDown s.chip.tick west (fun b' => b'.is .cmd && (b'.pos == 0) == (b.pos == 0))).toList.map (·.2))[0]?).getD (s.chip.worker w)
   let x := s.chip.worker w
   let n := s.chip.tick
   let a := b.f 105 90
   let cmd := x.takeDown n west (fun b => b.is .cmd && b.pos != 0) = some (b, x1)
   let fresh := cmd ∧ x1.storedReply b = none
   s.alive w ∧ fresh ∧ b.f 106 106 = 1 ∧ (x1.b F.WK_GSTAT_FWD_ONLY = false ∨ a ∈ [0x001, 0x003] ∨ linkAddr a ≠ none)) ∧
  (let s : State := State.reset |> wkrFld 1 F.WK_GSTAT_FWD_ONLY 1 |> received 1 true [mkCmd 3 true 0xFFF 0x30 7]
   let w : Nat := 1
   let west : Bool := true
   let b : Block := { hdr := 0x2#2, pay := 0x551c3ffc000000c01c000000000030#120 }
   let x1 : Worker := ((((s.chip.worker w).takeDown s.chip.tick west (fun b' => b'.is .cmd && (b'.pos == 0) == (b.pos == 0))).toList.map (·.2))[0]?).getD (s.chip.worker w)
   let x := s.chip.worker w
   let n := s.chip.tick
   let a := b.f 105 90
   let cmd := x.takeDown n west (fun b => b.is .cmd && b.pos != 0) = some (b, x1)
   let fresh := cmd ∧ x1.storedReply b = none
   s.alive w ∧ fresh ∧ b.f 106 106 = 1 ∧ x1.b F.WK_GSTAT_FWD_ONLY = true ∧ a ∉ [0x001, 0x003] ∧ linkAddr a = none) ∧
  (let s : State := State.reset |> received 1 false [mkCmd 3 false 0x000 5 3]
   let w : Nat := 1
   let west : Bool := false
   let b : Block := { hdr := 0x2#2, pay := 0x55180000000000140c000000000053#120 }
   let x1 : Worker := ((((s.chip.worker w).takeDown s.chip.tick west (fun b' => b'.is .cmd && (b'.pos == 0) == (b.pos == 0))).toList.map (·.2))[0]?).getD (s.chip.worker w)
   let x := s.chip.worker w
   let n := s.chip.tick
   let cmd := x.takeDown n west (fun b => b.is .cmd && b.pos != 0) = some (b, x1)
   let fresh := cmd ∧ x1.storedReply b = none
   s.alive w ∧ fresh ∧ b.f 106 106 = 0) ∧
  (let s : State := State.reset |> received 1 false [mkCmd 3 false 0x000 5 3]
   let w : Nat := 1
   let west : Bool := false
   let b : Block := { hdr := 0x2#2, pay := 0x55180000000000140c000000000053#120 }
   let x1 : Worker := ((((s.chip.worker w).takeDown s.chip.tick west (fun b' => b'.is .cmd && (b'.pos == 0) == (b.pos == 0))).toList.map (·.2))[0]?).getD (s.chip.worker w)
   let x := s.chip.worker w
   let n := s.chip.tick
   let a := b.f 105 90
   let cmd := x.takeDown n west (fun b => b.is .cmd && b.pos != 0) = some (b, x1)
   let fresh := cmd ∧ x1.storedReply b = none
   s.alive w ∧ fresh ∧ b.f 106 106 = 0 ∧ a = 0x000) ∧
  (let s : State := State.reset |> received 1 false [mkCmd 0 true 0x00B 16 2]
   let w : Nat := 1
   let west : Bool := false
   let x := s.chip.worker w
   let n := s.chip.tick
   s.alive w ∧ x.takeDown n west (fun b => b.is .cmd && b.pos != 0) = none) ∧
  (let s : State := State.reset |> atTick 8192 |> received 1 false [mkCmd 0 true 0x00B 16 2]
   let w : Nat := 1
   let x := s.chip.worker w
   let n := s.chip.tick
   s.alive w ∧ x.ctl.lastDown + 8192 ≤ n) ∧
  (let s : State := State.reset |> received 1 false [mkCmd 3 true 0x003 5 3]
   let w : Nat := 1
   let x := s.chip.worker w
   let n := s.chip.tick
   s.alive w ∧ n < x.ctl.lastDown + 8192) := by
  refine ⟨?_, ?_, ?_, ?_, ?_, ?_, ?_, ?_, ?_, ?_, ?_, ?_, ?_⟩ <;>
    (unfold State.alive; decide +kernel)

theorem witness_WorkerTime :
  (let s : State := onTime 1 (fun c => { c with valid := true, expect := 100 }) (wkrFld 1 F.WK_GSTAT_CNT_SET 1 (wkrFld 1 F.WK_POS_POS 3 (onCtl 1 (fun c => { c with clock := some false }) State.reset)))
    |> received 1 true [beacon 0x1F 0 4096 0]
   let w : Nat := 1
   let west : Bool := true
   let b : Block := { hdr := 0x2#2, pay := 0x2d3e000000001000000000000000fa#120 }
   let x1 : Worker := ((((s.chip.worker w).takeDown s.chip.tick west (fun b' => b'.is .beacon && (b'.form == b.form))).toList.map (·.2) ++ [Worker.init])[0]?).getD (s.chip.worker w)
   let x := s.chip.worker w
   let n := s.chip.tick
   let got := x.takeDown n west (fun b => b.is .beacon && b.form == 0) = some (b, x1)
   s.alive w ∧ got ∧ x1.ctl.clock ≠ some west) ∧
  (let s : State := onTime 1 (fun c => { c with valid := true, expect := 100 }) (wkrFld 1 F.WK_GSTAT_CNT_SET 1 (wkrFld 1 F.WK_POS_POS 3 (onCtl 1 (fun c => { c with clock := some false }) State.reset)))
    |> received 1 false [beacon 3 1 (2^48-1) 0xFFFFF]
   let w : Nat := 1
   let west : Bool := false
   let b : Block := { hdr := 0x2#2, pay := 0x2d07fffffffffffffffff0000000c8#120 }
   let x1 : Worker := ((((s.chip.worker w).takeDown s.chip.tick west (fun b' => b'.is .beacon && (b'.form == b.form))).toList.map (·.2) ++ [Worker.init])[0]?).getD (s.chip.worker w)
   let x := s.chip.worker w
   let n := s.chip.tick
   let got := x.takeDown n west (fun b => b.is .beacon && b.form == 0) = some (b, x1)
   let used := got ∧ x1.ctl.clock = some west
   s.alive w ∧ used ∧ b.f 104 104 = 1 ∧ b.pos ≠ 0x1F ∧ x1.running = false) ∧
  (let s : State := onTime 1 (fun c => { c with valid := true, expect := 100 }) (wkrFld 1 F.WK_GSTAT_CNT_SET 1 (wkrFld 1 F.WK_POS_POS 3 (onCtl 1 (fun c => { c with clock := some false }) State.reset)))
    |> wkrFld 1 F.WK_GSTAT_RUNNING 1 |> received 1 false [beacon 4 1 500 0]
   let w : Nat := 1
   let west : Bool := false
   let b : Block := { hdr := 0x2#2, pay := 0x2d090000000001f400000000000072#120 }
   let x1 : Worker := ((((s.chip.worker w).takeDown s.chip.tick west (fun b' => b'.is .beacon && (b'.form == b.form))).toList.map (·.2) ++ [Worker.init])[0]?).getD (s.chip.worker w)
   let x := s.chip.worker w
   let n := s.chip.tick
   let got := x.takeDown n west (fun b => b.is .beacon && b.form == 0) = some (b, x1)
   let used := got ∧ x1.ctl.clock = some west
   s.alive w ∧ used ∧ b.f 104 104 = 1 ∧ (b.pos = 0x1F ∨ x1.running = true)) ∧
  (let s : State := onTime 1 (fun c => { c with valid := true, expect := 100 }) (wkrFld 1 F.WK_GSTAT_CNT_SET 1 (wkrFld 1 F.WK_POS_POS 3 (onCtl 1 (fun c => { c with clock := some false }) State.reset)))
    |> received 1 false [beacon 3 0 500 0x80000]
   let w : Nat := 1
   let west : Bool := false
   let b : Block := { hdr := 0x2#2, pay := 0x2d060000000001f4800000000000c7#120 }
   let x1 : Worker := ((((s.chip.worker w).takeDown s.chip.tick west (fun b' => b'.is .beacon && (b'.form == b.form))).toList.map (·.2) ++ [Worker.init])[0]?).getD (s.chip.worker w)
   let x := s.chip.worker w
   let n := s.chip.tick
   let got := x.takeDown n west (fun b => b.is .beacon && b.form == 0) = some (b, x1)
   let used := got ∧ x1.ctl.clock = some west
   s.alive w ∧ used ∧ b.f 104 104 ≠ 1 ∧ b.pos ≠ 0x1F ∧ x1.b F.WK_GSTAT_CNT_SET = true) ∧
  (let s : State := onTime 1 (fun c => { c with valid := true, expect := 100 }) (wkrFld 1 F.WK_GSTAT_CNT_SET 1 (wkrFld 1 F.WK_POS_POS 3 (onCtl 1 (fun c => { c with clock := some false }) State.reset)))
    |> (fun s => wkrFld 1 F.WK_GSTAT_CNT_SET 0 (received 1 false [beacon 3 0 100 0] s))
   let w : Nat := 1
   let west : Bool := false
   let b : Block := { hdr := 0x2#2, pay := 0x2d0600000000006400000000000061#120 }
   let x1 : Worker := ((((s.chip.worker w).takeDown s.chip.tick west (fun b' => b'.is .beacon && (b'.form == b.form))).toList.map (·.2) ++ [Worker.init])[0]?).getD (s.chip.worker w)
   let x := s.chip.worker w
   let n := s.chip.tick
   let got := x.takeDown n west (fun b => b.is .beacon && b.form == 0) = some (b, x1)
   let used := got ∧ x1.ctl.clock = some west
   s.alive w ∧ used ∧ b.f 104 104 ≠ 1 ∧ b.pos ≠ 0x1F ∧ x1.b F.WK_GSTAT_CNT_SET = false) ∧
  (let s : State := onTime 1 (fun c => { c with valid := true, expect := 100 }) (wkrFld 1 F.WK_GSTAT_CNT_SET 1 (wkrFld 1 F.WK_POS_POS 3 (onCtl 1 (fun c => { c with clock := some false }) State.reset)))
    |> atTick 8191 |> received 1 false [beacon 0x1F 0 8192 0]
   let w : Nat := 1
   let west : Bool := false
   let b : Block := { hdr := 0x2#2, pay := 0x2d3e000000002000000000000000a3#120 }
   let x1 : Worker := ((((s.chip.worker w).takeDown s.chip.tick west (fun b' => b'.is .beacon && (b'.form == b.form))).toList.map (·.2) ++ [Worker.init])[0]?).getD (s.chip.worker w)
   let sub : Nat := 799
   let x := s.chip.worker w
   let n := s.chip.tick
   let got := x.takeDown n west (fun b => b.is .beacon && b.form == 0) = some (b, x1)
   let used := got ∧ x1.ctl.clock = some west
   let t : Int := x1.now n + sub
   let cnt : Int := 800 * b.f 103 56
   let off := circleDiff t cnt
   let drift := (x1.time.expect - x1.time.slew) - off
   s.alive w ∧ used ∧ b.f 104 104 ≠ 1 ∧ b.pos = 0x1F ∧ (x1.time.valid = false ∨ drift.natAbs < 400)) ∧
  (let s : State := onTime 1 (fun c => { c with valid := true, expect := 100 }) (wkrFld 1 F.WK_GSTAT_CNT_SET 1 (wkrFld 1 F.WK_POS_POS 3 (onCtl 1 (fun c => { c with clock := some false }) State.reset)))
    |> received 1 false [beacon 0x1F 0 8192 0]
   let w : Nat := 1
   let west : Bool := false
   let b : Block := { hdr := 0x2#2, pay := 0x2d3e000000002000000000000000a3#120 }
   let x1 : Worker := ((((s.chip.worker w).takeDown s.chip.tick west (fun b' => b'.is .beacon && (b'.form == b.form))).toList.map (·.2) ++ [Worker.init])[0]?).getD (s.chip.worker w)
   let sub : Nat := 399
   let x := s.chip.worker w
   let n := s.chip.tick
   let got := x.takeDown n west (fun b => b.is .beacon && b.form == 0) = some (b, x1)
   let used := got ∧ x1.ctl.clock = some west
   let t : Int := x1.now n + sub
   let cnt : Int := 800 * b.f 103 56
   let off := circleDiff t cnt
   let drift := (x1.time.expect - x1.time.slew) - off
   s.alive w ∧ used ∧ b.f 104 104 ≠ 1 ∧ b.pos = 0x1F ∧ x1.time.valid = true ∧ 400 ≤ drift.natAbs) ∧
  (let s : State := onTime 1 (fun c => { c with valid := true, expect := 100 }) (wkrFld 1 F.WK_GSTAT_CNT_SET 1 (wkrFld 1 F.WK_POS_POS 3 (onCtl 1 (fun c => { c with clock := some false }) State.reset)))
   let w : Nat := 1
   let west : Bool := false
   let x := s.chip.worker w
   let n := s.chip.tick
   s.alive w ∧ x.takeDown n west (fun b => b.is .beacon && b.form == 0) = none) ∧
  (let s : State := onTime 1 (fun c => { c with valid := true, expect := 100 }) (wkrFld 1 F.WK_GSTAT_CNT_SET 1 (wkrFld 1 F.WK_POS_POS 3 (onCtl 1 (fun c => { c with clock := some false }) State.reset)))
    |> received 1 true [mkProbe 3 77]
   let w : Nat := 1
   let west : Bool := true
   let b : Block := { hdr := 0x2#2, pay := 0x2d86004d000000000000000000004f#120 }
   let x1 : Worker := ((((s.chip.worker w).takeDown s.chip.tick west (fun b' => b'.is .beacon && (b'.form == b.form))).toList.map (·.2) ++ [Worker.init])[0]?).getD (s.chip.worker w)
   let x := s.chip.worker w
   let n := s.chip.tick
   s.alive w ∧ x.takeDown n west (fun b => b.is .beacon && b.form == 2) = some (b, x1)) ∧
  (let s : State := onTime 1 (fun c => { c with valid := true, expect := 100 }) (wkrFld 1 F.WK_GSTAT_CNT_SET 1 (wkrFld 1 F.WK_POS_POS 3 (onCtl 1 (fun c => { c with clock := some false }) State.reset)))
   let w : Nat := 1
   let west : Bool := false
   let x := s.chip.worker w
   let n := s.chip.tick
   s.alive w ∧ x.takeDown n west (fun b => b.is .beacon && b.form == 2) = none) ∧
  (let s : State := onTime 1 (fun c => { c with valid := true, expect := 100 }) (wkrFld 1 F.WK_GSTAT_CNT_SET 1 (wkrFld 1 F.WK_POS_POS 3 (onCtl 1 (fun c => { c with clock := some false }) State.reset)))
    |> onTime 1 (fun c => { c with slew := 5 }) |> atTick (2^20+99)
   let w : Nat := 1
   let x := s.chip.worker w
   let n := s.chip.tick
   s.alive w ∧ x.time.slew ≠ 0 ∧ x.time.slewFrom + 4096 ≤ n) ∧
  (let s : State := onTime 1 (fun c => { c with valid := true, expect := 100 }) (wkrFld 1 F.WK_GSTAT_CNT_SET 1 (wkrFld 1 F.WK_POS_POS 3 (onCtl 1 (fun c => { c with clock := some false }) State.reset)))
   let w : Nat := 1
   let x := s.chip.worker w
   let n := s.chip.tick
   s.alive w ∧ (x.time.slew = 0 ∨ n < x.time.slewFrom + 4096)) ∧
  (let s : State := onTime 1 (fun c => { c with valid := true, expect := 100 }) (wkrFld 1 F.WK_GSTAT_CNT_SET 1 (wkrFld 1 F.WK_POS_POS 3 (onCtl 1 (fun c => { c with clock := some false }) State.reset)))
    |> atTick (2^20+100)
   let w : Nat := 1
   let x := s.chip.worker w
   let n := s.chip.tick
   s.alive w ∧ x.time.missRaised = false ∧ x.time.lastBeacon + 2 ^ 20 ≤ n) ∧
  (let s : State := onTime 1 (fun c => { c with valid := true, expect := 100 }) (wkrFld 1 F.WK_GSTAT_CNT_SET 1 (wkrFld 1 F.WK_POS_POS 3 (onCtl 1 (fun c => { c with clock := some false }) State.reset)))
   let w : Nat := 1
   let x := s.chip.worker w
   let n := s.chip.tick
   s.alive w ∧ (x.time.missRaised = true ∨ n < x.time.lastBeacon + 2 ^ 20)) ∧
  (let s : State := onTime 1 (fun c => { c with valid := true, expect := 100 }) (wkrFld 1 F.WK_GSTAT_CNT_SET 1 (wkrFld 1 F.WK_POS_POS 3 (onCtl 1 (fun c => { c with clock := some false }) State.reset)))
    |> onWkrPort 1 false (upPort true) |> onCtl 1 (fun c => { c with old := some ⟨false, 3, [], none⟩ })
   let w : Nat := 1
   let o : OldSide := { west := false, epoch := 3, blocks := [], fwd := none }
   let x := s.chip.worker w
   s.alive w ∧ x.ctl.old = some o ∧ x.pktOn o.west = none ∧ o.blocks = [] ∧ o.fwd = none ∧ (x.port o.west).segUp true = true) ∧
  (let s : State := onTime 1 (fun c => { c with valid := true, expect := 100 }) (wkrFld 1 F.WK_GSTAT_CNT_SET 1 (wkrFld 1 F.WK_POS_POS 3 (onCtl 1 (fun c => { c with clock := some false }) State.reset)))
   let w : Nat := 1
   let o : OldSide := { west := false, epoch := 3, blocks := [], fwd := none }
   let x := s.chip.worker w
   s.alive w ∧ (x.ctl.old = none ∨ (x.ctl.old = some o ∧
     (x.pktOn o.west ≠ none ∨ o.blocks ≠ [] ∨ o.fwd ≠ none ∨ (x.port o.west).segUp true = false)))) := by
  refine ⟨?_, ?_, ?_, ?_, ?_, ?_, ?_, ?_, ?_, ?_, ?_, ?_, ?_, ?_, ?_, ?_⟩ <;>
    (unfold State.alive; decide +kernel)

theorem witness_ForwardOnly :
  (let s : State := State.reset
   let w : Nat := 1
   let x := s.chip.worker w
   s.alive w ∧ x.b F.WK_GSTAT_FWD_ONLY = false) ∧
  (let s : State := State.reset |> wkrFld 1 F.WK_GSTAT_FWD_ONLY 1
   let w : Nat := 1
   let x := s.chip.worker w
   s.alive w ∧ x.b F.WK_GSTAT_FWD_ONLY = true) := by
  refine ⟨?_, ?_⟩ <;>
    (unfold State.alive; decide +kernel)

theorem witness_Enumeration :
  (let s : State := State.reset
   let n : Nat := 0
   let p : Nat := 1
   let c := s.chip
   let cfg := c.pairCfg n
   s.chip.live = true ∧ n < 64 ∧ p < 128 ∧ cfg = 0) ∧
  (let s : State := State.reset |> pairF F.PRT_LOOP_CFG_CFG 0 4
   let n : Nat := 0
   let p : Nat := 0
   let c := s.chip
   let cfg := c.pairCfg n
   s.chip.live = true ∧ n < 64 ∧ p < 128 ∧ cfg ≠ 0 ∧ (c.pair n).enum = .idle) ∧
  (let s : State := State.reset |> pairF F.PRT_LOOP_CFG_CFG 0 1 |> onPair 0 (fun q => { q with enum := .waiting 5 })
   let n : Nat := 0
   let p : Nat := 1
   let t : Nat := 5
   let c := s.chip
   let cfg := c.pairCfg n
   let ready := (cfg ≠ 3 → c.up (2 * n) = true) ∧ (cfg = 3 ∨ cfg = 4 → c.up (2 * n + 1) = true)
   let waits := cfg ≠ 0 ∧ (c.pair n).enum = .waiting t
   s.chip.live = true ∧ n < 64 ∧ p < 128 ∧ waits ∧ ¬ ready ∧ c.tick < t + 1280000) ∧
  (let s : State := State.reset |> pairF F.PRT_LOOP_CFG_CFG 0 1 |> pairF F.PRT_LOOP_CFG_N_EVEN 0 16
    |> onPair 0 (fun q => { q with enum := .waiting 5 }) |> atTick 1280005
   let n : Nat := 0
   let p : Nat := 1
   let t : Nat := 5
   let c := s.chip
   let cfg := c.pairCfg n
   let ready := (cfg ≠ 3 → c.up (2 * n) = true) ∧ (cfg = 3 ∨ cfg = 4 → c.up (2 * n + 1) = true)
   let waits := cfg ≠ 0 ∧ (c.pair n).enum = .waiting t
   s.chip.live = true ∧ n < 64 ∧ p < 128 ∧ waits ∧ (ready ∨ t + 1280000 ≤ c.tick) ∧ 1 ≤ c.chainLen (2 * n)) ∧
  (let s : State := State.reset |> pairF F.PRT_LOOP_CFG_CFG 0 4 |> pairF F.PRT_LOOP_CFG_N_ODD 0 2 |> onPair 0 (fun q => { q with enum := .waiting 5 })
    |> atTick 1280005
   let n : Nat := 0
   let p : Nat := 0
   let t : Nat := 5
   let c := s.chip
   let cfg := c.pairCfg n
   let ready := (cfg ≠ 3 → c.up (2 * n) = true) ∧ (cfg = 3 ∨ cfg = 4 → c.up (2 * n + 1) = true)
   let waits := cfg ≠ 0 ∧ (c.pair n).enum = .waiting t
   s.chip.live = true ∧ n < 64 ∧ p < 128 ∧ waits ∧ (ready ∨ t + 1280000 ≤ c.tick) ∧ c.chainLen (2 * n) = 0 ∧ c.isLoop n = false ∧
     1 ≤ c.chainLen (2 * n + 1)) ∧
  (let s : State := State.reset
   let n : Nat := 0
   let p : Nat := 0
   let c := s.chip
   let able := (c.pair (p / 2)).enum = .done ∧ c.portUsed p = true ∧ ∀ q ∈ (c.engine p).out, ∀ j, q.tag ≠ .enum j
   s.chip.live = true ∧ n < 64 ∧ p < 128 ∧ (¬ able ∨ c.unseenFor p = [])) ∧
  (let s : State := State.reset |> pairF F.PRT_LOOP_CFG_CFG 0 4 |> pairF F.PRT_LOOP_CFG_N_ODD 0 2 |> upMgr 1
    |> onPair 0 (fun q => { q with enum := .done }) |> slotF F.PRT_SLOT_STATE 8 1
   let n : Nat := 0
   let p : Nat := 1
   let k : Nat := 1
   let l : List Nat := []
   let c := s.chip
   let able := (c.pair (p / 2)).enum = .done ∧ c.portUsed p = true ∧ ∀ q ∈ (c.engine p).out, ∀ j, q.tag ≠ .enum j
   s.chip.live = true ∧ n < 64 ∧ p < 128 ∧ able ∧ c.unseenFor p = k :: l) ∧
  (let s : State := State.reset
   let n : Nat := 0
   let p : Nat := 0
   let c := s.chip
   s.chip.live = true ∧ n < 64 ∧ p < 128 ∧ c.takeIn p (fun b => b.is .reply) = none) ∧
  (let s : State := State.reset |> mgrReceived 1 [mkReply 0 0 0x00B 1 5]
   let n : Nat := 0
   let p : Nat := 1
   let b : Block := { hdr := 0x2#2, pay := 0x6600000b00000001050000000000f0#120 }
   let c1 : Chip := (((s.chip.takeIn p (fun b => b.is .reply)).toList.map (·.2) ++ (if (s.chip.takeIn p (fun b => b.is .reply)).isSome then [] else [s.chip]))[0]?).getD s.chip
   let c := s.chip
   let got := c.takeIn p (fun b => b.is .reply) = some (b, c1)
   let other := if p % 2 = 0 then p + 1 else p - 1
   s.chip.live = true ∧ n < 64 ∧ p < 128 ∧ got ∧ (c.engine p).out.find? (matches_ b) = none ∧ (c.engine other).out.find? (matches_ b) = none) ∧
  (let s : State := State.reset |> onEngine 1 (fun e => { e with out := [⟨0, true, 0x00B, 1, 6, 1, 100, .enum 1⟩] })
    |> mgrReceived 1 [mkReply 0 0 0x00B 0xFFFFFFFF 6]
   let n : Nat := 0
   let p : Nat := 1
   let k : Nat := 1
   let b : Block := { hdr := 0x2#2, pay := 0x6600000bffffffff060000000000e9#120 }
   let c1 : Chip := (((s.chip.takeIn p (fun b => b.is .reply)).toList.map (·.2) ++ (if (s.chip.takeIn p (fun b => b.is .reply)).isSome then [] else [s.chip]))[0]?).getD s.chip
   let o : CmdOut := { pos := 0, wr := true, addr := 11, data := 1, seq := 6, tries := 1, due := 100, tag := CmdTag.enum 1 }
   let c := s.chip
   let got := c.takeIn p (fun b => b.is .reply) = some (b, c1)
   s.chip.live = true ∧ n < 64 ∧ p < 128 ∧ got ∧ (c.engine p).out.find? (matches_ b) = some o ∧ o.tag = .enum k ∧ b.f 106 104 = 0) ∧
  (let s : State := State.reset
   let n : Nat := 0
   let p : Nat := 0
   let c := s.chip
   let due := (c.engine p).out.find? (fun o => decide (o.due ≤ c.tick))
   s.chip.live = true ∧ n < 64 ∧ p < 128 ∧ due = none) ∧
  (let s : State := State.reset |> onEngine 1 (fun e => { e with out := [⟨0, true, 0x00B, 1, 6, 1, 100, .enum 1⟩] }) |> atTick 1280004
   let n : Nat := 0
   let p : Nat := 1
   let o : CmdOut := { pos := 0, wr := true, addr := 11, data := 1, seq := 6, tries := 1, due := 100, tag := CmdTag.enum 1 }
   let c := s.chip
   let due := (c.engine p).out.find? (fun o => decide (o.due ≤ c.tick))
   s.chip.live = true ∧ n < 64 ∧ p < 128 ∧ due = some o ∧ (c.pair (p / 2)).move = none ∧ o.pos ≠ 0x1F ∧ o.tries ≤ c.retry p) := by
  refine ⟨?_, ?_, ?_, ?_, ?_, ?_, ?_, ?_, ?_, ?_, ?_, ?_⟩
  · decide +kernel
  · decide +kernel
  · decide +kernel
  · decide +kernel
  · decide +kernel
  · repeat' apply And.intro
    all_goals first
      | decide +kernel
      | (intro i h; cases h; exact ⟨_, rfl⟩)
      | (intro i h; cases h; done)
      | (intro i j h; cases h; done)
      | (intro i; rfl)
      | (rintro ⟨h, -⟩; revert h; decide +kernel)
      | (rintro ⟨-, h⟩; revert h; decide +kernel)
      | (rintro (⟨_, h⟩ | ⟨_, h⟩) <;> cases h; done)
      | (rintro _ (h | h) <;> cases h; done)
      | (rintro _ (h | h) <;> cases h <;> decide)
      | exact Or.inl (by decide +kernel)
      | exact Or.inr (by decide +kernel)
      | exact Or.inl (by rintro (⟨_, h⟩ | ⟨_, h⟩) <;> cases h)
      | exact rfl
      | exact And.intro rfl rfl
      | exact fun (h : _ ∧ _) => absurd h (by decide +kernel)
      | exact fun (h : _ = _) => absurd h (by decide +kernel)
  · repeat' apply And.intro
    all_goals first
      | decide +kernel
      | (intro i h; cases h; exact ⟨_, rfl⟩)
      | (intro i h; cases h; done)
      | (intro i j h; cases h; done)
      | (intro i; rfl)
      | (rintro ⟨h, -⟩; revert h; decide +kernel)
      | (rintro ⟨-, h⟩; revert h; decide +kernel)
      | (rintro (⟨_, h⟩ | ⟨_, h⟩) <;> cases h; done)
      | (rintro _ (h | h) <;> cases h; done)
      | (rintro _ (h | h) <;> cases h <;> decide)
      | exact Or.inl (by decide +kernel)
      | exact Or.inr (by decide +kernel)
      | exact Or.inl (by rintro (⟨_, h⟩ | ⟨_, h⟩) <;> cases h)
      | exact rfl
      | exact And.intro rfl rfl
      | exact fun (h : _ ∧ _) => absurd h (by decide +kernel)
      | exact fun (h : _ = _) => absurd h (by decide +kernel)
  · decide +kernel
  · decide +kernel
  · decide +kernel
  · decide +kernel
  · decide +kernel

theorem witness_CommandEngine :
  (let s : State := State.reset |> portF F.PRT_CMD_GO 0 1
   let p : Nat := 0
   let c := s.chip
   let f := fun (x : Fld) => portFld x p
   let free := (c.engine p).txn = none ∧ c.g (f F.PRT_CMD_GO) = 0
   s.chip.live = true ∧ p < 128 ∧ ¬ free) ∧
  (let s : State := State.reset
   let p : Nat := 0
   let v : Word := 0x02000003#32
   let c := s.chip
   let f := fun (x : Fld) => portFld x p
   let free := (c.engine p).txn = none ∧ c.g (f F.PRT_CMD_GO) = 0
   let enables := F.PRT_CMD_WR.of v = 1 ∧ F.PRT_CMD_ADDR.of v = 0x001
   s.chip.live = true ∧ p < 128 ∧ free ∧ c.up p = false ∧ ¬ enables) ∧
  (let s : State := State.reset |> pairF F.PRT_LOOP_CFG_CFG 0 1 |> pairF F.PRT_LOOP_CFG_N_EVEN 0 16 |> upMgr 0
   let p : Nat := 0
   let pos : Nat := 1
   let sl : Nat := 0
   let v : Word := 0x01000003#32
   let c := s.chip
   let f := fun (x : Fld) => portFld x p
   let free := (c.engine p).txn = none ∧ c.g (f F.PRT_CMD_GO) = 0
   s.chip.live = true ∧ p < 128 ∧ free ∧ (c.pair (p / 2)).move = none ∧ F.PRT_CMD_POS.of v = pos ∧ pos ≠ 0 ∧ pos ≠ 0x1F ∧ F.PRT_CMD_WR.of v = 0 ∧
     c.slotAt p pos = some sl ∧ c.sg F.PRT_SLOT_STATE sl ∉ [1, 6, 7] ∧ c.up p = true) ∧
  (let s : State := State.reset
    |> onEngine 0 (fun e => { e with txn := some ⟨.operator, 0, true, 0x003, 5, false, .writing 2, [], false, false, false, none, 0⟩ })
    |> onEngine 0 (fun e => { e with out := [⟨2, true, 0x3, 2, 5, 9, 100, .prt⟩] }) |> mgrReceived 0 [mkReply 2 0 0x003 77 5]
   let p : Nat := 0
   let k : Nat := 2
   let b : Block := { hdr := 0x2#2, pay := 0x661000030000004d050000000000ad#120 }
   let c1 : Chip := (((s.chip.takeIn p (fun b => b.is .reply)).toList.map (·.2) ++ (if (s.chip.takeIn p (fun b => b.is .reply)).isSome then [] else [s.chip]))[0]?).getD s.chip
   let o : CmdOut := { pos := 2, wr := true, addr := 3, data := 2, seq := 5, tries := 9, due := 100, tag := CmdTag.prt }
   let t : Txn := { role := Role.operator, fp := 0, wr := true, addr := 3, data := 5, bcast := false, phase := TxnPhase.writing 2, todo := [], readFirst := false, denied := false, refused := false, bad := none, nreply := 0 }
   let c := s.chip
   let final := (c.engine p).txn = some t ∧ t.phase = .writing k ∧ t.todo = [] ∧ t.denied = false ∧ t.refused = false ∧
         t.bad = none ∧ (c.engine p).wait = [] ∧ o.tag = .prt ∧ o.pos ≠ 0x1F
   s.chip.live = true ∧ p < 128 ∧ c.takeIn p (fun b => b.is .reply) = some (b, c1) ∧ (c.engine p).out.find? (matches_ b) = some o ∧ final ∧
     ¬ (t.wr = true ∧ t.addr = 0x001) ∧ b.f 106 104 = 0) ∧
  (let s : State := State.reset
    |> onEngine 0 (fun e => { e with txn := some ⟨.operator, 0, true, 0x003, 5, false, .writing 2, [], false, false, false, none, 0⟩ })
    |> onEngine 0 (fun e => { e with out := [⟨2, true, 0x3, 2, 5, 9, 100, .prt⟩] }) |> atTick 100
   let p : Nat := 0
   let k : Nat := 2
   let o : CmdOut := { pos := 2, wr := true, addr := 3, data := 2, seq := 5, tries := 9, due := 100, tag := CmdTag.prt }
   let t : Txn := { role := Role.operator, fp := 0, wr := true, addr := 3, data := 5, bcast := false, phase := TxnPhase.writing 2, todo := [], readFirst := false, denied := false, refused := false, bad := none, nreply := 0 }
   let c := s.chip
   let final := (c.engine p).txn = some t ∧ t.phase = .writing k ∧ t.todo = [] ∧ t.denied = false ∧ t.refused = false ∧
         t.bad = none ∧ (c.engine p).wait = [] ∧ o.tag = .prt ∧ o.pos ≠ 0x1F
   s.chip.live = true ∧ p < 128 ∧ (c.engine p).out.find? (fun o => decide (o.due ≤ c.tick)) = some o ∧ (c.pair (p / 2)).move = none ∧ final ∧
     c.retry p < o.tries) := by
  refine ⟨?_, ?_, ?_, ?_, ?_⟩ <;>
    decide +kernel

theorem witness_SplitMoves :
  (let s : State := pairF F.PRT_LOOP_CFG_CFG 0 1 (pairF F.PRT_LOOP_CFG_N_EVEN 0 3 State.reset) |> pairF F.PRT_LOOP_STAT_ENUM_DONE 0 1
    |> pairF F.PRT_LOOP_MOVE_GO 0 1
   let n : Nat := 0
   let slot : Nat := 0
   let p : Nat := 1
   let c := s.chip
   let sp := c.split n
   let tgt := c.g (pairFld F.PRT_LOOP_MOVE_TARGET n)
   let go := pairFld F.PRT_LOOP_MOVE_GO n
   let done := c.b (pairFld F.PRT_LOOP_STAT_ENUM_DONE n) = true
   let ready := c.isLoop n = true ∧ done ∧ (c.pair n).move = none
   let asked := ready ∧ c.g go = 1 ∧ ((c.pair n).lastMove = 0 ∨ (c.pair n).lastMove + c.rebalInt n ≤ c.tick)
   let may := tgt ≤ c.nEven n ∧ c.nEven n ≠ 1 ∧ c.moveAllowed n sp tgt = true
   s.chip.live = true ∧ n < 64 ∧ slot < 1024 ∧ p < 128 ∧ asked ∧ ¬ may) ∧
  (let s : State := pairF F.PRT_LOOP_CFG_CFG 0 1 (pairF F.PRT_LOOP_CFG_N_EVEN 0 3 State.reset) |> pairF F.PRT_LOOP_STAT_ENUM_DONE 0 1 |> upMgr 0
    |> pairF F.PRT_LOOP_MOVE_GO 0 1
   let n : Nat := 0
   let slot : Nat := 0
   let p : Nat := 0
   let c := s.chip
   let sp := c.split n
   let tgt := c.g (pairFld F.PRT_LOOP_MOVE_TARGET n)
   let go := pairFld F.PRT_LOOP_MOVE_GO n
   let done := c.b (pairFld F.PRT_LOOP_STAT_ENUM_DONE n) = true
   let ready := c.isLoop n = true ∧ done ∧ (c.pair n).move = none
   let asked := ready ∧ c.g go = 1 ∧ ((c.pair n).lastMove = 0 ∨ (c.pair n).lastMove + c.rebalInt n ≤ c.tick)
   let may := tgt ≤ c.nEven n ∧ c.nEven n ≠ 1 ∧ c.moveAllowed n sp tgt = true
   s.chip.live = true ∧ n < 64 ∧ slot < 1024 ∧ p < 128 ∧ asked ∧ may ∧ sp = tgt) ∧
  (let s : State := pairF F.PRT_LOOP_CFG_CFG 0 1 (pairF F.PRT_LOOP_CFG_N_EVEN 0 3 State.reset) |> pairF F.PRT_LOOP_STAT_ENUM_DONE 0 1
    |> pairF F.PRT_LOOP_MOVE_GO 0 1 |> pairF F.PRT_LOOP_MOVE_TARGET 0 1 |> onMgrPort 0 (fun p => { p with rx := { p.rx with lock := .locked } })
   let n : Nat := 0
   let slot : Nat := 1
   let p : Nat := 0
   let c := s.chip
   let sp := c.split n
   let tgt := c.g (pairFld F.PRT_LOOP_MOVE_TARGET n)
   let go := pairFld F.PRT_LOOP_MOVE_GO n
   let done := c.b (pairFld F.PRT_LOOP_STAT_ENUM_DONE n) = true
   let ready := c.isLoop n = true ∧ done ∧ (c.pair n).move = none
   let asked := ready ∧ c.g go = 1 ∧ ((c.pair n).lastMove = 0 ∨ (c.pair n).lastMove + c.rebalInt n ≤ c.tick)
   let may := tgt ≤ c.nEven n ∧ c.nEven n ≠ 1 ∧ c.moveAllowed n sp tgt = true
   s.chip.live = true ∧ n < 64 ∧ slot < 1024 ∧ p < 128 ∧ asked ∧ may ∧ sp ≠ tgt) ∧
  (let s : State := pairF F.PRT_LOOP_CFG_CFG 0 1 (pairF F.PRT_LOOP_CFG_N_EVEN 0 3 State.reset) |> pairF F.PRT_LOOP_MOVE_GO 0 1
   let n : Nat := 0
   let slot : Nat := 1
   let p : Nat := 0
   let c := s.chip
   let go := pairFld F.PRT_LOOP_MOVE_GO n
   let done := c.b (pairFld F.PRT_LOOP_STAT_ENUM_DONE n) = true
   s.chip.live = true ∧ n < 64 ∧ slot < 1024 ∧ p < 128 ∧ ¬ (c.isLoop n = true ∧ done) ∧ (c.pair n).move = none ∧ c.g go = 1) ∧
  (let s : State := pairF F.PRT_LOOP_CFG_CFG 0 1 (pairF F.PRT_LOOP_CFG_N_EVEN 0 3 State.reset)
   let n : Nat := 0
   let slot : Nat := 1
   let p : Nat := 0
   let c := s.chip
   let done := c.b (pairFld F.PRT_LOOP_STAT_ENUM_DONE n) = true
   s.chip.live = true ∧ n < 64 ∧ slot < 1024 ∧ p < 128 ∧ c.isLoop n = true ∧ (¬ done ∨ (c.nEven n ≠ 1 ∧ c.failedSeg n = none))) ∧
  (let s : State := pairF F.PRT_LOOP_CFG_CFG 0 1 (pairF F.PRT_LOOP_CFG_N_EVEN 0 3 State.reset) |> pairF F.PRT_LOOP_STAT_ENUM_DONE 0 1
   let n : Nat := 0
   let slot : Nat := 1
   let p : Nat := 1
   let j : Nat := 3
   let t : Nat := 0
   let c := s.chip
   let done := c.b (pairFld F.PRT_LOOP_STAT_ENUM_DONE n) = true
   let ready := c.isLoop n = true ∧ done ∧ (c.pair n).move = none
   s.chip.live = true ∧ n < 64 ∧ slot < 1024 ∧ p < 128 ∧ ready ∧ c.nEven n ≠ 1 ∧ c.failedSeg n = some (j, t)) ∧
  (let s : State := pairF F.PRT_LOOP_CFG_CFG 0 1 (pairF F.PRT_LOOP_CFG_N_EVEN 0 3 State.reset) |> pairF F.PRT_LOOP_STAT_ENUM_DONE 0 1 |> upMgr 1
    |> slotF F.PRT_SLOT_POS 0 1 |> pairF F.PRT_LOOP_CFG_N_EVEN 0 1
   let n : Nat := 0
   let slot : Nat := 0
   let p : Nat := 0
   let t : Nat := 0
   let v : Nat := 1
   let c := s.chip
   let done := c.b (pairFld F.PRT_LOOP_STAT_ENUM_DONE n) = true
   let ready := c.isLoop n = true ∧ done ∧ (c.pair n).move = none
   s.chip.live = true ∧ n < 64 ∧ slot < 1024 ∧ p < 128 ∧ ready ∧ c.nEven n = 1 ∧ c.onePlace n = some (t, v) ∧ c.enumerated (16 * n) = true ∧
     c.sg F.PRT_SLOT_STATE (16 * n) ≠ 7) ∧
  (let s : State := pairF F.PRT_LOOP_CFG_CFG 0 1 (pairF F.PRT_LOOP_CFG_N_EVEN 0 3 State.reset)
   let n : Nat := 0
   let slot : Nat := 0
   let p : Nat := 1
   let c := s.chip
   let x := c.slot slot
   let silent := c.sg F.PRT_SLOT_STATE slot = 4 ∧ x.lastSeen + 6400 * max 52 (c.g (pairFld F.PRT_LOOP_TIM_LIVE_TO (slot / 16))) ≤ c.tick ∧
     x.probe = none
   s.chip.live = true ∧ n < 64 ∧ slot < 1024 ∧ p < 128 ∧ ¬ silent) ∧
  (let s : State := pairF F.PRT_LOOP_CFG_CFG 0 1 (pairF F.PRT_LOOP_CFG_N_EVEN 0 3 State.reset) |> slotF F.PRT_SLOT_STATE 0 4 |> atTick 10000000000
   let n : Nat := 0
   let slot : Nat := 0
   let p : Nat := 0
   let c := s.chip
   let x := c.slot slot
   let silent := c.sg F.PRT_SLOT_STATE slot = 4 ∧ x.lastSeen + 6400 * max 52 (c.g (pairFld F.PRT_LOOP_TIM_LIVE_TO (slot / 16))) ≤ c.tick ∧
     x.probe = none
   s.chip.live = true ∧ n < 64 ∧ slot < 1024 ∧ p < 128 ∧ silent) ∧
  (let s : State := pairF F.PRT_LOOP_CFG_CFG 0 1 (pairF F.PRT_LOOP_CFG_N_EVEN 0 3 State.reset)
   let n : Nat := 0
   let slot : Nat := 0
   let p : Nat := 1
   let q : ProbeOut := { tag := 77, odd := true, kTx := some 44, due := 100, tries := 9, turning := false, live := true }
   let c := s.chip
   let x := c.slot slot
   s.chip.live = true ∧ n < 64 ∧ slot < 1024 ∧ p < 128 ∧ (x.probe = none ∨ (x.probe = some q ∧ c.tick < q.due))) ∧
  (let s : State := pairF F.PRT_LOOP_CFG_CFG 0 1 (pairF F.PRT_LOOP_CFG_N_EVEN 0 3 State.reset)
    |> onSlot 1 (fun x => { x with probe := some ⟨77, false, none, 100, 1, false, false⟩ }) |> atTick 332800
   let n : Nat := 0
   let slot : Nat := 1
   let p : Nat := 1
   let q : ProbeOut := { tag := 77, odd := false, kTx := none, due := 100, tries := 1, turning := false, live := false }
   let c := s.chip
   let x := c.slot slot
   let qp := 2 * (slot / 16) + q.odd.toNat
   s.chip.live = true ∧ n < 64 ∧ slot < 1024 ∧ p < 128 ∧ x.probe = some q ∧ q.due ≤ c.tick ∧ q.tries ≤ c.retry qp) ∧
  (let s : State := pairF F.PRT_LOOP_CFG_CFG 0 1 (pairF F.PRT_LOOP_CFG_N_EVEN 0 3 State.reset)
    |> onSlot 1 (fun x => { x with probe := some ⟨77, true, some 44, 100, 9, false, true⟩ }) |> atTick 332799
   let n : Nat := 0
   let slot : Nat := 1
   let p : Nat := 1
   let q : ProbeOut := { tag := 77, odd := true, kTx := some 44, due := 100, tries := 9, turning := false, live := true }
   let c := s.chip
   let x := c.slot slot
   let qp := 2 * (slot / 16) + q.odd.toNat
   let spent := x.probe = some q ∧ q.due ≤ c.tick ∧ c.retry qp < q.tries
   s.chip.live = true ∧ n < 64 ∧ slot < 1024 ∧ p < 128 ∧ spent ∧ c.sg F.PRT_SLOT_STATE slot ≠ 7 ∧ q.turning = false ∧ q.live = true) ∧
  (let s : State := pairF F.PRT_LOOP_CFG_CFG 0 1 (pairF F.PRT_LOOP_CFG_N_EVEN 0 3 State.reset) |> slotF F.PRT_SLOT_STATE 1 7
    |> onSlot 1 (fun x => { x with probe := some ⟨77, true, some 44, 60, 9, true, false⟩ }) |> atTick 332800
   let n : Nat := 0
   let slot : Nat := 1
   let p : Nat := 0
   let q : ProbeOut := { tag := 77, odd := true, kTx := some 44, due := 60, tries := 9, turning := true, live := false }
   let c := s.chip
   let x := c.slot slot
   let qp := 2 * (slot / 16) + q.odd.toNat
   let spent := x.probe = some q ∧ q.due ≤ c.tick ∧ c.retry qp < q.tries
   s.chip.live = true ∧ n < 64 ∧ slot < 1024 ∧ p < 128 ∧ spent ∧ c.sg F.PRT_SLOT_STATE slot = 7) ∧
  (let s : State := pairF F.PRT_LOOP_CFG_CFG 0 1 (pairF F.PRT_LOOP_CFG_N_EVEN 0 3 State.reset)
    |> onSlot 1 (fun x => { x with probe := some ⟨77, true, some 44, 60, 9, true, false⟩ })
    |> onPair 0 (fun q => { q with move := some ⟨false, 3, 1, 1, false, .turning 2, 4, false⟩ }) |> atTick 10000000000
   let n : Nat := 0
   let slot : Nat := 1
   let p : Nat := 0
   let q : ProbeOut := { tag := 77, odd := true, kTx := some 44, due := 60, tries := 9, turning := true, live := false }
   let m : MoveSt := { failOver := false, src := 3, dst := 1, final := 1, nearHeld := false, step := MoveStep.turning 2, since := 4, byGo := false }
   let c := s.chip
   let x := c.slot slot
   let k := c.posOf slot
   let qp := 2 * (slot / 16) + q.odd.toNat
   let spent := x.probe = some q ∧ q.due ≤ c.tick ∧ c.retry qp < q.tries
   s.chip.live = true ∧ n < 64 ∧ slot < 1024 ∧ p < 128 ∧ spent ∧ c.sg F.PRT_SLOT_STATE slot ≠ 7 ∧ q.turning = true ∧
     (c.pair (slot / 16)).move = some m ∧ m.step = .turning k) ∧
  (let s : State := pairF F.PRT_LOOP_CFG_CFG 0 1 (pairF F.PRT_LOOP_CFG_N_EVEN 0 3 State.reset)
   let n : Nat := 0
   let slot : Nat := 2
   let p : Nat := 1
   let c := s.chip
   s.chip.live = true ∧ n < 64 ∧ slot < 1024 ∧ p < 128 ∧ c.takeIn p (fun b => b.is .beacon && b.form == 2 && b.f 104 104 == 1) = none) ∧
  (let s : State := pairF F.PRT_LOOP_CFG_CFG 0 1 (pairF F.PRT_LOOP_CFG_N_EVEN 0 3 State.reset)
    |> onSlot 1 (fun x => { x with probe := some ⟨77, false, some 44, 100, 9, false, true⟩ }) |> mgrReceived 0 [mkEcho 2 78 1000 20 0]
   let n : Nat := 0
   let slot : Nat := 2
   let p : Nat := 0
   let sl : Nat := 1
   let kTx : Nat := 44
   let b : Block := { hdr := 0x2#2, pay := 0x2d85004e0000000003e805000000c2#120 }
   let c1 : Chip := (((s.chip.takeIn p (fun b => b.is .beacon && b.form == 2 && b.f 104 104 == 1)).toList.map (·.2) ++ (if (s.chip.takeIn p (fun b => b.is .beacon && b.form == 2 && b.f 104 104 == 1)).isSome then [] else [s.chip]))[0]?).getD s.chip
   let q : ProbeOut := { tag := 77, odd := false, kTx := some 44, due := 100, tries := 9, turning := false, live := true }
   let c := s.chip
   let y := c.slot sl
   let echo := c.takeIn p (fun b => b.is .beacon && b.form == 2 && b.f 104 104 == 1) = some (b, c1) ∧ c.slotAt p b.pos = some sl ∧
         y.probe = some q ∧ q.kTx = some kTx
   s.chip.live = true ∧ n < 64 ∧ slot < 1024 ∧ p < 128 ∧ echo ∧ q.tag ≠ b.f 103 88) ∧
  (let s : State := pairF F.PRT_LOOP_CFG_CFG 0 1 (pairF F.PRT_LOOP_CFG_N_EVEN 0 3 State.reset)
    |> onSlot 1 (fun x => { x with probe := some ⟨77, false, some 44, 100, 9, false, true⟩ }) |> mgrReceived 0 [mkEcho 2 77 1000 20 0]
   let n : Nat := 0
   let slot : Nat := 1
   let p : Nat := 0
   let sl : Nat := 1
   let kTx : Nat := 44
   let b : Block := { hdr := 0x2#2, pay := 0x2d85004d0000000003e805000000e3#120 }
   let c1 : Chip := (((s.chip.takeIn p (fun b => b.is .beacon && b.form == 2 && b.f 104 104 == 1)).toList.map (·.2) ++ (if (s.chip.takeIn p (fun b => b.is .beacon && b.form == 2 && b.f 104 104 == 1)).isSome then [] else [s.chip]))[0]?).getD s.chip
   let q : ProbeOut := { tag := 77, odd := false, kTx := some 44, due := 100, tries := 9, turning := false, live := true }
   let c := s.chip
   let y := c.slot sl
   let echo := c.takeIn p (fun b => b.is .beacon && b.form == 2 && b.f 104 104 == 1) = some (b, c1) ∧ c.slotAt p b.pos = some sl ∧
         y.probe = some q ∧ q.kTx = some kTx
   s.chip.live = true ∧ n < 64 ∧ slot < 1024 ∧ p < 128 ∧ echo ∧ q.tag = b.f 103 88 ∧ q.odd = decide (p % 2 = 1) ∧ q.turning = false ∧
     c.sg F.PRT_SLOT_STATE sl ≠ 7) ∧
  (let s : State := pairF F.PRT_LOOP_CFG_CFG 0 1 (pairF F.PRT_LOOP_CFG_N_EVEN 0 3 State.reset)
   let n : Nat := 0
   let slot : Nat := 0
   let p : Nat := 1
   let c := s.chip
   let sp := c.split n
   let balanced := c.isLoop n = true ∧ c.g (pairFld F.PRT_LOOP_CFG_POLICY n) = 1 ∧ limFlag c.work limBalance = true ∧ sp ≠ 0x1F ∧
         (c.pair n).rebalAt + c.rebalInt n ≤ c.tick
   s.chip.live = true ∧ n < 64 ∧ slot < 1024 ∧ p < 128 ∧ ¬ balanced) ∧
  (let s : State := pairF F.PRT_LOOP_CFG_CFG 0 1 (pairF F.PRT_LOOP_CFG_N_EVEN 0 3 State.reset) |> pairF F.PRT_LOOP_CFG_POLICY 0 1
    |> setWork (loopImg 0xFFFFFFFF) |> atTick 10000000000
   let n : Nat := 0
   let slot : Nat := 2
   let p : Nat := 0
   let c := s.chip
   let sp := c.split n
   let balanced := c.isLoop n = true ∧ c.g (pairFld F.PRT_LOOP_CFG_POLICY n) = 1 ∧ limFlag c.work limBalance = true ∧ sp ≠ 0x1F ∧
         (c.pair n).rebalAt + c.rebalInt n ≤ c.tick
   s.chip.live = true ∧ n < 64 ∧ slot < 1024 ∧ p < 128 ∧ balanced) := by
  refine ⟨?_, ?_, ?_, ?_, ?_, ?_, ?_, ?_, ?_, ?_, ?_, ?_, ?_, ?_, ?_, ?_, ?_, ?_, ?_⟩ <;>
    decide +kernel

theorem witness_LostWorkers :
  (let s : State := pairF F.PRT_LOOP_CFG_CFG 0 1 (pairF F.PRT_LOOP_CFG_N_EVEN 0 3 (setWork (loopImg 0) State.reset))
   let slot : Nat := 1
   let c := s.chip
   let x := c.slot slot
   let state := c.sg F.PRT_SLOT_STATE slot
   let keeps := x.keepAt + 2048 ≤ c.tick ∧ c.holdsAt slot ≠ [] ∧ state ≠ 6 ∧ state ≠ 7
   s.chip.live = true ∧ slot < 1024 ∧ ¬ keeps) ∧
  (let s : State := pairF F.PRT_LOOP_CFG_CFG 0 1 (pairF F.PRT_LOOP_CFG_N_EVEN 0 3 (setWork (loopImg 0) State.reset))
    |> onPair 0 (fun q => { q with heldSegs := [0, 1, 2, 3] }) |> atTick 640000100
   let slot : Nat := 0
   let c := s.chip
   let x := c.slot slot
   let state := c.sg F.PRT_SLOT_STATE slot
   let keeps := x.keepAt + 2048 ≤ c.tick ∧ c.holdsAt slot ≠ [] ∧ state ≠ 6 ∧ state ≠ 7
   s.chip.live = true ∧ slot < 1024 ∧ keeps) ∧
  (let s : State := pairF F.PRT_LOOP_CFG_CFG 0 1 (pairF F.PRT_LOOP_CFG_N_EVEN 0 3 (setWork (loopImg 0) State.reset))
   let slot : Nat := 1
   let c := s.chip
   let n := slot / 16
   let k := c.posOf slot
   let state := c.sg F.PRT_SLOT_STATE slot
   let out := fun (h : Nat) => c.segFailed n h || (h == 0 && !c.up (2 * n)) || (h == c.nEven n && !c.up (2 * n + 1))
   let gone := c.isLoop n = true ∧ c.enumerated slot = true ∧ state ≠ 7 ∧ out (k - 1) = true ∧ out k = true
   s.chip.live = true ∧ slot < 1024 ∧ ¬ gone) ∧
  (let s : State := pairF F.PRT_LOOP_CFG_CFG 0 1 (pairF F.PRT_LOOP_CFG_N_EVEN 0 3 (setWork (loopImg 0) State.reset)) |> slotF F.PRT_SLOT_POS 0 1
    |> pairF F.PRT_LOOP_CFG_N_EVEN 0 1
   let slot : Nat := 0
   let c := s.chip
   let n := slot / 16
   let k := c.posOf slot
   let state := c.sg F.PRT_SLOT_STATE slot
   let out := fun (h : Nat) => c.segFailed n h || (h == 0 && !c.up (2 * n)) || (h == c.nEven n && !c.up (2 * n + 1))
   let gone := c.isLoop n = true ∧ c.enumerated slot = true ∧ state ≠ 7 ∧ out (k - 1) = true ∧ out k = true
   s.chip.live = true ∧ slot < 1024 ∧ gone) ∧
  (let s : State := pairF F.PRT_LOOP_CFG_CFG 0 1 (pairF F.PRT_LOOP_CFG_N_EVEN 0 3 (setWork (loopImg 0) State.reset))
   let slot : Nat := 1
   let odd : Bool := true
   let c := s.chip
   let n := slot / 16
   let x := c.slot slot
   let k := c.posOf slot
   let state := c.sg F.PRT_SLOT_STATE slot
   let h := if odd then k else k - 1
   let node := if odd then k + 1 else k - 1
   let locked := (c.pair n).relocked.contains h || (node == 0 && (c.port (2 * n)).locked) || (node == c.nEven n + 1 && (c.port (2 * n + 1)).locked)
   let idleLost := state = 7 ∧ x.probe = none ∧ (c.pair n).move = none
   let back := idleLost ∧ (c.pair n).returning = none ∧ locked = true
   s.chip.live = true ∧ slot < 1024 ∧ (¬ idleLost ∨ ((c.pair n).returning ≠ some h ∧ ¬ back))) ∧
  (let s : State := pairF F.PRT_LOOP_CFG_CFG 0 1 (pairF F.PRT_LOOP_CFG_N_EVEN 0 3 (setWork (loopImg 0) State.reset))
    |> onPair 0 (fun q => { q with relocked := [1, 2] }) |> slotF F.PRT_SLOT_STATE 1 7
   let slot : Nat := 1
   let odd : Bool := false
   let c := s.chip
   let n := slot / 16
   let x := c.slot slot
   let k := c.posOf slot
   let state := c.sg F.PRT_SLOT_STATE slot
   let h := if odd then k else k - 1
   let node := if odd then k + 1 else k - 1
   let locked := (c.pair n).relocked.contains h || (node == 0 && (c.port (2 * n)).locked) || (node == c.nEven n + 1 && (c.port (2 * n + 1)).locked)
   let idleLost := state = 7 ∧ x.probe = none ∧ (c.pair n).move = none
   let back := idleLost ∧ (c.pair n).returning = none ∧ locked = true
   s.chip.live = true ∧ slot < 1024 ∧ back) ∧
  (let s : State := pairF F.PRT_LOOP_CFG_CFG 0 1 (pairF F.PRT_LOOP_CFG_N_EVEN 0 3 (setWork (loopImg 0) State.reset))
    |> (fun s => upMgr 0 (onPair 0 (fun q => { q with returning := some 0, move := none }) (slotF F.PRT_SLOT_STATE 0 7 s)))
   let slot : Nat := 0
   let odd : Bool := false
   let c := s.chip
   let n := slot / 16
   let x := c.slot slot
   let k := c.posOf slot
   let state := c.sg F.PRT_SLOT_STATE slot
   let h := if odd then k else k - 1
   let node := if odd then k + 1 else k - 1
   let idleLost := state = 7 ∧ x.probe = none ∧ (c.pair n).move = none
   let edge := node = 0 ∨ node = c.nEven n + 1
   let served := (node = 0 → c.up (2 * n) = true) ∧ (node ≠ 0 → c.up (2 * n + 1) = true)
   s.chip.live = true ∧ slot < 1024 ∧ idleLost ∧ (c.pair n).returning = some h ∧ edge ∧ served) ∧
  (let s : State := pairF F.PRT_LOOP_CFG_CFG 0 1 (pairF F.PRT_LOOP_CFG_N_EVEN 0 3 (setWork (loopImg 0) State.reset))
    |> (fun s => onPair 0 (fun q => { q with returning := some 0, move := none }) (slotF F.PRT_SLOT_STATE 0 7 s))
   let slot : Nat := 0
   let odd : Bool := false
   let c := s.chip
   let n := slot / 16
   let x := c.slot slot
   let k := c.posOf slot
   let state := c.sg F.PRT_SLOT_STATE slot
   let h := if odd then k else k - 1
   let node := if odd then k + 1 else k - 1
   let idleLost := state = 7 ∧ x.probe = none ∧ (c.pair n).move = none
   let edge := node = 0 ∨ node = c.nEven n + 1
   let served := (node = 0 → c.up (2 * n) = true) ∧ (node ≠ 0 → c.up (2 * n + 1) = true)
   s.chip.live = true ∧ slot < 1024 ∧ idleLost ∧ (c.pair n).returning = some h ∧ edge ∧ ¬ served) ∧
  (let s : State := pairF F.PRT_LOOP_CFG_CFG 0 1 (pairF F.PRT_LOOP_CFG_N_EVEN 0 3 (setWork (loopImg 0) State.reset)) |> slotF F.PRT_SLOT_STATE 1 7
    |> onPair 0 (fun q => { q with returning := some 1 })
   let slot : Nat := 1
   let odd : Bool := false
   let c := s.chip
   let n := slot / 16
   let x := c.slot slot
   let k := c.posOf slot
   let state := c.sg F.PRT_SLOT_STATE slot
   let h := if odd then k else k - 1
   let node := if odd then k + 1 else k - 1
   let idleLost := state = 7 ∧ x.probe = none ∧ (c.pair n).move = none
   let edge := node = 0 ∨ node = c.nEven n + 1
   s.chip.live = true ∧ slot < 1024 ∧ idleLost ∧ (c.pair n).returning = some h ∧ ¬ edge) ∧
  (let s : State := pairF F.PRT_LOOP_CFG_CFG 0 1 (pairF F.PRT_LOOP_CFG_N_EVEN 0 3 (setWork (loopImg 0) State.reset))
   let slot : Nat := 1
   let c := s.chip
   let x := c.slot slot
   let open_ := c.sg F.PRT_SLOT_DRAIN slot = 1 ∧ x.drainEnd ≤ c.tick
   s.chip.live = true ∧ slot < 1024 ∧ ¬ open_) ∧
  (let s : State := pairF F.PRT_LOOP_CFG_CFG 0 1 (pairF F.PRT_LOOP_CFG_N_EVEN 0 3 (setWork (loopImg 0) State.reset)) |> slotF F.PRT_SLOT_DRAIN 1 1
   let slot : Nat := 1
   let c := s.chip
   let x := c.slot slot
   let open_ := c.sg F.PRT_SLOT_DRAIN slot = 1 ∧ x.drainEnd ≤ c.tick
   s.chip.live = true ∧ slot < 1024 ∧ open_) ∧
  (let s : State := pairF F.PRT_LOOP_CFG_CFG 0 1 (pairF F.PRT_LOOP_CFG_N_EVEN 0 3 (setWork (loopImg 0) State.reset)) |> slotF F.PRT_SLOT_STATE 1 3
    |> setWork (loopImg 0xFFFFFFFF)
   let slot : Nat := 1
   let a : Nat := 0
   let rate : Nat := 1001
   let on : Bool := true
   let c := s.chip
   let x := c.slot slot
   let may := c.trimmable slot = true
   let masks := may ∧ limFlag c.work limMaskAuto = true ∧ a < 16384 ∧
         (if on then x.autoMask.contains a = false ∧ limNoisyRate c.work < rate ∧
           x.autoMask.length < limMaskMax c.work else x.autoMask.contains a = true)
   s.chip.live = true ∧ slot < 1024 ∧ masks) ∧
  (let s : State := pairF F.PRT_LOOP_CFG_CFG 0 1 (pairF F.PRT_LOOP_CFG_N_EVEN 0 3 (setWork (loopImg 0) State.reset))
   let slot : Nat := 1
   let a : Nat := 0
   let rate : Nat := 0
   let on : Bool := true
   let c := s.chip
   let x := c.slot slot
   let may := c.trimmable slot = true
   let masks := may ∧ limFlag c.work limMaskAuto = true ∧ a < 16384 ∧
         (if on then x.autoMask.contains a = false ∧ limNoisyRate c.work < rate ∧
           x.autoMask.length < limMaskMax c.work else x.autoMask.contains a = true)
   s.chip.live = true ∧ slot < 1024 ∧ ¬ masks) ∧
  (let s : State := pairF F.PRT_LOOP_CFG_CFG 0 1 (pairF F.PRT_LOOP_CFG_N_EVEN 0 3 (setWork (loopImg 0) State.reset)) |> slotF F.PRT_SLOT_STATE 1 4
    |> setWork (loopImg 0xFFFFFFFF)
   let slot : Nat := 1
   let t : Nat := 63
   let idle : Nat := 11
   let c := s.chip
   let x := c.slot slot
   let may := c.trimmable slot = true
   let off := x.autoPg.filter (fun u => (c.worker slot).g (F.TILE_AFE_PG.ix 4 u) = 1)
   let sleepy := may ∧ limFlag c.work limTilePg = true ∧ t < 64 ∧ limPgIdle c.work ≤ idle ∧ off.length < limPgMax c.work ∧ off.contains t = false
   s.chip.live = true ∧ slot < 1024 ∧ sleepy) ∧
  (let s : State := pairF F.PRT_LOOP_CFG_CFG 0 1 (pairF F.PRT_LOOP_CFG_N_EVEN 0 3 (setWork (loopImg 0) State.reset))
   let slot : Nat := 1
   let t : Nat := 5
   let idle : Nat := 9
   let c := s.chip
   let x := c.slot slot
   let may := c.trimmable slot = true
   let off := x.autoPg.filter (fun u => (c.worker slot).g (F.TILE_AFE_PG.ix 4 u) = 1)
   let sleepy := may ∧ limFlag c.work limTilePg = true ∧ t < 64 ∧ limPgIdle c.work ≤ idle ∧ off.length < limPgMax c.work ∧ off.contains t = false
   s.chip.live = true ∧ slot < 1024 ∧ ¬ sleepy) ∧
  (let s : State := pairF F.PRT_LOOP_CFG_CFG 0 1 (pairF F.PRT_LOOP_CFG_N_EVEN 0 3 (setWork (loopImg 0) State.reset)) |> slotF F.PRT_SLOT_STATE 0 4
    |> setWork (loopImg 0xFFFFFFFF)
   let slot : Nat := 0
   let c := s.chip
   let x := c.slot slot
   let may := c.trimmable slot = true
   let cycle := may ∧ limFlag c.work limTrimAuto = true ∧ ∀ at_, x.trimAt = some at_ → at_ + max 1 (limTrimInt c.work) * 640000000 ≤ c.tick
   s.chip.live = true ∧ slot < 1024 ∧ cycle) ∧
  (let s : State := pairF F.PRT_LOOP_CFG_CFG 0 1 (pairF F.PRT_LOOP_CFG_N_EVEN 0 3 (setWork (loopImg 0) State.reset))
   let slot : Nat := 1
   let c := s.chip
   let x := c.slot slot
   let may := c.trimmable slot = true
   let cycle := may ∧ limFlag c.work limTrimAuto = true ∧ ∀ at_, x.trimAt = some at_ → at_ + max 1 (limTrimInt c.work) * 640000000 ≤ c.tick
   s.chip.live = true ∧ slot < 1024 ∧ ¬ cycle) := by
  refine ⟨?_, ?_, ?_, ?_, ?_, ?_, ?_, ?_, ?_, ?_, ?_, ?_, ?_, ?_, ?_, ?_, ?_⟩ <;>
    decide +kernel

theorem witness_MeridianSources :
  (let s : State := State.reset |> mgrFld F.MER_STAT_SRC 2 |> mgrFld F.MER_STAT_STATE 2 |> onChip (fun c => c.modMer fun m => { m with srcValid := true, ppsLast := 100 }) |>
     atTick 704000100
   let missed : Nat := 10
   let m := s.chip.mer
   let src := s.chip.g F.MER_STAT_SRC
   let refs := if s.chip.b F.MER_CTL_REF_320 then 320 else 10
   s.chip.live = true ∧ (src = 2 ∧ m.srcValid = true ∧ m.ppsLast + 704000000 ≤ s.chip.tick) ∧ src = 2 ∧ m.srcValid = true ∧ refs ≤ missed) ∧
  (let s : State := State.reset |> mgrFld F.MER_STAT_SRC 1 |> onChip (fun c => c.modMer fun m => { m with srcValid := true, ptpLast := 100 }) |> atTick 1920000100
   let m := s.chip.mer
   let src := s.chip.g F.MER_STAT_SRC
   s.chip.live = true ∧ src = 1 ∧ m.srcValid = true ∧ m.ptpLast + 1920000000 ≤ s.chip.tick) ∧
  (let s : State := State.reset |> mgrFld F.MER_STAT_STATE 1 |> onChip (fun c => c.modMer fun m => { m with boundAt := 10 ^ 12, reckFrom := 99 })
   let c := s.chip
   let st := c.g F.MER_STAT_STATE
   s.chip.live = true ∧ st = 1 ∧ 100000 * c.g F.MER_HOLD_LOST_BOUND < c.reckBound) ∧
  (let s : State := State.reset
   let c := s.chip
   let st := c.g F.MER_STAT_STATE
   s.chip.live = true ∧ (st ≠ 1 ∨ c.reckBound ≤ 100000 * c.g F.MER_HOLD_LOST_BOUND)) ∧
  (let s : State := State.reset
   let rising : Bool := false
   let c := s.chip
   let src := c.g F.MER_STAT_SRC
   let active := src = 2 ∧ rising ≠ c.b F.MER_CTL_PPS_NEG
   s.chip.live = true ∧ ¬ active) ∧
  (let s : State := State.reset |> mgrFld F.MER_STAT_SRC 2
   let rising : Bool := true
   let c := s.chip
   let src := c.g F.MER_STAT_SRC
   let st := c.g F.MER_STAT_STATE
   let active := src = 2 ∧ rising ≠ c.b F.MER_CTL_PPS_NEG
   s.chip.live = true ∧ active ∧ st ≠ 2) ∧
  (let s : State := State.reset |> mgrFld F.MER_STAT_SRC 2 |> mgrFld F.MER_STAT_STATE 2 |> atTick 393216
   let sub : Nat := 0
   let rising : Bool := true
   let c := s.chip
   let m := c.mer
   let src := c.g F.MER_STAT_SRC
   let st := c.g F.MER_STAT_STATE
   let t : Int := (c.sub + sub : Nat)
   let off := secDist (t - t % 2 + signedOf 20 (c.g F.MER_REF_DLY_REF_DLY))
   let active := src = 2 ∧ rising ≠ c.b F.MER_CTL_PPS_NEG
   s.chip.live = true ∧ active ∧ st = 2 ∧ m.spurs = [] ∧ 1024000 < off.natAbs) ∧
  (let s : State := State.reset
   let c := s.chip
   let src := c.g F.MER_STAT_SRC
   s.chip.live = true ∧ src ≠ 1) ∧
  (let s : State := State.reset |> mgrFld F.MER_STAT_SRC 1
   let c := s.chip
   let src := c.g F.MER_STAT_SRC
   s.chip.live = true ∧ src = 1) ∧
  (let s : State := State.reset |> mgrFld F.MGT_ROLE_ROLE 2
   let sel : Nat := 0
   let c := s.chip
   s.chip.live = true ∧ c.role = .installer ∧ sel = c.g F.MER_CTL_SRC_SEL) ∧
  (let s : State := State.reset |> mgrFld F.MGT_ROLE_ROLE 2
   let sel : Nat := 3
   let c := s.chip
   s.chip.live = true ∧ c.role = .installer ∧ sel < 8 ∧ sel ≠ c.g F.MER_CTL_SRC_SEL) ∧
  (let s : State := State.reset |> mgrFld F.GBL_STAT_CHECK_BUSY 1 |> mgrFld F.MGT_ROLE_ROLE 2
   let c := s.chip
   let busy := c.run = true ∨ c.b F.GBL_STAT_CHECK_BUSY = true
   s.chip.live = true ∧ c.role = .installer ∧ busy) ∧
  (let s : State := State.reset |> mgrFld F.MGT_ROLE_ROLE 2
   let c := s.chip
   let busy := c.run = true ∨ c.b F.GBL_STAT_CHECK_BUSY = true
   let ns := c.g F.MER_SET_NS_SET_NS
   s.chip.live = true ∧ c.role = .installer ∧ ¬ busy ∧ ns < 10 ^ 9) ∧
  (let s : State := State.reset |> mgrFld F.MGT_ROLE_ROLE 2 |> mgrFld F.MER_SET_NS_SET_NS 0xFFFFFFFF
   let c := s.chip
   let busy := c.run = true ∨ c.b F.GBL_STAT_CHECK_BUSY = true
   let ns := c.g F.MER_SET_NS_SET_NS
   s.chip.live = true ∧ c.role = .installer ∧ ¬ busy ∧ 10 ^ 9 ≤ ns) := by
  refine ⟨?_, ?_, ?_, ?_, ?_, ?_, ?_, ?_, ?_, ?_, ?_, ?_, ?_, ?_⟩ <;>
    decide +kernel

theorem witness_BeaconsAndProbes :
  (let s : State := State.reset
   let slot : Nat := 1
   let c := s.chip
   let now := c.kcount / 2 ^ 18
   s.chip.live = true ∧ slot < 1024 ∧ (now ≤ c.mer.beaconSlot ∨ c.tick < c.mer.gapEnd)) ∧
  (let s : State := State.reset |> atTick 1920000050
   let slot : Nat := 1
   let c := s.chip
   let now := c.kcount / 2 ^ 18
   s.chip.live = true ∧ slot < 1024 ∧ c.mer.beaconSlot < now ∧ c.mer.gapEnd ≤ c.tick) ∧
  (let s : State := State.reset |> slotF F.PRT_SLOT_STATE 1 4
   let slot : Nat := 1
   let c := s.chip
   let x := c.slot slot
   let st := c.sg F.PRT_SLOT_STATE slot
   let due := (st = 3 ∨ st = 4) ∧ x.probe = none ∧ (x.tag = 0 ∨ x.lastProbe + 2 ^ (16 + min 8 (c.g F.MER_WK_CTL_PROBE_LOG)) ≤ c.tick)
   s.chip.live = true ∧ slot < 1024 ∧ due) ∧
  (let s : State := State.reset
   let slot : Nat := 1
   let c := s.chip
   let x := c.slot slot
   let st := c.sg F.PRT_SLOT_STATE slot
   let due := (st = 3 ∨ st = 4) ∧ x.probe = none ∧ (x.tag = 0 ∨ x.lastProbe + 2 ^ (16 + min 8 (c.g F.MER_WK_CTL_PROBE_LOG)) ≤ c.tick)
   s.chip.live = true ∧ slot < 1024 ∧ ¬ due) ∧
  (let s : State := State.reset
    |> onChip (fun c => c.modMer fun m => { m with hops := AMap.set (always Hop.init) m.hops 4 ⟨true, false, 5, 1, 100, 3⟩ }) |> atTick 1920000050
   let slot : Nat := 2
   let ix : Nat := 4
   let c := s.chip
   let h := c.hop ix
   let old := h.valid = true ∧ h.lastAt + 640000000 ≤ c.tick
   s.chip.live = true ∧ slot < 1024 ∧ old) ∧
  (let s : State := State.reset
   let slot : Nat := 1
   let ix : Nat := 0
   let c := s.chip
   let h := c.hop ix
   let old := h.valid = true ∧ h.lastAt + 640000000 ≤ c.tick
   s.chip.live = true ∧ slot < 1024 ∧ ¬ old) ∧
  (let s : State := State.reset
   let slot : Nat := 1
   let size : AccSize := AccSize.half
   s.chip.live = true ∧ slot < 1024 ∧ size ≠ .word) ∧
  (let s : State := State.reset
   let slot : Nat := 1
   let size : AccSize := AccSize.word
   s.chip.live = true ∧ slot < 1024 ∧ size = .word) ∧
  (let s : State := State.reset |> onChip (fun c => c.modMer fun m => { m with txts := [⟨1, 2, 0⟩] })
   let slot : Nat := 1
   let e : TxTs := { id := 1, time := 2, when := 0 }
   let rest : List TxTs := []
   let c := s.chip
   s.chip.live = true ∧ slot < 1024 ∧ c.mer.txts = e :: rest) ∧
  (let s : State := State.reset
   let slot : Nat := 1
   let c := s.chip
   s.chip.live = true ∧ slot < 1024 ∧ c.mer.txts = []) := by
  refine ⟨?_, ?_, ?_, ?_, ?_, ?_, ?_, ?_, ?_, ?_⟩ <;>
    decide +kernel

theorem witness_PeerChain :
  (let s : State := State.reset
   let odd : Bool := false
   let c := s.chip
   let p := 128 + odd.toNat
   s.chip.live = true ∧ c.takeIn p (fun b => !b.is .idle) = none) ∧
  (let s : State := State.reset |> mgrReceived 129 [mkProbe 0x1F 77]
   let odd : Bool := true
   let b : Block := { hdr := 0x2#2, pay := 0x2dbe004d0000000000000000000072#120 }
   let c1 : Chip := (((s.chip.takeIn (128 + odd.toNat) (fun b => !b.is .idle)).toList.map (·.2) ++ (s.chip.takePeer (fun b => b.is .beacon && b.form == 3)).toList.map (·.2) ++ (s.chip.takePeer (fun b => b.is .beacon && b.form == 2 && b.f 103 98 == timeHidx s.chip.work)).toList.map (·.2) ++ [s.chip])[0]?).getD s.chip
   let c := s.chip
   let p := 128 + odd.toNat
   let got := c.takeIn p (fun b => !b.is .idle) = some (b, c1)
   let isProbe := b.is .beacon && b.form == 2 && b.f 104 104 == 0
   s.chip.live = true ∧ got ∧ (c.hier = 0 ∨ (c.hier = 1 ∧ isProbe = false))) ∧
  (let s : State := State.reset |> mgrFld F.MER_CTL_ROLE 1 |> mgrReceived 129 [mkProbe 0x1F 77]
   let odd : Bool := true
   let b : Block := { hdr := 0x2#2, pay := 0x2dbe004d0000000000000000000072#120 }
   let c1 : Chip := (((s.chip.takeIn (128 + odd.toNat) (fun b => !b.is .idle)).toList.map (·.2) ++ (s.chip.takePeer (fun b => b.is .beacon && b.form == 3)).toList.map (·.2) ++ (s.chip.takePeer (fun b => b.is .beacon && b.form == 2 && b.f 103 98 == timeHidx s.chip.work)).toList.map (·.2) ++ [s.chip])[0]?).getD s.chip
   let c := s.chip
   let p := 128 + odd.toNat
   let got := c.takeIn p (fun b => !b.is .idle) = some (b, c1)
   let isProbe := b.is .beacon && b.form == 2 && b.f 104 104 == 0
   s.chip.live = true ∧ got ∧ c.hier = 1 ∧ isProbe = true) ∧
  (let s : State := State.reset |> mgrFld F.MER_CTL_ROLE 3 |> mgrReceived 129 [dataB 77]
   let odd : Bool := true
   let b : Block := { hdr := 0x1#2, pay := 0x00000000000000000000000000004d#120 }
   let c1 : Chip := (((s.chip.takeIn (128 + odd.toNat) (fun b => !b.is .idle)).toList.map (·.2) ++ (s.chip.takePeer (fun b => b.is .beacon && b.form == 3)).toList.map (·.2) ++ (s.chip.takePeer (fun b => b.is .beacon && b.form == 2 && b.f 103 98 == timeHidx s.chip.work)).toList.map (·.2) ++ [s.chip])[0]?).getD s.chip
   let c := s.chip
   let p := 128 + odd.toNat
   let got := c.takeIn p (fun b => !b.is .idle) = some (b, c1)
   s.chip.live = true ∧ got ∧ 2 ≤ c.hier) ∧
  (let s : State := State.reset
   let c := s.chip
   let use := c.peerUse
   s.chip.live = true ∧ (c.hier < 2 ∨ (c.port use).locked = true)) ∧
  (let s : State := State.reset |> mgrFld F.MER_CTL_ROLE 2 |> upMgr 129
   let c := s.chip
   let use := c.peerUse
   let alt := 257 - use
   s.chip.live = true ∧ 2 ≤ c.hier ∧ (c.port use).locked = false ∧ (c.port alt).locked = true) ∧
  (let s : State := State.reset |> mgrFld F.MER_CTL_ROLE 3
   let c := s.chip
   let use := c.peerUse
   let alt := 257 - use
   s.chip.live = true ∧ 2 ≤ c.hier ∧ (c.port use).locked = false ∧ (c.port alt).locked = false) ∧
  (let s : State := State.reset
   let c := s.chip
   let m := c.mer
   s.chip.live = true ∧ (c.hier ≠ 1 ∨ c.tick < m.peerSent + 2 ^ 18)) ∧
  (let s : State := State.reset |> mgrFld F.MER_CTL_ROLE 1 |> atTick 640000100
   let c := s.chip
   let m := c.mer
   s.chip.live = true ∧ c.hier = 1 ∧ m.peerSent + 2 ^ 18 ≤ c.tick) ∧
  (let s : State := State.reset
   let c := s.chip
   s.chip.live = true ∧ c.takePeer (fun b => b.is .beacon && b.form == 3) = none) ∧
  (let s : State := State.reset |> onChip (fun c => c.modMer fun m => { m with peerIn := [mkPeerTime 2 7 99 5 6] })
   let odd : Bool := true
   let b : Block := { hdr := 0x2#2, pay := 0x2de07000000630000001406000007e#120 }
   let c1 : Chip := (((s.chip.takeIn (128 + odd.toNat) (fun b => !b.is .idle)).toList.map (·.2) ++ (s.chip.takePeer (fun b => b.is .beacon && b.form == 3)).toList.map (·.2) ++ (s.chip.takePeer (fun b => b.is .beacon && b.form == 2 && b.f 103 98 == timeHidx s.chip.work)).toList.map (·.2) ++ [s.chip])[0]?).getD s.chip
   let c := s.chip
   let src := c.g F.MER_STAT_SRC
   let follows := c.hier ≠ 3 ∧ (src = 3 ∨ src = 4)
   let told := c.takePeer (fun b => b.is .beacon && b.form == 3) = some (b, c1)
   s.chip.live = true ∧ told ∧ (c.peerDelay = none ∨ (c.hier ≠ 3 ∧ ¬ follows))) ∧
  (let s : State := State.reset |> mgrFld F.MER_CTL_ROLE 3
    |> onChip (fun c => c.modMer fun m => { m with peerIn := [mkPeerTime 1 3 77 5 6, mkEcho 0 5 1000 20 0] })
    |> onChip (fun c => c.modMer fun m => { m with peerDelay0 := some 77 }) |> mgrReceived 128 [mkPeerTime 2 7 99 5 6]
   let odd : Bool := false
   let b : Block := { hdr := 0x2#2, pay := 0x2dd030000004d00000014060000025#120 }
   let c1 : Chip := (((s.chip.takeIn (128 + odd.toNat) (fun b => !b.is .idle)).toList.map (·.2) ++ (s.chip.takePeer (fun b => b.is .beacon && b.form == 3)).toList.map (·.2) ++ (s.chip.takePeer (fun b => b.is .beacon && b.form == 2 && b.f 103 98 == timeHidx s.chip.work)).toList.map (·.2) ++ [s.chip])[1]?).getD s.chip
   let dl : Int := 77
   let c := s.chip
   let told := c.takePeer (fun b => b.is .beacon && b.form == 3) = some (b, c1)
   s.chip.live = true ∧ told ∧ c.peerDelay = some dl ∧ c.hier = 3) ∧
  (let s : State := State.reset |> onChip (fun c => c.modMer fun m => { m with peerIn := [mkPeerTime 1 3 77 5 6, mkEcho 0 5 1000 20 0] })
    |> onChip (fun c => c.modMer fun m => { m with peerDelay0 := some 77 }) |> mgrFld F.MER_STAT_SRC 3
   let odd : Bool := false
   let b : Block := { hdr := 0x2#2, pay := 0x2dd030000004d00000014060000025#120 }
   let c1 : Chip := (((s.chip.takeIn (128 + odd.toNat) (fun b => !b.is .idle)).toList.map (·.2) ++ (s.chip.takePeer (fun b => b.is .beacon && b.form == 3)).toList.map (·.2) ++ (s.chip.takePeer (fun b => b.is .beacon && b.form == 2 && b.f 103 98 == timeHidx s.chip.work)).toList.map (·.2) ++ [s.chip])[0]?).getD s.chip
   let dl : Int := 77
   let c := s.chip
   let m := c.mer
   let src := c.g F.MER_STAT_SRC
   let follows := c.hier ≠ 3 ∧ (src = 3 ∨ src = 4)
   let told := c.takePeer (fun b => b.is .beacon && b.form == 3) = some (b, c1)
   s.chip.live = true ∧ told ∧ c.peerDelay = some dl ∧ follows ∧ m.peerBreaks < 7) ∧
  (let s : State := State.reset
   let c := s.chip
   let m := c.mer
   let late := 2 ≤ c.hier ∧ m.peerLast + 2 ^ 18 * (m.peerMiss + 1) + 2 ^ 17 ≤ c.tick
   s.chip.live = true ∧ ¬ late) ∧
  (let s : State := State.reset |> mgrFld F.MER_CTL_ROLE 3 |> atTick 1920000050
   let c := s.chip
   let m := c.mer
   let late := 2 ≤ c.hier ∧ m.peerLast + 2 ^ 18 * (m.peerMiss + 1) + 2 ^ 17 ≤ c.tick
   s.chip.live = true ∧ late) ∧
  (let s : State := State.reset
   let c := s.chip
   s.chip.live = true ∧ c.hier < 2) ∧
  (let s : State := State.reset |> mgrFld F.MER_CTL_ROLE 3
   let c := s.chip
   let isEcho := fun (b : Block) => b.is .beacon && b.form == 2 && b.f 103 98 == timeHidx c.work
   s.chip.live = true ∧ 2 ≤ c.hier ∧ c.takePeer isEcho = none) ∧
  (let s : State := State.reset |> mgrFld F.MER_CTL_ROLE 2
    |> onChip (fun c => c.modMer fun m => { m with peerIn := [mkPeerTime 1 3 77 5 6, mkEcho 0 5 1000 20 0] })
   let odd : Bool := false
   let b : Block := { hdr := 0x2#2, pay := 0x2d8100050000000003e80500000090#120 }
   let c1 : Chip := (((s.chip.takeIn (128 + odd.toNat) (fun b => !b.is .idle)).toList.map (·.2) ++ (s.chip.takePeer (fun b => b.is .beacon && b.form == 3)).toList.map (·.2) ++ (s.chip.takePeer (fun b => b.is .beacon && b.form == 2 && b.f 103 98 == timeHidx s.chip.work)).toList.map (·.2) ++ [s.chip])[1]?).getD s.chip
   let c := s.chip
   let m := c.mer
   let isEcho := fun (b : Block) => b.is .beacon && b.form == 2 && b.f 103 98 == timeHidx c.work
   s.chip.live = true ∧ 2 ≤ c.hier ∧ c.takePeer isEcho = some (b, c1) ∧ (m.peerKtx = none ∨ m.peerTag ≠ b.f 103 88)) ∧
  (let s : State := State.reset |> mgrFld F.MER_CTL_ROLE 3 |> onChip (fun c => c.modMer fun m => { m with peerIn := [mkEcho 0 5 1000 20 0, dataB 4] })
    |> onChip (fun c => c.modMer fun m => { m with peerTag := 5, peerKtx := some 44 })
   let odd : Bool := true
   let k : Nat := 44
   let b : Block := { hdr := 0x2#2, pay := 0x2d8100050000000003e80500000090#120 }
   let c1 : Chip := (((s.chip.takeIn (128 + odd.toNat) (fun b => !b.is .idle)).toList.map (·.2) ++ (s.chip.takePeer (fun b => b.is .beacon && b.form == 3)).toList.map (·.2) ++ (s.chip.takePeer (fun b => b.is .beacon && b.form == 2 && b.f 103 98 == timeHidx s.chip.work)).toList.map (·.2) ++ [s.chip])[0]?).getD s.chip
   let c := s.chip
   let m := c.mer
   let isEcho := fun (b : Block) => b.is .beacon && b.form == 2 && b.f 103 98 == timeHidx c.work
   s.chip.live = true ∧ 2 ≤ c.hier ∧ c.takePeer isEcho = some (b, c1) ∧ m.peerKtx = some k ∧ m.peerTag = b.f 103 88) := by
  refine ⟨?_, ?_, ?_, ?_, ?_, ?_, ?_, ?_, ?_, ?_, ?_, ?_, ?_, ?_, ?_, ?_, ?_, ?_, ?_⟩ <;>
    decide +kernel

theorem witness_PoolAndThrottle :
  (let s : State := pairF F.PRT_LOOP_CFG_CFG 0 1 (pairF F.PRT_LOOP_CFG_N_EVEN 0 3 State.reset)
   let p : Nat := 1
   let slot : Nat := 0
   let c := s.chip
   s.chip.live = true ∧ p < 128 ∧ slot < 1024 ∧ c.dcq p = []) ∧
  (let s : State := pairF F.PRT_LOOP_CFG_CFG 0 1 (pairF F.PRT_LOOP_CFG_N_EVEN 0 3 State.reset) |> setWork poolImg
    |> atFront 0 [.block (mkPktStart 2 0 5 0), .block (dataB 4)]
   let p : Nat := 0
   let slot : Nat := 1
   let b : Block := { hdr := 0x2#2, pay := 0xaa10005000000000000000000000b0#120 }
   let rest : List RxItem := [.block { hdr := 0x1#2, pay := 0x000000000000000000000000000004#120 }]
   let c := s.chip
   let front := c.dcq p = .block b :: rest ∧ (∀ i ∈ rest.head?, ∃ b', i = .block b')
   let need := if b.f 106 104 = kindRecords then 2 * b.f 103 92 else if b.f 106 104 = kindMarkResult then 2 * (b.f 103 92 - 1) else 0
   let at_ := c.slotAt p b.pos = some slot
   let starts := front ∧ b.type = some .pktStart ∧ at_
   s.chip.live = true ∧ p < 128 ∧ slot < 1024 ∧ starts ∧ c.epochOk slot (b.f 91 84) = true ∧ need ≤ 32 * (qParam c.work (8 * slot)).max) ∧
  (let s : State := pairF F.PRT_LOOP_CFG_CFG 0 1 (pairF F.PRT_LOOP_CFG_N_EVEN 0 3 State.reset)
    |> atFront 0 [.block (mkPktStart 2 0 5 3), .block (dataB 4)]
   let p : Nat := 0
   let slot : Nat := 1
   let b : Block := { hdr := 0x2#2, pay := 0xaa1000503000000000000000000001#120 }
   let rest : List RxItem := [.block { hdr := 0x1#2, pay := 0x000000000000000000000000000004#120 }]
   let c := s.chip
   let front := c.dcq p = .block b :: rest ∧ (∀ i ∈ rest.head?, ∃ b', i = .block b')
   let at_ := c.slotAt p b.pos = some slot
   let starts := front ∧ b.type = some .pktStart ∧ at_
   s.chip.live = true ∧ p < 128 ∧ slot < 1024 ∧ starts ∧ c.epochOk slot (b.f 91 84) = false) ∧
  (let s : State := pairF F.PRT_LOOP_CFG_CFG 0 1 (pairF F.PRT_LOOP_CFG_N_EVEN 0 3 State.reset)
    |> atFront 0 [.block (mkPktStart 2 1 5 0), .block (dataB 4)]
   let p : Nat := 0
   let slot : Nat := 1
   let b : Block := { hdr := 0x2#2, pay := 0xaa1100500000000000000000000024#120 }
   let rest : List RxItem := [.block { hdr := 0x1#2, pay := 0x000000000000000000000000000004#120 }]
   let c := s.chip
   let front := c.dcq p = .block b :: rest ∧ (∀ i ∈ rest.head?, ∃ b', i = .block b')
   let need := if b.f 106 104 = kindRecords then 2 * b.f 103 92 else if b.f 106 104 = kindMarkResult then 2 * (b.f 103 92 - 1) else 0
   let at_ := c.slotAt p b.pos = some slot
   let starts := front ∧ b.type = some .pktStart ∧ at_
   s.chip.live = true ∧ p < 128 ∧ slot < 1024 ∧ starts ∧ c.epochOk slot (b.f 91 84) = true ∧ 32 * (qParam c.work (8 * slot)).max < need) ∧
  (let s : State := pairF F.PRT_LOOP_CFG_CFG 0 1 (pairF F.PRT_LOOP_CFG_N_EVEN 0 3 State.reset) |> setWork poolImg
    |> atFront 0 [.block (mkReply 2 0 1 2 3), .block (dataB 4)]
   let p : Nat := 0
   let slot : Nat := 1
   let b : Block := { hdr := 0x2#2, pay := 0x6610000100000002030000000000d9#120 }
   let rest : List RxItem := [.block { hdr := 0x1#2, pay := 0x000000000000000000000000000004#120 }]
   let c := s.chip
   let front := c.dcq p = .block b :: rest ∧ (∀ i ∈ rest.head?, ∃ b', i = .block b')
   let at_ := c.slotAt p b.pos = some slot
   let keeps := fun (q w : Nat) => (qParam c.work q).max ≠ 0 ∧ c.qIsFull q w = false
   s.chip.live = true ∧ p < 128 ∧ slot < 1024 ∧ front ∧ b.type = some .reply ∧ (c.slotAt p b.pos = none ∨ (at_ ∧ keeps (8 * slot + 3) 3))) ∧
  (let s : State := pairF F.PRT_LOOP_CFG_CFG 0 1 (pairF F.PRT_LOOP_CFG_N_EVEN 0 3 State.reset) |> setWork poolImg
    |> onLq 11 (fun x => { x with late := List.replicate 30 (.hit false 1 1) }) |> atFront 1 [.block (mkReply 2 0 1 2 3)]
   let p : Nat := 1
   let slot : Nat := 1
   let b : Block := { hdr := 0x2#2, pay := 0x6610000100000002030000000000d9#120 }
   let rest : List RxItem := []
   let c := s.chip
   let front := c.dcq p = .block b :: rest ∧ (∀ i ∈ rest.head?, ∃ b', i = .block b')
   let at_ := c.slotAt p b.pos = some slot
   let full := fun (q : Nat) => (qParam c.work q).max ≠ 0 ∧ c.qIsFull q 3 = true
   s.chip.live = true ∧ p < 128 ∧ slot < 1024 ∧ front ∧ b.type = some .reply ∧ at_ ∧ full (8 * slot + 3)) ∧
  (let s : State := pairF F.PRT_LOOP_CFG_CFG 0 1 (pairF F.PRT_LOOP_CFG_N_EVEN 0 3 State.reset) |> atFront 0 [.block (mkEcho 2 9 1 2 3)]
   let p : Nat := 0
   let slot : Nat := 1
   let b : Block := { hdr := 0x2#2, pay := 0x2d8500090000000000010080000c10#120 }
   let rest : List RxItem := []
   let c := s.chip
   let front := c.dcq p = .block b :: rest ∧ (∀ i ∈ rest.head?, ∃ b', i = .block b')
   let at_ := c.slotAt p b.pos = some slot
   let keeps := fun (q w : Nat) => (qParam c.work q).max ≠ 0 ∧ c.qIsFull q w = false
   s.chip.live = true ∧ p < 128 ∧ slot < 1024 ∧ front ∧ b.type = some .beacon ∧ b.form ≠ 1 ∧ at_ ∧
     ((qParam c.work (8 * slot + 4)).max = 0 ∨ keeps (8 * slot + 4) 3)) ∧
  (let s : State := pairF F.PRT_LOOP_CFG_CFG 0 1 (pairF F.PRT_LOOP_CFG_N_EVEN 0 3 State.reset)
    |> atFront 0 [.block (mkTimeRef 2 1 99999), .block (dataB 4)]
   let p : Nat := 0
   let slot : Nat := 1
   let b : Block := { hdr := 0x2#2, pay := 0x2d4480000000c34f80000000000068#120 }
   let rest : List RxItem := [.block { hdr := 0x1#2, pay := 0x000000000000000000000000000004#120 }]
   let c := s.chip
   let front := c.dcq p = .block b :: rest ∧ (∀ i ∈ rest.head?, ∃ b', i = .block b')
   let at_ := c.slotAt p b.pos = some slot
   s.chip.live = true ∧ p < 128 ∧ slot < 1024 ∧ front ∧ b.type = some .beacon ∧ b.form = 1 ∧ at_) ∧
  (let s : State := pairF F.PRT_LOOP_CFG_CFG 0 1 (pairF F.PRT_LOOP_CFG_N_EVEN 0 3 State.reset) |> atFront 0 [.block (mkEpochEnd 2 2)]
   let p : Nat := 0
   let slot : Nat := 1
   let b : Block := { hdr := 0x2#2, pay := 0x9910100000000000000000000000ff#120 }
   let rest : List RxItem := []
   let c := s.chip
   let front := c.dcq p = .block b :: rest ∧ (∀ i ∈ rest.head?, ∃ b', i = .block b')
   let at_ := c.slotAt p b.pos = some slot
   s.chip.live = true ∧ p < 128 ∧ slot < 1024 ∧ front ∧ b.type = some .epochEnd ∧ at_) ∧
  (let s : State := pairF F.PRT_LOOP_CFG_CFG 0 1 (pairF F.PRT_LOOP_CFG_N_EVEN 0 3 State.reset) |> setWork poolImg |> roseBase
    |> atFront 0 [.block (mkSighting 2 5 99), .block (dataB 4)]
   let p : Nat := 0
   let slot : Nat := 1
   let g : Nat := 0
   let b : Block := { hdr := 0x2#2, pay := 0x33100000000000000028000000031f#120 }
   let rest : List RxItem := [.block { hdr := 0x1#2, pay := 0x000000000000000000000000000004#120 }]
   let c := s.chip
   let front := c.dcq p = .block b :: rest ∧ (∀ i ∈ rest.head?, ∃ b', i = .block b')
   let at_ := c.slotAt p b.pos = some slot
   let keeps := fun (q w : Nat) => (qParam c.work q).max ≠ 0 ∧ c.qIsFull q w = false
   let count := c.extendTo 40 (b.f 42 3)
   let gr := c.grp g
   let k := count / 2 ^ gr.orderLog
   s.chip.live = true ∧ p < 128 ∧ slot < 1024 ∧ front ∧ b.type = some .sighting ∧ at_ ∧ c.groupOf (8 * slot + 1) = some g ∧ keeps (8 * slot + 1) 2 ∧
     k < gr.close + 128) ∧
  (let s : State := pairF F.PRT_LOOP_CFG_CFG 0 1 (pairF F.PRT_LOOP_CFG_N_EVEN 0 3 State.reset)
    |> onQue (fun q => { q with items := AMap.set (always none) q.items 0 (some ⟨1, 0, 3, 5, 3, 2, 11, 22, false, false, true, false, 0, []⟩) })
    |> roseBase |> atFront 0 [.close 2 0 0 3 .trunc false]
   let p : Nat := 0
   let slot : Nat := 3
   let pos : Nat := 2
   let kind : Nat := 0
   let ep : Nat := 0
   let got : Nat := 3
   let cut : Bool := false
   let o : OpenItem := { slot := 1, kind := 0, epoch := 3, len := 5, got := 3, n := 2, cmin := 11, cmax := 22, drop := false, refused := false, trunc := true, flushed := false, lastAt := 0, pay := [] }
   let st : ItemStatus := ItemStatus.trunc
   let c := s.chip
   s.chip.live = true ∧ p < 128 ∧ slot < 1024 ∧ c.dcq p = [.close pos kind ep got st cut] ∧ c.item p = some o ∧ o.refused = false ∧
     o.flushed = false ∧
     o.n ≠ 0 ∧ (st ≠ .ok ∨ o.trunc = true) ∧ (c.groupOf (8 * o.slot)).isSome = true) ∧
  (let s : State := pairF F.PRT_LOOP_CFG_CFG 0 1 (pairF F.PRT_LOOP_CFG_N_EVEN 0 3 State.reset)
   let p : Nat := 0
   let slot : Nat := 1
   let c := s.chip
   let x := c.slot slot
   let resend := x.throttleAt + 2 ^ 14 ≤ c.tick ∧ (x.throttle < 0xFF ∨ x.throttleOnce = true)
   s.chip.live = true ∧ p < 128 ∧ slot < 1024 ∧ ¬ resend) ∧
  (let s : State := pairF F.PRT_LOOP_CFG_CFG 0 1 (pairF F.PRT_LOOP_CFG_N_EVEN 0 3 State.reset)
    |> onSlot 1 (fun x => { x with throttleOnce := true, throttleAt := 100 }) |> atTick 65636
   let p : Nat := 1
   let slot : Nat := 1
   let c := s.chip
   let x := c.slot slot
   let resend := x.throttleAt + 2 ^ 14 ≤ c.tick ∧ (x.throttle < 0xFF ∨ x.throttleOnce = true)
   s.chip.live = true ∧ p < 128 ∧ slot < 1024 ∧ resend) ∧
  (let s : State := pairF F.PRT_LOOP_CFG_CFG 0 1 (pairF F.PRT_LOOP_CFG_N_EVEN 0 3 State.reset)
   let p : Nat := 0
   let slot : Nat := 3
   let c := s.chip
   let due := AMap.get (always 0) c.que.shareFrom p + 2 ^ 16 ≤ c.tick
   s.chip.live = true ∧ p < 128 ∧ slot < 1024 ∧ ¬ due) ∧
  (let s : State := pairF F.PRT_LOOP_CFG_CFG 0 1 (pairF F.PRT_LOOP_CFG_N_EVEN 0 3 State.reset) |> atTick 65636
   let p : Nat := 0
   let slot : Nat := 1
   let c := s.chip
   let due := AMap.get (always 0) c.que.shareFrom p + 2 ^ 16 ≤ c.tick
   s.chip.live = true ∧ p < 128 ∧ slot < 1024 ∧ due) ∧
  (let s : State := pairF F.PRT_LOOP_CFG_CFG 0 1 (pairF F.PRT_LOOP_CFG_N_EVEN 0 3 State.reset) |> mgrFld F.MGT_ROLE_ROLE 2
   let p : Nat := 0
   let slot : Nat := 3
   let v : Word := 0x0000000a#32
   let c := s.chip
   let noItem := (∀ i, c.item i = none) ∧ ∀ i ∈ c.que.items, i.2 = none
   s.chip.live = true ∧ p < 128 ∧ slot < 1024 ∧ c.role = .installer ∧ F.QUE_FLUSH_SCOPE.of v = 0 ∧ noItem) ∧
  (let s : State := pairF F.PRT_LOOP_CFG_CFG 0 1 (pairF F.PRT_LOOP_CFG_N_EVEN 0 3 State.reset) |> mgrFld F.MGT_ROLE_ROLE 2
   let p : Nat := 1
   let slot : Nat := 0
   let v : Word := 0x10000000#32
   let c := s.chip
   let noItem := (∀ i, c.item i = none) ∧ ∀ i ∈ c.que.items, i.2 = none
   s.chip.live = true ∧ p < 128 ∧ slot < 1024 ∧ c.role = .installer ∧ F.QUE_FLUSH_SCOPE.of v = 1 ∧ noItem) ∧
  (let s : State := pairF F.PRT_LOOP_CFG_CFG 0 1 (pairF F.PRT_LOOP_CFG_N_EVEN 0 3 State.reset) |> mgrFld F.MGT_ROLE_ROLE 2
   let p : Nat := 0
   let slot : Nat := 3
   let v : Word := 0x20000000#32
   let c := s.chip
   let noItem := (∀ i, c.item i = none) ∧ ∀ i ∈ c.que.items, i.2 = none
   s.chip.live = true ∧ p < 128 ∧ slot < 1024 ∧ c.role = .installer ∧ F.QUE_FLUSH_SCOPE.of v = 2 ∧ noItem) ∧
  (let s : State := pairF F.PRT_LOOP_CFG_CFG 0 1 (pairF F.PRT_LOOP_CFG_N_EVEN 0 3 State.reset) |> mgrFld F.MGT_ROLE_ROLE 2
    |> onQue (fun q => { q with items := AMap.set (always none) q.items 0 (some ⟨1, 0, 0, 5, 0, 0, 0, 0, false, false, false, false, 0, []⟩) })
   let p : Nat := 0
   let slot : Nat := 1
   let o : OpenItem := { slot := 1, kind := 0, epoch := 0, len := 5, got := 0, n := 0, cmin := 0, cmax := 0, drop := false, refused := false, trunc := false, flushed := false, lastAt := 0, pay := [] }
   let v : Word := 0x00000008#32
   let c := s.chip
   let q := F.QUE_FLUSH_TARGET.of v
   s.chip.live = true ∧ p < 128 ∧ slot < 1024 ∧ c.role = .installer ∧ F.QUE_FLUSH_SCOPE.of v = 0 ∧ c.item p = some o ∧ o.into q = true) ∧
  (let s : State := pairF F.PRT_LOOP_CFG_CFG 0 1 (pairF F.PRT_LOOP_CFG_N_EVEN 0 3 State.reset)
    |> onQue (fun q => { q with items := AMap.set (always none) q.items 0 (some ⟨1, 0, 0, 5, 0, 0, 0, 0, false, false, false, true, 50, []⟩) })
    |> atTick 16484
   let p : Nat := 0
   let slot : Nat := 3
   let o : OpenItem := { slot := 1, kind := 0, epoch := 0, len := 5, got := 0, n := 0, cmin := 0, cmax := 0, drop := false, refused := false, trunc := false, flushed := true, lastAt := 50, pay := [] }
   let c := s.chip
   let quiet := c.item p = some o ∧ o.flushed = true ∧ o.lastAt + 640 * max 1 (c.g F.QUE_FLUSH_FLUSH_TO) ≤ c.tick
   s.chip.live = true ∧ p < 128 ∧ slot < 1024 ∧ quiet) ∧
  (let s : State := pairF F.PRT_LOOP_CFG_CFG 0 1 (pairF F.PRT_LOOP_CFG_N_EVEN 0 3 State.reset)
   let p : Nat := 0
   let slot : Nat := 1
   let c := s.chip
   s.chip.live = true ∧ p < 128 ∧ slot < 1024 ∧
     ((∀ o, c.item p = some o → o.flushed = false ∨ c.tick < o.lastAt + 640 * max 1 (c.g F.QUE_FLUSH_FLUSH_TO)))) := by
  refine ⟨?_, ?_, ?_, ?_, ?_, ?_, ?_, ?_, ?_, ?_, ?_, ?_, ?_, ?_, ?_, ?_, ?_, ?_, ?_, ?_, ?_⟩
  · decide +kernel
  · repeat' apply And.intro
    all_goals first
      | decide +kernel
      | (intro i h; cases h; exact ⟨_, rfl⟩)
      | (intro i h; cases h; done)
      | (intro i j h; cases h; done)
      | (intro i; rfl)
      | (rintro ⟨h, -⟩; revert h; decide +kernel)
      | (rintro ⟨-, h⟩; revert h; decide +kernel)
      | (rintro (⟨_, h⟩ | ⟨_, h⟩) <;> cases h; done)
      | (rintro _ (h | h) <;> cases h; done)
      | (rintro _ (h | h) <;> cases h <;> decide)
      | exact Or.inl (by decide +kernel)
      | exact Or.inr (by decide +kernel)
      | exact Or.inl (by rintro (⟨_, h⟩ | ⟨_, h⟩) <;> cases h)
      | exact rfl
      | exact And.intro rfl rfl
      | exact fun (h : _ ∧ _) => absurd h (by decide +kernel)
      | exact fun (h : _ = _) => absurd h (by decide +kernel)
  · repeat' apply And.intro
    all_goals first
      | decide +kernel
      | (intro i h; cases h; exact ⟨_, rfl⟩)
      | (intro i h; cases h; done)
      | (intro i j h; cases h; done)
      | (intro i; rfl)
      | (rintro ⟨h, -⟩; revert h; decide +kernel)
      | (rintro ⟨-, h⟩; revert h; decide +kernel)
      | (rintro (⟨_, h⟩ | ⟨_, h⟩) <;> cases h; done)
      | (rintro _ (h | h) <;> cases h; done)
      | (rintro _ (h | h) <;> cases h <;> decide)
      | exact Or.inl (by decide +kernel)
      | exact Or.inr (by decide +kernel)
      | exact Or.inl (by rintro (⟨_, h⟩ | ⟨_, h⟩) <;> cases h)
      | exact rfl
      | exact And.intro rfl rfl
      | exact fun (h : _ ∧ _) => absurd h (by decide +kernel)
      | exact fun (h : _ = _) => absurd h (by decide +kernel)
  · repeat' apply And.intro
    all_goals first
      | decide +kernel
      | (intro i h; cases h; exact ⟨_, rfl⟩)
      | (intro i h; cases h; done)
      | (intro i j h; cases h; done)
      | (intro i; rfl)
      | (rintro ⟨h, -⟩; revert h; decide +kernel)
      | (rintro ⟨-, h⟩; revert h; decide +kernel)
      | (rintro (⟨_, h⟩ | ⟨_, h⟩) <;> cases h; done)
      | (rintro _ (h | h) <;> cases h; done)
      | (rintro _ (h | h) <;> cases h <;> decide)
      | exact Or.inl (by decide +kernel)
      | exact Or.inr (by decide +kernel)
      | exact Or.inl (by rintro (⟨_, h⟩ | ⟨_, h⟩) <;> cases h)
      | exact rfl
      | exact And.intro rfl rfl
      | exact fun (h : _ ∧ _) => absurd h (by decide +kernel)
      | exact fun (h : _ = _) => absurd h (by decide +kernel)
  · repeat' apply And.intro
    all_goals first
      | decide +kernel
      | (intro i h; cases h; exact ⟨_, rfl⟩)
      | (intro i h; cases h; done)
      | (intro i j h; cases h; done)
      | (intro i; rfl)
      | (rintro ⟨h, -⟩; revert h; decide +kernel)
      | (rintro ⟨-, h⟩; revert h; decide +kernel)
      | (rintro (⟨_, h⟩ | ⟨_, h⟩) <;> cases h; done)
      | (rintro _ (h | h) <;> cases h; done)
      | (rintro _ (h | h) <;> cases h <;> decide)
      | exact Or.inl (by decide +kernel)
      | exact Or.inr (by decide +kernel)
      | exact Or.inl (by rintro (⟨_, h⟩ | ⟨_, h⟩) <;> cases h)
      | exact rfl
      | exact And.intro rfl rfl
      | exact fun (h : _ ∧ _) => absurd h (by decide +kernel)
      | exact fun (h : _ = _) => absurd h (by decide +kernel)
  · repeat' apply And.intro
    all_goals first
      | decide +kernel
      | (intro i h; cases h; exact ⟨_, rfl⟩)
      | (intro i h; cases h; done)
      | (intro i j h; cases h; done)
      | (intro i; rfl)
      | (rintro ⟨h, -⟩; revert h; decide +kernel)
      | (rintro ⟨-, h⟩; revert h; decide +kernel)
      | (rintro (⟨_, h⟩ | ⟨_, h⟩) <;> cases h; done)
      | (rintro _ (h | h) <;> cases h; done)
      | (rintro _ (h | h) <;> cases h <;> decide)
      | exact Or.inl (by decide +kernel)
      | exact Or.inr (by decide +kernel)
      | exact Or.inl (by rintro (⟨_, h⟩ | ⟨_, h⟩) <;> cases h)
      | exact rfl
      | exact And.intro rfl rfl
      | exact fun (h : _ ∧ _) => absurd h (by decide +kernel)
      | exact fun (h : _ = _) => absurd h (by decide +kernel)
  · repeat' apply And.intro
    all_goals first
      | decide +kernel
      | (intro i h; cases h; exact ⟨_, rfl⟩)
      | (intro i h; cases h; done)
      | (intro i j h; cases h; done)
      | (intro i; rfl)
      | (rintro ⟨h, -⟩; revert h; decide +kernel)
      | (rintro ⟨-, h⟩; revert h; decide +kernel)
      | (rintro (⟨_, h⟩ | ⟨_, h⟩) <;> cases h; done)
      | (rintro _ (h | h) <;> cases h; done)
      | (rintro _ (h | h) <;> cases h <;> decide)
      | exact Or.inl (by decide +kernel)
      | exact Or.inr (by decide +kernel)
      | exact Or.inl (by rintro (⟨_, h⟩ | ⟨_, h⟩) <;> cases h)
      | exact rfl
      | exact And.intro rfl rfl
      | exact fun (h : _ ∧ _) => absurd h (by decide +kernel)
      | exact fun (h : _ = _) => absurd h (by decide +kernel)
  · repeat' apply And.intro
    all_goals first
      | decide +kernel
      | (intro i h; cases h; exact ⟨_, rfl⟩)
      | (intro i h; cases h; done)
      | (intro i j h; cases h; done)
      | (intro i; rfl)
      | (rintro ⟨h, -⟩; revert h; decide +kernel)
      | (rintro ⟨-, h⟩; revert h; decide +kernel)
      | (rintro (⟨_, h⟩ | ⟨_, h⟩) <;> cases h; done)
      | (rintro _ (h | h) <;> cases h; done)
      | (rintro _ (h | h) <;> cases h <;> decide)
      | exact Or.inl (by decide +kernel)
      | exact Or.inr (by decide +kernel)
      | exact Or.inl (by rintro (⟨_, h⟩ | ⟨_, h⟩) <;> cases h)
      | exact rfl
      | exact And.intro rfl rfl
      | exact fun (h : _ ∧ _) => absurd h (by decide +kernel)
      | exact fun (h : _ = _) => absurd h (by decide +kernel)
  · repeat' apply And.intro
    all_goals first
      | decide +kernel
      | (intro i h; cases h; exact ⟨_, rfl⟩)
      | (intro i h; cases h; done)
      | (intro i j h; cases h; done)
      | (intro i; rfl)
      | (rintro ⟨h, -⟩; revert h; decide +kernel)
      | (rintro ⟨-, h⟩; revert h; decide +kernel)
      | (rintro (⟨_, h⟩ | ⟨_, h⟩) <;> cases h; done)
      | (rintro _ (h | h) <;> cases h; done)
      | (rintro _ (h | h) <;> cases h <;> decide)
      | exact Or.inl (by decide +kernel)
      | exact Or.inr (by decide +kernel)
      | exact Or.inl (by rintro (⟨_, h⟩ | ⟨_, h⟩) <;> cases h)
      | exact rfl
      | exact And.intro rfl rfl
      | exact fun (h : _ ∧ _) => absurd h (by decide +kernel)
      | exact fun (h : _ = _) => absurd h (by decide +kernel)
  · repeat' apply And.intro
    all_goals first
      | decide +kernel
      | (intro i h; cases h; exact ⟨_, rfl⟩)
      | (intro i h; cases h; done)
      | (intro i j h; cases h; done)
      | (intro i; rfl)
      | (rintro ⟨h, -⟩; revert h; decide +kernel)
      | (rintro ⟨-, h⟩; revert h; decide +kernel)
      | (rintro (⟨_, h⟩ | ⟨_, h⟩) <;> cases h; done)
      | (rintro _ (h | h) <;> cases h; done)
      | (rintro _ (h | h) <;> cases h <;> decide)
      | exact Or.inl (by decide +kernel)
      | exact Or.inr (by decide +kernel)
      | exact Or.inl (by rintro (⟨_, h⟩ | ⟨_, h⟩) <;> cases h)
      | exact rfl
      | exact And.intro rfl rfl
      | exact fun (h : _ ∧ _) => absurd h (by decide +kernel)
      | exact fun (h : _ = _) => absurd h (by decide +kernel)
  · decide +kernel
  · decide +kernel
  · decide +kernel
  · decide +kernel
  · decide +kernel
  · repeat' apply And.intro
    all_goals first
      | decide +kernel
      | (intro i h; cases h; exact ⟨_, rfl⟩)
      | (intro i h; cases h; done)
      | (intro i j h; cases h; done)
      | (intro i; rfl)
      | (rintro ⟨h, -⟩; revert h; decide +kernel)
      | (rintro ⟨-, h⟩; revert h; decide +kernel)
      | (rintro (⟨_, h⟩ | ⟨_, h⟩) <;> cases h; done)
      | (rintro _ (h | h) <;> cases h; done)
      | (rintro _ (h | h) <;> cases h <;> decide)
      | exact Or.inl (by decide +kernel)
      | exact Or.inr (by decide +kernel)
      | exact Or.inl (by rintro (⟨_, h⟩ | ⟨_, h⟩) <;> cases h)
      | exact rfl
      | exact And.intro rfl rfl
      | exact fun (h : _ ∧ _) => absurd h (by decide +kernel)
      | exact fun (h : _ = _) => absurd h (by decide +kernel)
  · repeat' apply And.intro
    all_goals first
      | decide +kernel
      | (intro i h; cases h; exact ⟨_, rfl⟩)
      | (intro i h; cases h; done)
      | (intro i j h; cases h; done)
      | (intro i; rfl)
      | (rintro ⟨h, -⟩; revert h; decide +kernel)
      | (rintro ⟨-, h⟩; revert h; decide +kernel)
      | (rintro (⟨_, h⟩ | ⟨_, h⟩) <;> cases h; done)
      | (rintro _ (h | h) <;> cases h; done)
      | (rintro _ (h | h) <;> cases h <;> decide)
      | exact Or.inl (by decide +kernel)
      | exact Or.inr (by decide +kernel)
      | exact Or.inl (by rintro (⟨_, h⟩ | ⟨_, h⟩) <;> cases h)
      | exact rfl
      | exact And.intro rfl rfl
      | exact fun (h : _ ∧ _) => absurd h (by decide +kernel)
      | exact fun (h : _ = _) => absurd h (by decide +kernel)
  · repeat' apply And.intro
    all_goals first
      | decide +kernel
      | (intro i h; cases h; exact ⟨_, rfl⟩)
      | (intro i h; cases h; done)
      | (intro i j h; cases h; done)
      | (intro i; rfl)
      | (rintro ⟨h, -⟩; revert h; decide +kernel)
      | (rintro ⟨-, h⟩; revert h; decide +kernel)
      | (rintro (⟨_, h⟩ | ⟨_, h⟩) <;> cases h; done)
      | (rintro _ (h | h) <;> cases h; done)
      | (rintro _ (h | h) <;> cases h <;> decide)
      | exact Or.inl (by decide +kernel)
      | exact Or.inr (by decide +kernel)
      | exact Or.inl (by rintro (⟨_, h⟩ | ⟨_, h⟩) <;> cases h)
      | exact rfl
      | exact And.intro rfl rfl
      | exact fun (h : _ ∧ _) => absurd h (by decide +kernel)
      | exact fun (h : _ = _) => absurd h (by decide +kernel)
  · decide +kernel
  · decide +kernel
  · decide +kernel

theorem witness_RoseMerging :
  (let s : State := roseBase State.reset
   let g : Nat := 1
   let q : Nat := 16
   let c := s.chip
   let gr := c.grp g
   let act := gr.valid = true ∧ gr.running = true
   s.chip.live = true ∧ q < 8192 ∧ ¬ act) ∧
  (let s : State := roseBase State.reset |> onLq 8 (fun x => { x with s := 1000 }) |> onLq 9 (fun x => { x with s := 2000 }) |> atTick 1329
   let g : Nat := 0
   let q : Nat := 8
   let c := s.chip
   let gr := c.grp g
   let act := gr.valid = true ∧ gr.running = true
   s.chip.live = true ∧ q < 8192 ∧ act ∧ gr.stopAt = none ∧ (∀ q ∈ c.members g, gr.lim ≤ c.streamS q)) ∧
  (let s : State := roseBase State.reset |> onGroup 0 (fun x => { x with stopAt := some 95 }) |> onLq 8 (fun x => { x with s := 1000 })
    |> onLq 9 (fun x => { x with s := 2000 }) |> atTick 1120
   let g : Nat := 0
   let q : Nat := 9
   let n : Nat := 95
   let c := s.chip
   let gr := c.grp g
   let act := gr.valid = true ∧ gr.running = true
   s.chip.live = true ∧ q < 8192 ∧ act ∧ gr.stopAt = some n ∧ (∀ q ∈ c.members g, gr.lim ≤ c.streamS q)) ∧
  (let s : State := roseBase State.reset |> slotF F.PRT_SLOT_STATE 1 4
   let g : Nat := 0
   let q : Nat := 8
   let c := s.chip
   let gr := c.grp g
   let act := gr.valid = true ∧ gr.running = true
   s.chip.live = true ∧ q < 8192 ∧ act ∧ q ∈ c.members g ∧ c.streamS q < gr.lim ∧ (c.lq q).absent = false ∧ c.sg F.PRT_SLOT_STATE (q / 8) ∈ [4, 6] ∧
     c.kcount < gr.lim + 256 * gr.absentTo) ∧
  (let s : State := roseBase State.reset
   let g : Nat := 0
   let q : Nat := 8
   let c := s.chip
   let gr := c.grp g
   let act := gr.valid = true ∧ gr.running = true
   let lag := c.groupOf q = some g ∧ act ∧ c.streamS q < gr.lim ∧ gr.lim + 256 * gr.absentTo ≤ c.kcount
   s.chip.live = true ∧ q < 8192 ∧ ¬ lag ∧ c.groupOf q = some g) ∧
  (let s : State := roseBase State.reset
   let q : Nat := 16
   let c := s.chip
   s.chip.live = true ∧ q < 8192 ∧ c.groupOf q = none) ∧
  (let s : State := roseBase State.reset |> onLq 8 (fun x => { x with absent := true }) |> atTick 640100
   let g : Nat := 0
   let q : Nat := 8
   let c := s.chip
   let gr := c.grp g
   let act := gr.valid = true ∧ gr.running = true
   let lag := c.groupOf q = some g ∧ act ∧ c.streamS q < gr.lim ∧ gr.lim + 256 * gr.absentTo ≤ c.kcount
   s.chip.live = true ∧ q < 8192 ∧ lag ∧ (c.lq q).absent = true) ∧
  (let s : State := roseBase State.reset |> atTick 1120
   let g : Nat := 0
   let q : Nat := 9
   let c := s.chip
   let gr := c.grp g
   let act := gr.valid = true ∧ gr.running = true
   let lag := c.groupOf q = some g ∧ act ∧ c.streamS q < gr.lim ∧ gr.lim + 256 * gr.absentTo ≤ c.kcount
   s.chip.live = true ∧ q < 8192 ∧ lag ∧ (c.lq q).absent = false) ∧
  (let s : State := roseBase State.reset |> onEng 1 (fun x => { x with used := false })
   let q : Nat := 16
   let e : Nat := 1
   let c := s.chip
   let x := c.engOf e
   let stalled := x.level = 2 ∧ ∃ p ∈ (c.chainOf x.group).getLast?, (c.wpage p).open_ = true ∧ p % 8 ∈ c.wake.noAlloc
   let idle := x.used = false ∨ x.out ≠ none ∨ (c.grp x.group).close ≤ x.bucket ∨ stalled
   s.chip.live = true ∧ q < 8192 ∧ idle) ∧
  (let s : State := roseBase State.reset |> onEng 0 (fun x => { x with input := 16, n := 5, late := 3, absent := 2, emits := 1000 })
   let q : Nat := 8
   let e : Nat := 0
   let c := s.chip
   let x := c.engOf e
   let emits := x.used = true ∧ x.out = none ∧ x.bucket < (c.grp x.group).close ∧ x.level ≠ 2 ∧ c.rose.mig = none
   s.chip.live = true ∧ q < 8192 ∧ emits ∧ 16 ≤ x.input) ∧
  (let s : State := roseBase State.reset |> onLq 8 (fun x => { x with late := [.hit false 5 6, .hit true 6 7] })
   let q : Nat := 9
   let e : Nat := 0
   let w : Nat := 2
   let el : QElem := QElem.hit false 5 0x000000000000006#60
   let l : List QElem := [QElem.hit true 6 0x000000000000007#60]
   let c := s.chip
   let x := c.engOf e
   let emits := x.used = true ∧ x.out = none ∧ x.bucket < (c.grp x.group).close ∧ x.level ≠ 2 ∧ c.rose.mig = none
   s.chip.live = true ∧ q < 8192 ∧ emits ∧ x.input < 16 ∧ x.inputs.getD x.input noInput = w ∧ w < 0x8000 ∧ w ≠ noInput ∧
     (c.lq (streamQueue w)).flushing = false ∧ x.inList = false ∧ (c.lq (streamQueue w)).late = el :: l) ∧
  (let s : State := roseBase State.reset |> onLq 8 (fun x => { x with buckets := [(3, [.hit false 5 6])] })
   let q : Nat := 8
   let e : Nat := 0
   let w : Nat := 2
   let el : QElem := QElem.hit false 5 0x000000000000006#60
   let l : List QElem := []
   let c := s.chip
   let x := c.engOf e
   let emits := x.used = true ∧ x.out = none ∧ x.bucket < (c.grp x.group).close ∧ x.level ≠ 2 ∧ c.rose.mig = none
   s.chip.live = true ∧ q < 8192 ∧ emits ∧ x.input < 16 ∧ x.inputs.getD x.input noInput = w ∧ w < 0x8000 ∧ w ≠ noInput ∧
     (c.lq (streamQueue w)).flushing = false ∧ (x.inList = true ∨ (c.lq (streamQueue w)).late = []) ∧
     AMap.get (always []) (c.lq (streamQueue w)).buckets x.bucket = el :: l) ∧
  (let s : State := roseBase State.reset |> onEng 0 (fun x => { x with out := some (.sight 1 true 5 6) }) |> onEng 2 (fun x => { x with level := 1 })
   let q : Nat := 9
   let e : Nat := 2
   let w : Nat := 32768
   let oe : OutElem := OutElem.sight 1 true 5 0x0000000000000006#64
   let c := s.chip
   let x := c.engOf e
   let inner := x.used = true ∧ x.out = none ∧ x.bucket < (c.grp x.group).close ∧ c.rose.mig = none ∧ x.input < 16 ∧
         x.inputs.getD x.input noInput = w ∧ w ≠ noInput ∧ 0x8000 ≤ w ∧ (c.engOf (w % 256)).out = some oe ∧ oe.stream ≠ none ∧ w % 256 ≠ e
   s.chip.live = true ∧ q < 8192 ∧ inner ∧ x.level ≠ 2) ∧
  (let s : State := roseBase State.reset |> onEng 0 (fun x => { x with out := some (.hit 1 false true 5 6) })
   let q : Nat := 16
   let e : Nat := 2
   let w : Nat := 32768
   let oe : OutElem := OutElem.hit 1 false true 5 0x000000000000006#60
   let c := s.chip
   let x := c.engOf e
   let stalled := x.level = 2 ∧ ∃ p ∈ (c.chainOf x.group).getLast?, (c.wpage p).open_ = true ∧ p % 8 ∈ c.wake.noAlloc
   let inner := x.used = true ∧ x.out = none ∧ x.bucket < (c.grp x.group).close ∧ c.rose.mig = none ∧ x.input < 16 ∧
         x.inputs.getD x.input noInput = w ∧ w ≠ noInput ∧ 0x8000 ≤ w ∧ (c.engOf (w % 256)).out = some oe ∧ oe.stream ≠ none ∧ w % 256 ≠ e
   s.chip.live = true ∧ q < 8192 ∧ inner ∧ x.level = 2 ∧ ¬ stalled) ∧
  (let s : State := roseBase State.reset
   let q : Nat := 8
   let c := s.chip
   s.chip.live = true ∧ q < 8192 ∧ c.tick < c.rose.rateFrom + 640000) ∧
  (let s : State := roseBase State.reset |> atTick 640099
   let q : Nat := 16
   let c := s.chip
   s.chip.live = true ∧ q < 8192 ∧ c.rose.rateFrom + 640000 ≤ c.tick ∧ c.groupOf q = none) ∧
  (let s : State := roseBase State.reset |> mgrFld F.MGT_ROLE_ROLE 2
   let q : Nat := 8
   let e : Nat := 1
   let tgt : Nat := 3
   let v : Word := 0xffffffff#32
   let c := s.chip
   let x := c.engOf e
   let at_ := 8 * F.RSE_MIG_SLOT.of v + F.RSE_MIG_CLS.of v
   let tg := c.engOf tgt
   let barred := c.leafOf at_ = none ∨ c.rose.mig ≠ none ∨ (c.leafOf at_ = some e ∧ F.RSE_MIG_TARGET.of v = tgt ∧
         (tgt = e ∨ 224 ≤ tgt ∨ tgt < limEngFirst c.work ∨ (tg.used = true ∧
           (tg.group ≠ x.group ∨ tg.level ≠ 0 ∨ tg.addInput (streamWord at_) = none)) ∨
           (tg.used = false ∧ (c.engOf x.parent).addInput (0x8000 + tgt) = none)))
   s.chip.live = true ∧ q < 8192 ∧ c.role = .installer ∧ barred) ∧
  (let s : State := roseBase State.reset |> mgrFld F.MGT_ROLE_ROLE 2
   let q : Nat := 9
   let e : Nat := 0
   let tgt : Nat := 1
   let parent : Nat := 2
   let v : Word := 0x80002001#32
   let t1 : Eng := { used := true, group := 0, level := 0, parent := 2, inputs := [2, 65535, 65535, 65535, 65535, 65535, 65535, 65535, 65535, 65535, 65535, 65535, 65535, 65535, 65535, 65535], bucket := 4, input := 0, inList := false, out := none, n := 0, late := 0, absent := 0, emits := 0 }
   let c := s.chip
   let x := c.engOf e
   let at_ := 8 * F.RSE_MIG_SLOT.of v + F.RSE_MIG_CLS.of v
   let tg := c.engOf tgt
   let may := c.role = .installer ∧ c.rose.mig = none ∧ c.leafOf at_ = some e ∧ F.RSE_MIG_TARGET.of v = tgt ∧ tgt ≠ e ∧ tgt < 224 ∧
     limEngFirst c.work ≤ tgt
   let joins := may ∧ tg.used = true ∧ tg.group = x.group ∧ tg.level = 0 ∧ tg.addInput (streamWord at_) = some t1 ∧
         (c.pathUp 4 e).find? (fun f => (c.pathUp 4 tgt).contains f) = some parent
   s.chip.live = true ∧ q < 8192 ∧ joins) ∧
  (let s : State := roseBase State.reset |> mgrFld F.MGT_ROLE_ROLE 2
   let q : Nat := 0
   let e : Nat := 0
   let tgt : Nat := 3
   let v : Word := 0x80002003#32
   let t1 : Eng := { used := true, group := 0, level := 0, parent := 2, inputs := [2, 65535, 65535, 65535, 65535, 65535, 65535, 65535, 65535, 65535, 65535, 65535, 65535, 65535, 65535, 65535], bucket := 3, input := 0, inList := false, out := none, n := 0, late := 0, absent := 0, emits := 0 }
   let p1 : Eng := { used := true, group := 0, level := 2, parent := 255, inputs := [32768, 32769, 32771, 65535, 65535, 65535, 65535, 65535, 65535, 65535, 65535, 65535, 65535, 65535, 65535, 65535], bucket := 2, input := 0, inList := false, out := none, n := 0, late := 0, absent := 0, emits := 0 }
   let c := s.chip
   let x := c.engOf e
   let at_ := 8 * F.RSE_MIG_SLOT.of v + F.RSE_MIG_CLS.of v
   let tg := c.engOf tgt
   let fresh : Eng := ⟨true, x.group, 0, x.parent, freeInputs, x.bucket, 0, false, none, 0, 0, 0, 0⟩
   let may := c.role = .installer ∧ c.rose.mig = none ∧ c.leafOf at_ = some e ∧ F.RSE_MIG_TARGET.of v = tgt ∧ tgt ≠ e ∧ tgt < 224 ∧
     limEngFirst c.work ≤ tgt
   let opens := may ∧ tg.used = false ∧ (c.engOf x.parent).addInput (0x8000 + tgt) = some p1 ∧ fresh.addInput (streamWord at_) = some t1
   s.chip.live = true ∧ q < 8192 ∧ opens) ∧
  (let s : State := roseBase State.reset
   let q : Nat := 8
   let c := s.chip
   s.chip.live = true ∧ q < 8192 ∧ ((∀ m, c.rose.mig = some m → m.expired = true ∨ c.tick < m.since + 640 * max 1 (c.g F.RSE_CTL_MIG_TO)))) := by
  refine ⟨?_, ?_, ?_, ?_, ?_, ?_, ?_, ?_, ?_, ?_, ?_, ?_, ?_, ?_, ?_, ?_, ?_, ?_, ?_, ?_⟩ <;>
    decide +kernel

theorem witness_MarkRules :
  (let s : State := pairF F.PRT_LOOP_CFG_CFG 0 1 (pairF F.PRT_LOOP_CFG_N_EVEN 0 3 State.reset)
   let mask : Nat := 15
   let rule : Nat := 0
   let c := s.chip
   let r := c.rose
   s.chip.live = true ∧ mask < 16 ∧ rule < 256 ∧ r.sights = []) ∧
  (let s : State := pairF F.PRT_LOOP_CFG_CFG 0 1 (pairF F.PRT_LOOP_CFG_N_EVEN 0 3 State.reset)
   let mask : Nat := 8
   let rule : Nat := 0
   let c := s.chip
   s.chip.live = true ∧ mask < 16 ∧ rule < 256 ∧ c.run = false) ∧
  (let s : State := pairF F.PRT_LOOP_CFG_CFG 0 1 (pairF F.PRT_LOOP_CFG_N_EVEN 0 3 State.reset) |> mgrFld F.GBL_CTL_RUN_EN 1
   let mask : Nat := 11
   let rule : Nat := 0
   let c := s.chip
   s.chip.live = true ∧ mask < 16 ∧ rule < 256 ∧ c.run = true) ∧
  (let s : State := pairF F.PRT_LOOP_CFG_CFG 0 1 (pairF F.PRT_LOOP_CFG_N_EVEN 0 3 State.reset) |> mgrFld F.GBL_CTL_RUN_EN 1
    |> onRose (fun r => { r with sights := sights1 }) |> onRose (fun r => { r with rules := [(0, ⟨some 50, 7, 8⟩)] }) |> mgrFld F.RSE_RULE_EN_EN 1
    |> setWork (ruleImgD 100 3)
   let mask : Nat := 7
   let rule : Nat := 0
   let o : Nat := 32
   let m : AMap (List (Nat × Nat)) := [(0, [(0, 2)]), (1, [(0, 3)])]
   let c := s.chip
   let added := (c.rose.sights.map (fun x => c.sightSets x.1 x.2)).flatMap (·.1)
   let counts := fun (d : Chip) (k : Nat) => AMap.get (always []) d.rose.counts k
   let r := c.rose
   let bump := fun (k : Nat) => (counts c k).filter (fun x => c.tick ≤ x.1 + c.setW k) ++ [(c.tick, (added.filter (· = k)).length)]
   let counted := fun (k : Nat) => if k ∈ added then bump k else counts c k
   let c1 : Chip := { c with rose := { r with sights := [], counts := m } }
   let own := ((c.terms rule o).filter (fun t => t.2.1 ≠ 3)).map (fun t => t.2.2.1)
   let becomes := mrRule c.work rule = some o ∧ c.ruleOn rule = true ∧ (∃ k ∈ added, k ∈ own) ∧ (∀ k, AMap.get (always []) m k = counted k) ∧
         c1.ruleCond rule o c.tick = true ∧ c.ruleCond rule o (c.tick - 1) = false
   let x := c.ruleSt rule
   let dead := ∃ t, x.lastMark = some t ∧ c.tick ≤ t + chartF c.work secMarkRules (o + 4) 2
   s.chip.live = true ∧ mask < 16 ∧ rule < 256 ∧ c.run = true ∧ becomes ∧ dead) ∧
  (let s : State := pairF F.PRT_LOOP_CFG_CFG 0 1 (pairF F.PRT_LOOP_CFG_N_EVEN 0 3 State.reset) |> mgrFld F.GBL_CTL_RUN_EN 1
    |> onRose (fun r => { r with sights := sights1.take 1 }) |> mgrFld F.RSE_RULE_EN_EN 1 |> setWork (ruleImgD 3 2)
   let mask : Nat := 7
   let rule : Nat := 0
   let o : Nat := 32
   let m : AMap (List (Nat × Nat)) := [(0, [(0, 1)]), (1, [(0, 2)])]
   let c := s.chip
   let added := (c.rose.sights.map (fun x => c.sightSets x.1 x.2)).flatMap (·.1)
   let counts := fun (d : Chip) (k : Nat) => AMap.get (always []) d.rose.counts k
   let r := c.rose
   let bump := fun (k : Nat) => (counts c k).filter (fun x => c.tick ≤ x.1 + c.setW k) ++ [(c.tick, (added.filter (· = k)).length)]
   let counted := fun (k : Nat) => if k ∈ added then bump k else counts c k
   let c1 : Chip := { c with rose := { r with sights := [], counts := m } }
   let own := ((c.terms rule o).filter (fun t => t.2.1 ≠ 3)).map (fun t => t.2.2.1)
   let becomes := mrRule c.work rule = some o ∧ c.ruleOn rule = true ∧ (∃ k ∈ added, k ∈ own) ∧ (∀ k, AMap.get (always []) m k = counted k) ∧
         c1.ruleCond rule o c.tick = true ∧ c.ruleCond rule o (c.tick - 1) = false
   let x := c.ruleSt rule
   let dead := ∃ t, x.lastMark = some t ∧ c.tick ≤ t + chartF c.work secMarkRules (o + 4) 2
   let scale := chartF c.work secMarkRules (o + 6) 2
   let fires := (x.fires + 1) % 2 ^ 32
   let skips := 1 < scale ∧ fires % scale ≠ 0
   s.chip.live = true ∧ mask < 16 ∧ rule < 256 ∧ c.run = true ∧ becomes ∧ ¬ dead ∧ skips) ∧
  (let s : State := pairF F.PRT_LOOP_CFG_CFG 0 1 (pairF F.PRT_LOOP_CFG_N_EVEN 0 3 State.reset) |> mgrFld F.GBL_CTL_RUN_EN 1
    |> onRose (fun r => { r with sights := sights1 }) |> mgrFld F.RSE_RULE_EN_EN 1 |> setWork (ruleImgD 20 0)
   let mask : Nat := 8
   let rule : Nat := 0
   let o : Nat := 32
   let m : AMap (List (Nat × Nat)) := [(0, [(0, 2)]), (1, [(0, 3)])]
   let c := s.chip
   let added := (c.rose.sights.map (fun x => c.sightSets x.1 x.2)).flatMap (·.1)
   let counts := fun (d : Chip) (k : Nat) => AMap.get (always []) d.rose.counts k
   let r := c.rose
   let bump := fun (k : Nat) => (counts c k).filter (fun x => c.tick ≤ x.1 + c.setW k) ++ [(c.tick, (added.filter (· = k)).length)]
   let counted := fun (k : Nat) => if k ∈ added then bump k else counts c k
   let c1 : Chip := { c with rose := { r with sights := [], counts := m } }
   let own := ((c.terms rule o).filter (fun t => t.2.1 ≠ 3)).map (fun t => t.2.2.1)
   let becomes := mrRule c.work rule = some o ∧ c.ruleOn rule = true ∧ (∃ k ∈ added, k ∈ own) ∧ (∀ k, AMap.get (always []) m k = counted k) ∧
         c1.ruleCond rule o c.tick = true ∧ c.ruleCond rule o (c.tick - 1) = false
   let x := c.ruleSt rule
   let dead := ∃ t, x.lastMark = some t ∧ c.tick ≤ t + chartF c.work secMarkRules (o + 4) 2
   let scale := chartF c.work secMarkRules (o + 6) 2
   let fires := (x.fires + 1) % 2 ^ 32
   let skips := 1 < scale ∧ fires % scale ≠ 0
   s.chip.live = true ∧ mask < 16 ∧ rule < 256 ∧ c.run = true ∧ becomes ∧ ¬ dead ∧ ¬ skips) ∧
  (let s : State := pairF F.PRT_LOOP_CFG_CFG 0 1 (pairF F.PRT_LOOP_CFG_N_EVEN 0 3 State.reset) |> mgrFld F.MGT_ROLE_ROLE 2
   let mask : Nat := 14
   let rule : Nat := 0
   let c := s.chip
   s.chip.live = true ∧ mask < 16 ∧ rule < 256 ∧ c.role = .installer) := by
  refine ⟨?_, ?_, ?_, ?_, ?_, ?_, ?_⟩
  · decide +kernel
  · decide +kernel
  · decide +kernel
  · refine ⟨by decide +kernel, by decide +kernel, by decide +kernel, by decide +kernel,
      ⟨by decide +kernel, by decide +kernel, by decide +kernel, counts_everywhere _ _ _ _ (by decide +kernel), by decide +kernel, by decide +kernel⟩, ⟨_, rfl, by decide +kernel⟩⟩
  · refine ⟨by decide +kernel, by decide +kernel, by decide +kernel, by decide +kernel,
      ⟨by decide +kernel, by decide +kernel, by decide +kernel, counts_everywhere _ _ _ _ (by decide +kernel), by decide +kernel, by decide +kernel⟩, ?_, by decide +kernel⟩
    rintro ⟨t, h, -⟩; cases h
  · refine ⟨by decide +kernel, by decide +kernel, by decide +kernel, by decide +kernel,
      ⟨by decide +kernel, by decide +kernel, by decide +kernel, counts_everywhere _ _ _ _ (by decide +kernel), by decide +kernel, by decide +kernel⟩, ?_, by decide +kernel⟩
    rintro ⟨t, h, -⟩; cases h
  · decide +kernel

theorem witness_MarksAndWindows :
  (let s : State := State.reset
   let line : Nat := 1
   let age : Nat := 800
   let rising : Bool := true
   let c := s.chip
   let f := fun (x : Fld) => c.g (x.ix 16 line)
   let t := c.fine - age
   let last := fun (d : Chip) (i : Nat) => AMap.get (always none) d.wake.lastIn i
   let soon := ∃ l, last c line = some l ∧ l ≤ t ∧ t ≤ l + 800 * f F.WKE_MIN0_MIN_GAP
   let wrong := rising = c.b (F.WKE_MIN0_NEG.ix 16 line)
   let takes := ¬ wrong ∧ ¬ soon ∧ c.run = true ∧ c.b (F.WKE_MIN0_EN.ix 16 line) = true
   s.chip.live = true ∧ line < 4 ∧ ¬ takes) ∧
  (let s : State := State.reset |> mgrFld F.GBL_CTL_RUN_EN 1 |> mgrFld (F.WKE_MIN0_EN.ix 16 1) 1
   let line : Nat := 1
   let age : Nat := 800
   let rising : Bool := true
   let c := s.chip
   let f := fun (x : Fld) => c.g (x.ix 16 line)
   let t := c.fine - age
   let last := fun (d : Chip) (i : Nat) => AMap.get (always none) d.wake.lastIn i
   let soon := ∃ l, last c line = some l ∧ l ≤ t ∧ t ≤ l + 800 * f F.WKE_MIN0_MIN_GAP
   let wrong := rising = c.b (F.WKE_MIN0_NEG.ix 16 line)
   let m : Mark := ⟨none, 2 * ((t : Int) - signedOf 16 (f F.WKE_MIN0_IN_DLY)).toNat, f F.WKE_MIN1_PRE, f F.WKE_MIN2_POST, f F.WKE_MIN3_GROUPS⟩
   let takes := ¬ wrong ∧ ¬ soon ∧ c.run = true ∧ c.b (F.WKE_MIN0_EN.ix 16 line) = true
   s.chip.live = true ∧ line < 4 ∧ takes ∧ (f F.WKE_MIN0_PEER = 0 ∨ c.hier ≠ 1) ∧ c.markGroups m.groups = []) ∧
  (let s : State := State.reset |> mgrFld F.GBL_CTL_RUN_EN 1 |> mgrFld (F.WKE_MIN0_EN.ix 16 1) 1 |> mgrFld (F.WKE_MIN3_GROUPS.ix 16 1) 1
   
      |> onGroup 0 (fun _ => { Group.init with valid := true, marked := true, orderLog := 4, root := 2, streams := 2, settle := 1, absentTo := 3, quietLag := 1, close := 5, running := true })
   let line : Nat := 1
   let age : Nat := 0
   let g : Nat := 0
   let rising : Bool := true
   let c := s.chip
   let f := fun (x : Fld) => c.g (x.ix 16 line)
   let t := c.fine - age
   let last := fun (d : Chip) (i : Nat) => AMap.get (always none) d.wake.lastIn i
   let soon := ∃ l, last c line = some l ∧ l ≤ t ∧ t ≤ l + 800 * f F.WKE_MIN0_MIN_GAP
   let wrong := rising = c.b (F.WKE_MIN0_NEG.ix 16 line)
   let m : Mark := ⟨none, 2 * ((t : Int) - signedOf 16 (f F.WKE_MIN0_IN_DLY)).toNat, f F.WKE_MIN1_PRE, f F.WKE_MIN2_POST, f F.WKE_MIN3_GROUPS⟩
   let takes := ¬ wrong ∧ ¬ soon ∧ c.run = true ∧ c.b (F.WKE_MIN0_EN.ix 16 line) = true
   let alone := c.windows = [] ∧ c.wake.windows.length < 4096 ∧ AMap.get (always none) c.wake.lastDone g = none ∧
     (∀ k, k < 1024 → c.sg F.PRT_SLOT_STATE k ≠ 4)
   s.chip.live = true ∧ line < 4 ∧ takes ∧ (f F.WKE_MIN0_PEER = 0 ∨ c.hier ≠ 1) ∧ c.markGroups m.groups = [g] ∧ alone) ∧
  (let s : State := State.reset |> mgrFld F.GBL_CTL_RUN_EN 1 |> mgrFld (F.WKE_MIN0_EN.ix 16 1) 1 |> mgrFld F.MER_CTL_ROLE 1
    |> mgrFld (F.WKE_MIN0_PEER.ix 16 1) 1
   let line : Nat := 1
   let age : Nat := 900
   let rising : Bool := true
   let c := s.chip
   let f := fun (x : Fld) => c.g (x.ix 16 line)
   let t := c.fine - age
   let last := fun (d : Chip) (i : Nat) => AMap.get (always none) d.wake.lastIn i
   let soon := ∃ l, last c line = some l ∧ l ≤ t ∧ t ≤ l + 800 * f F.WKE_MIN0_MIN_GAP
   let wrong := rising = c.b (F.WKE_MIN0_NEG.ix 16 line)
   let m : Mark := ⟨none, 2 * ((t : Int) - signedOf 16 (f F.WKE_MIN0_IN_DLY)).toNat, f F.WKE_MIN1_PRE, f F.WKE_MIN2_POST, f F.WKE_MIN3_GROUPS⟩
   let takes := ¬ wrong ∧ ¬ soon ∧ c.run = true ∧ c.b (F.WKE_MIN0_EN.ix 16 line) = true
   s.chip.live = true ∧ line < 4 ∧ takes ∧ f F.WKE_MIN0_PEER = 1 ∧ c.hier = 1 ∧ c.markGroups m.groups = []) ∧
  (let s : State := State.reset |> mgrFld F.WKE_DM_SEC_LO_SEC 77 |> mgrFld F.MGT_ROLE_ROLE 2
   let line : Nat := 1
   let c := s.chip
   let dm : Mark := ⟨none, timeOf (c.g F.WKE_DM_SEC_HI_SEC * 2 ^ 32 + c.g F.WKE_DM_SEC_LO_SEC) (c.g F.WKE_DM_NS_NS) 0, c.g F.WKE_DM_PRE_PRE,
         c.g F.WKE_DM_POST_POST, c.g F.WKE_DM_GROUPS_GROUPS⟩
   let may := c.role = .operator ∨ c.role = .installer
   s.chip.live = true ∧ line < 4 ∧ may ∧ c.kcount + 640000000 < dm.count) ∧
  (let s : State := State.reset |> mgrFld F.MGT_ROLE_ROLE 1
   let line : Nat := 1
   let v : Word := 0x80000009#32
   let c := s.chip
   let dm : Mark := ⟨none, timeOf (c.g F.WKE_DM_SEC_HI_SEC * 2 ^ 32 + c.g F.WKE_DM_SEC_LO_SEC) (c.g F.WKE_DM_NS_NS) 0, c.g F.WKE_DM_PRE_PRE,
         c.g F.WKE_DM_POST_POST, c.g F.WKE_DM_GROUPS_GROUPS⟩
   let may := c.role = .operator ∨ c.role = .installer
   s.chip.live = true ∧ line < 4 ∧ may ∧ dm.count ≤ c.kcount + 640000000 ∧ c.markGroups dm.groups = [] ∧ F.WKE_DM_CTL_PEER.of v = 0) ∧
  (let s : State := State.reset |> mgrFld F.MGT_ROLE_ROLE 2 |> mgrFld F.MER_CTL_ROLE 1
   let line : Nat := 1
   let v : Word := 0x40000000#32
   let c := s.chip
   let dm : Mark := ⟨none, timeOf (c.g F.WKE_DM_SEC_HI_SEC * 2 ^ 32 + c.g F.WKE_DM_SEC_LO_SEC) (c.g F.WKE_DM_NS_NS) 0, c.g F.WKE_DM_PRE_PRE,
         c.g F.WKE_DM_POST_POST, c.g F.WKE_DM_GROUPS_GROUPS⟩
   let may := c.role = .operator ∨ c.role = .installer
   s.chip.live = true ∧ line < 4 ∧ may ∧ dm.count ≤ c.kcount + 640000000 ∧ c.markGroups dm.groups = [] ∧ F.WKE_DM_CTL_PEER.of v = 1 ∧ c.hier = 1) ∧
  (let s : State := State.reset |> mgrFld F.WKE_DM_GROUPS_GROUPS 1 |> mgrFld F.MGT_ROLE_ROLE 1
   
      |> onGroup 0 (fun _ => { Group.init with valid := true, marked := true, orderLog := 4, root := 2, streams := 2, settle := 1, absentTo := 3, quietLag := 1, close := 5, running := true })
   let line : Nat := 1
   let g : Nat := 0
   let v : Word := 0x00000000#32
   let c := s.chip
   let dm : Mark := ⟨none, timeOf (c.g F.WKE_DM_SEC_HI_SEC * 2 ^ 32 + c.g F.WKE_DM_SEC_LO_SEC) (c.g F.WKE_DM_NS_NS) 0, c.g F.WKE_DM_PRE_PRE,
         c.g F.WKE_DM_POST_POST, c.g F.WKE_DM_GROUPS_GROUPS⟩
   let may := c.role = .operator ∨ c.role = .installer
   s.chip.live = true ∧ line < 4 ∧ may ∧ dm.count ≤ c.kcount + 640000000 ∧ c.markGroups dm.groups = [g] ∧ dm.hi < c.oldestOf g ∧
     F.WKE_DM_CTL_PEER.of v = 0) ∧
  (let s : State := State.reset
   let line : Nat := 1
   let c := s.chip
   s.chip.live = true ∧ line < 4 ∧ c.takePeer (fun b => b.is .mark) = none) ∧
  (let s : State := State.reset |> onChip (fun c => c.modMer fun m => { m with peerIn := [mkPeerMark 5 77 9 9 3 4, dataB 4] })
   let line : Nat := 1
   let b : Block := { hdr := 0x2#2, pay := 0x4b802802680000012048000c0008a9#120 }
   let c1 : Chip := (((s.chip.takePeer (fun b => b.is .mark)).toList.map (·.2) ++ (if s.chip.mer.peerIn = [] then [s.chip] else []))[0]?).getD s.chip
   let c := s.chip
   s.chip.live = true ∧ line < 4 ∧ c.takePeer (fun b => b.is .mark) = some (b, c1) ∧ (c.hier < 2 ∨ c.up c.peerUse = false)) ∧
  (let s : State := State.reset
   
      |> (fun s => upMgr 128 (mgrFld F.MER_CTL_ROLE 2 (setWork (image (loops [0, 1] ++ [(6, 4, 4, 1)])) (onChip (fun c => c.modMer fun m => { m with peerIn := [mkPeerMark 5 0 9 9 3 4, dataB 4] }) (onGroup 0 (fun _ => { Group.init with valid := true, marked := true, orderLog := 4 }) (onWake (fun w => { w with windows := [] }) s))))))
   let line : Nat := 1
   let g : Nat := 0
   let b : Block := mkPeerMark 5 0 9 9 3 4
   let c1 : Chip := s.chip.modMer (fun m => { m with peerIn := [dataB 4] })
   let c := s.chip
   let alone := c.windows = [] ∧ c.wake.windows.length < 4096 ∧ AMap.get (always none) c.wake.lastDone g = none ∧
     (∀ k, k < 1024 → c.sg F.PRT_SLOT_STATE k ≠ 4)
   let own : Int := secOf c.sub
   let pm : Mark := ⟨none, timeOf (own + signedOf 16 (((b.f 98 83 : Int) - own) % 65536).toNat).toNat (b.f 82 53) (b.f 52 43), b.f 42 26, b.f 25 9,
         wakePeerGroups c.work⟩
   s.chip.live = true ∧ line < 4 ∧ c.takePeer (fun b => b.is .mark) = some (b, c1) ∧ 2 ≤ c.hier ∧ c.up c.peerUse = true ∧
     c.markGroups pm.groups = [g] ∧
     alone) ∧
  (let s : State := State.reset
    |> onWake (fun w => { w with windows := [(0, some { window0 with outst := [⟨3, 1, 50, false⟩, ⟨4, 1, 5000, false⟩, ⟨5, 1, 50, true⟩] })] })
    |> atTick 640000100
   let line : Nat := 1
   let e : Nat := 0
   let w : Window := { group := 0, lo := 10, hi := 50, st := WinSt.waiting, partial_ := false, marks := 1, outst := [{ id := 3, slot := 1, sent := 50, done := false }, { id := 4, slot := 1, sent := 5000, done := false }, { id := 5, slot := 1, sent := 50, done := true }], serial := 0, ready := none, mstate := 2 }
   let c := s.chip
   let late := fun (o : WkMark) => !o.done && !c.markHeld o.slot o.id && decide (o.sent + 640 * max 1 (c.g F.WKE_CTL_MARK_TO) ≤ c.tick)
   s.chip.live = true ∧ line < 4 ∧ c.win e = some w ∧ w.outst.any late = true) ∧
  (let s : State := State.reset
   let line : Nat := 1
   let e : Nat := 0
   let w : Window := { group := 0, lo := 10, hi := 50, st := WinSt.waiting, partial_ := false, marks := 1, outst := [], serial := 0, ready := none, mstate := 2 }
   let c := s.chip
   let late := fun (o : WkMark) => !o.done && !c.markHeld o.slot o.id && decide (o.sent + 640 * max 1 (c.g F.WKE_CTL_MARK_TO) ≤ c.tick)
   s.chip.live = true ∧ line < 4 ∧ (c.win e = none ∨ (c.win e = some w ∧ w.outst.any late = false))) ∧
  (let s : State := State.reset
   
      |> onGroup 0 (fun _ => { Group.init with valid := true, marked := true, orderLog := 4, root := 2, streams := 2, settle := 1, absentTo := 3, quietLag := 1, close := 5, running := true })
   
      |> onWake (fun w => { w with windows := [(0, some { window0 with outst := [⟨4, 1, 5000, true⟩] }), (1, some { window0 with ready := some (3, 4) })] })
   let line : Nat := 1
   let e : Nat := 0
   let w : Window := { group := 0, lo := 10, hi := 50, st := WinSt.waiting, partial_ := false, marks := 1, outst := [{ id := 4, slot := 1, sent := 5000, done := true }], serial := 0, ready := none, mstate := 2 }
   let c := s.chip
   let missed := fun (o : WkMark) => (c.pair (o.slot / 16)).missed.contains (o.slot, o.id)
   let close := (c.grp w.group).close
   let readies := w.st ≠ .done ∧ w.ready = none ∧ w.hi / 2 ^ (c.grp w.group).orderLog < close ∧ ∀ o ∈ w.outst, o.done = true ∨ missed o = true
   s.chip.live = true ∧ line < 4 ∧ c.win e = some w ∧ readies) ∧
  (let s : State := State.reset
   let line : Nat := 1
   let e : Nat := 0
   let w : Window := { group := 0, lo := 10, hi := 50, st := WinSt.waiting, partial_ := false, marks := 1, outst := [], serial := 0, ready := none, mstate := 2 }
   let c := s.chip
   let missed := fun (o : WkMark) => (c.pair (o.slot / 16)).missed.contains (o.slot, o.id)
   let close := (c.grp w.group).close
   let readies := w.st ≠ .done ∧ w.ready = none ∧ w.hi / 2 ^ (c.grp w.group).orderLog < close ∧ ∀ o ∈ w.outst, o.done = true ∨ missed o = true
   s.chip.live = true ∧ line < 4 ∧ (c.win e = none ∨ (c.win e = some w ∧ ¬ readies))) ∧
  (let s : State := State.reset
   let line : Nat := 1
   let c := s.chip
   s.chip.live = true ∧ line < 4 ∧ (∀ x ∈ c.windows, x.2.ready = none)) ∧
  (let s : State := State.reset |> onWake (fun w => { w with windows := [(0, some { window0 with ready := some (0, 4) })] }) |> setWork egImg
   let line : Nat := 1
   let age : Nat := 4
   let e : Nat := 0
   let g : Nat := 0
   let w : Window := { group := 0, lo := 10, hi := 50, st := WinSt.waiting, partial_ := false, marks := 1, outst := [], serial := 0, ready := some (0, 4), mstate := 2 }
   let c := s.chip
   let dest := markDest c.work w.group
   s.chip.live = true ∧ line < 4 ∧ c.windows = [(e, w)] ∧ w.ready = some (g, age) ∧ w.st = .waiting ∧ dest < egNDest c.work ∧ c.work ≠ []) := by
  refine ⟨?_, ?_, ?_, ?_, ?_, ?_, ?_, ?_, ?_, ?_, ?_, ?_, ?_, ?_, ?_, ?_, ?_⟩
  · decide +kernel
  · decide +kernel
  · refine ⟨by decide +kernel, by decide +kernel, by decide +kernel, by decide +kernel, by decide +kernel, by decide +kernel, by decide +kernel, by decide +kernel, slots_idle _ (by decide +kernel)⟩
  · decide +kernel
  · decide +kernel
  · decide +kernel
  · decide +kernel
  · decide +kernel
  · decide +kernel
  · decide +kernel
  · refine ⟨by decide +kernel, by decide +kernel, takePeer_first _ _ _ _ rfl (by decide +kernel), by decide +kernel, by decide +kernel,
      by decide +kernel, by decide +kernel, by decide +kernel, by decide +kernel, slots_idle _ (by decide +kernel)⟩
  · decide +kernel
  · decide +kernel
  · decide +kernel
  · decide +kernel
  · decide +kernel
  · decide +kernel

theorem witness_Watches :
  (let s : State := State.reset
   let g : Nat := 0
   let c := s.chip
   s.chip.live = true ∧ g < 32 ∧ c.streaming g = false) ∧
  (let s : State := State.reset
   
      |> (fun s => mgrFld (wgrpFld F.WKE_WGRP1_DEADLINE 0) 9000 (mgrFld (wgrpFld F.WKE_WGRP0_SPAN 0) 640 (onGroup 0 (fun _ => { Group.init with valid := true, orderLog := 4, close := 5, running := true }) (onWatch 0 (fun x => { x with cur := some ⟨0, 639, 2, false, false, 1⟩, span := 640, closed := [] }) s))))
   let g : Nat := 0
   let w : Watch := { lo := 0, hi := 639, serial := 2, short := false, lateSeen := false, mstate := 1 }
   let c := s.chip
   let x := c.watchSt g
   let gr := c.grp g
   let stays := c.kcount ≤ w.hi ∨ gr.running = false ∨ gr.stopEnd.any (· ≤ w.hi + 1) = true
   s.chip.live = true ∧ g < 32 ∧ x.cur = some w ∧ stays ∧ (x.closed = [] ∨ c.emitting g ≠ none)) ∧
  (let s : State := State.reset
   let g : Nat := 0
   let c := s.chip
   let x := c.watchSt g
   let gr := c.grp g
   s.chip.live = true ∧ g < 32 ∧ x.cur = none ∧ gr.running = false ∧ (x.closed = [] ∨ c.emitting g ≠ none)) ∧
  (let s : State := State.reset
   
      |> (fun s => mgrFld (wgrpFld F.WKE_WGRP1_DEADLINE 0) 9000 (mgrFld (wgrpFld F.WKE_WGRP0_SPAN 0) 640 (onGroup 0 (fun _ => { Group.init with valid := true, orderLog := 4, close := 5, running := true }) (onWatch 0 (fun x => { x with cur := some ⟨0, 639, 2, false, false, 1⟩, span := 640, closed := [] }) s))))
    |> atTick 1281
   let g : Nat := 0
   let w : Watch := { lo := 0, hi := 639, serial := 2, short := false, lateSeen := false, mstate := 1 }
   let c := s.chip
   let x := c.watchSt g
   let gr := c.grp g
   let stays := c.kcount ≤ w.hi ∨ gr.running = false ∨ gr.stopEnd.any (· ≤ w.hi + 1) = true
   let calm := x.newSpan = none ∧ x.shortened = false ∧ x.lastLate = false ∧ x.closed = [] ∧ c.emitting g = none ∧ x.span ≠ 0 ∧
         ∀ y ∈ x.open_ ++ [w], c.kcount ≤ c.deadline g y.hi
   s.chip.live = true ∧ g < 32 ∧ c.streaming g = true ∧ x.cur = some w ∧ ¬ stays ∧ calm) ∧
  (let s : State := State.reset
   
      |> onGroup 0 (fun _ => { Group.init with valid := true, orderLog := 4, root := 2, streams := 2, settle := 1, absentTo := 3, quietLag := 1, close := 5, running := true })
    |> onGroup 0 (fun x => { x with running := false }) |> onWatch 0 (fun x => { x with closed := [⟨0, 639, 2, false, true, 1⟩] }) |> setWork egImg2
   let g : Nat := 0
   let dest : Nat := 0
   let w : Watch := { lo := 0, hi := 639, serial := 2, short := false, lateSeen := true, mstate := 1 }
   let l : List Watch := []
   let c := s.chip
   let x := c.watchSt g
   let gr := c.grp g
   s.chip.live = true ∧ g < 32 ∧ c.streaming g = true ∧ x.cur = none ∧ gr.running = false ∧ x.closed = w :: l ∧ c.emitting g = none ∧
     watchDest c.work g = dest ∧ dest < egNDest c.work ∧ c.work ≠ []) ∧
  (let s : State := State.reset
   
      |> onGroup 0 (fun _ => { Group.init with valid := true, orderLog := 4, root := 2, streams := 2, settle := 1, absentTo := 3, quietLag := 1, close := 5, running := true })
   let g : Nat := 0
   let c := s.chip
   let x := c.watchSt g
   let gr := c.grp g
   s.chip.live = true ∧ g < 32 ∧ c.streaming g = true ∧ gr.running = true ∧ x = WatchSt.init ∧ c.emitting g = none) ∧
  (let s : State := State.reset
   
      |> onGroup 0 (fun _ => { Group.init with valid := true, orderLog := 4, root := 2, streams := 2, settle := 1, absentTo := 3, quietLag := 1, close := 5, running := true })
    |> onGroup 0 (fun x => { x with close := 40 }) |> onWatch 0 (fun x => { x with open_ := [⟨0, 639, 2, false, false, 1⟩] })
   let g : Nat := 0
   let w : Watch := { lo := 0, hi := 639, serial := 2, short := false, lateSeen := false, mstate := 1 }
   let l : List Watch := []
   let c := s.chip
   let x := c.watchSt g
   let gr := c.grp g
   let shut := w.hi / 2 ^ gr.orderLog < gr.close
   s.chip.live = true ∧ g < 32 ∧ x.open_ = w :: l ∧ shut) ∧
  (let s : State := State.reset
   let g : Nat := 0
   let w : Watch := { lo := 0, hi := 639, serial := 2, short := false, lateSeen := false, mstate := 1 }
   let l : List Watch := []
   let c := s.chip
   let x := c.watchSt g
   let gr := c.grp g
   let shut := w.hi / 2 ^ gr.orderLog < gr.close
   s.chip.live = true ∧ g < 32 ∧ (x.open_ = [] ∨ (x.open_ = w :: l ∧ ¬ shut))) ∧
  (let s : State := State.reset
   let g : Nat := 0
   let c := s.chip
   let x := c.watchSt g
   let late := fun (w : Watch) => !w.lateSeen && decide (c.deadline g w.hi < c.kcount)
   s.chip.live = true ∧ g < 32 ∧ (x.open_ ++ x.closed).any late = false) ∧
  (let s : State := State.reset |> mgrFld (wgrpFld F.WKE_WGRP1_DEADLINE 0) 1
    |> onWatch 0 (fun x => { x with open_ := [⟨0, 639, 2, false, false, 1⟩] }) |> atTick 1000000
   let g : Nat := 0
   let c := s.chip
   let x := c.watchSt g
   let late := fun (w : Watch) => !w.lateSeen && decide (c.deadline g w.hi < c.kcount)
   s.chip.live = true ∧ g < 32 ∧ (x.open_ ++ x.closed).any late = true) ∧
  (let s : State := State.reset |> mgrFld F.MGT_ROLE_ROLE 2
   let g : Nat := 0
   let c := s.chip
   let may := c.role = .operator ∨ c.role = .installer
   s.chip.live = true ∧ g < 32 ∧ may ∧ c.streaming g = false) ∧
  (let s : State := State.reset |> mgrFld F.MGT_ROLE_ROLE 2
   
      |> (fun s => mgrFld (wgrpFld F.WKE_WGRP1_DEADLINE 0) 9000 (mgrFld (wgrpFld F.WKE_WGRP0_SPAN 0) 640 (onGroup 0 (fun _ => { Group.init with valid := true, orderLog := 4, close := 5, running := true }) (onWatch 0 (fun x => { x with cur := some ⟨0, 639, 2, false, false, 1⟩, span := 640, closed := [] }) s))))
   let g : Nat := 0
   let v : Word := 0x00000008#32
   let c := s.chip
   let may := c.role = .operator ∨ c.role = .installer
   let bad := v.toNat % 8 ≠ 0 ∨ v.toNat < max 640 (limSpanMin c.work) ∨ min 640000000 (limSpanMax c.work) < v.toNat
   s.chip.live = true ∧ g < 32 ∧ may ∧ c.streaming g = true ∧ bad) ∧
  (let s : State := State.reset |> mgrFld F.MGT_ROLE_ROLE 2 |> setWork egImg
   
      |> (fun s => mgrFld (wgrpFld F.WKE_WGRP1_DEADLINE 0) 9000 (mgrFld (wgrpFld F.WKE_WGRP0_SPAN 0) 640 (onGroup 0 (fun _ => { Group.init with valid := true, orderLog := 4, close := 5, running := true }) (onWatch 0 (fun x => { x with cur := some ⟨0, 639, 2, false, false, 1⟩, span := 640, closed := [] }) s))))
   let g : Nat := 0
   let v : Word := 0x00001900#32
   let c := s.chip
   let may := c.role = .operator ∨ c.role = .installer
   let bad := v.toNat % 8 ≠ 0 ∨ v.toNat < max 640 (limSpanMin c.work) ∨ min 640000000 (limSpanMax c.work) < v.toNat
   s.chip.live = true ∧ g < 32 ∧ may ∧ c.streaming g = true ∧ ¬ bad) ∧
  (let s : State := State.reset
   
      |> onGroup 0 (fun _ => { Group.init with valid := true, orderLog := 4, root := 2, streams := 2, settle := 1, absentTo := 3, quietLag := 1, close := 5, running := true })
    |> onWatch 0 (fun x => { x with closed := [⟨0, 639, 2, false, false, 1⟩, ⟨640, 1279, 3, false, false, 1⟩] })
   let g : Nat := 0
   let c := s.chip
   let age := (c.oldestWatch.map (fun lo => c.kcount - lo)).getD 0
   let depth := 640 * c.wakeDepth
   let hwm := min 100 (c.g F.WKE_CTL_HWM)
   let busy := c.b F.WKE_STAT_BUSY_WAKE
   let rises := busy = false ∧ c.oldestWatch ≠ none ∧ hwm * depth ≤ 100 * age
   s.chip.live = true ∧ g < 32 ∧ rises) ∧
  (let s : State := State.reset |> mgrFld F.WKE_STAT_BUSY_WAKE 1
   let g : Nat := 0
   let c := s.chip
   let age := (c.oldestWatch.map (fun lo => c.kcount - lo)).getD 0
   let depth := 640 * c.wakeDepth
   let hwm := min 100 (c.g F.WKE_CTL_HWM)
   let busy := c.b F.WKE_STAT_BUSY_WAKE
   let falls := busy = true ∧ (c.oldestWatch = none ∨ 100 * age ≤ min hwm (c.g F.WKE_CTL_LWM) * depth)
   s.chip.live = true ∧ g < 32 ∧ falls) ∧
  (let s : State := State.reset
   let g : Nat := 0
   let c := s.chip
   let age := (c.oldestWatch.map (fun lo => c.kcount - lo)).getD 0
   let depth := 640 * c.wakeDepth
   let hwm := min 100 (c.g F.WKE_CTL_HWM)
   let busy := c.b F.WKE_STAT_BUSY_WAKE
   let rises := busy = false ∧ c.oldestWatch ≠ none ∧ hwm * depth ≤ 100 * age
   let falls := busy = true ∧ (c.oldestWatch = none ∨ 100 * age ≤ min hwm (c.g F.WKE_CTL_LWM) * depth)
   s.chip.live = true ∧ g < 32 ∧ ¬ rises ∧ ¬ falls) := by
  refine ⟨?_, ?_, ?_, ?_, ?_, ?_, ?_, ?_, ?_, ?_, ?_, ?_, ?_, ?_, ?_, ?_⟩ <;>
    decide +kernel

theorem witness_EgressLanes :
  (let s : State := State.reset
   let l : Nat := 2
   let p : Nat := 2
   let prio : Nat := 0
   let c := s.chip
   let ph := c.phys l
   let x := c.lane l
   let ready := x.resend.find? (fun f => !c.paused ph (c.pcp f.dest))
   s.chip.live = true ∧ l < 8 ∧ p < 9 ∧ prio < 8 ∧ (c.laneUp ph = false ∨ (ready = none ∧ c.pickObj l ph = none))) ∧
  (let s : State := State.reset |> mgrFld (laneFld F.EGR_LANE0_UP 2) 1 |> onLane 2 (fun x => { x with resend := [frame0 5 2, frame0 6 2] })
   
      |> (fun s => mgrFld (laneFld F.EGR_LANE0_UP 8) 1 (mgrFld (laneFld F.EGR_LANE0_ROLE 2) 1 (mgrFld F.EGR_STAT_SPARE 8 (mgrFld F.EGR_STAT_SPARE_OK 1 (mgrFld F.EGR_MAP_PHYS 0x76543210 (setWork egImg s))))))
   let l : Nat := 2
   let p : Nat := 8
   let prio : Nat := 5
   let f : Frame := { lane := 0, seq := 5, ftype := FType.watch, dest := 0, hdr := List.replicate 64 0x07#8, pay := [0x01#8, 0x02#8], pages := [], phys := 2, sentAt := 50 }
   let c := s.chip
   let ph := c.phys l
   let x := c.lane l
   let ready := x.resend.find? (fun f => !c.paused ph (c.pcp f.dest))
   s.chip.live = true ∧ l < 8 ∧ p < 9 ∧ prio < 8 ∧ c.laneUp ph = true ∧ ready = some f) ∧
  (let s : State := State.reset |> mgrFld (laneFld F.EGR_LANE0_UP 2) 1 |> onLane 2 (fun x => { x with objs := [obj0 .monitor 1 0 0] })
   
      |> (fun s => mgrFld (laneFld F.EGR_LANE0_UP 8) 1 (mgrFld (laneFld F.EGR_LANE0_ROLE 2) 1 (mgrFld F.EGR_STAT_SPARE 8 (mgrFld F.EGR_STAT_SPARE_OK 1 (mgrFld F.EGR_MAP_PHYS 0x76543210 (setWork egImg s))))))
   let l : Nat := 2
   let p : Nat := 0
   let prio : Nat := 5
   let o : EObj := { ftype := FType.monitor, group := 0, orderLog := 4, serial := 3, dest := 1, lo := 0, hi := 0, mstate := 0, marks := 1, short := false, late := false, partial_ := false, lost := false, seg := 0, upTo := 0, page := none, age := 0, ix := 0, bk := 0, seen := [], nrec := 0, nlate := 0, nsight := 0, nabs := 0, bytes := [0x01#8, 0x02#8, 0x03#8], entry := 0 }
   let c := s.chip
   let ph := c.phys l
   let x := c.lane l
   let ready := x.resend.find? (fun f => !c.paused ph (c.pcp f.dest))
   s.chip.live = true ∧ l < 8 ∧ p < 9 ∧ prio < 8 ∧ c.laneUp ph = true ∧ ready = none ∧ c.pickObj l ph = some o) ∧
  (let s : State := State.reset |> mgrFld (laneFld F.EGR_LANE0_UP 2) 1 |> onLane 2 (fun x => { x with resend := [frame0 5 2, frame0 6 2] })
   
      |> (fun s => mgrFld (laneFld F.EGR_LANE0_UP 8) 1 (mgrFld (laneFld F.EGR_LANE0_ROLE 2) 1 (mgrFld F.EGR_STAT_SPARE 8 (mgrFld F.EGR_STAT_SPARE_OK 1 (mgrFld F.EGR_MAP_PHYS 0x76543210 (setWork egImg s))))))
   let l : Nat := 2
   let p : Nat := 8
   let prio : Nat := 5
   let f : Frame := { lane := 0, seq := 5, ftype := FType.watch, dest := 0, hdr := List.replicate 64 0x07#8, pay := [0x01#8, 0x02#8], pages := [], phys := 2, sentAt := 50 }
   let rest : List Frame := [{ lane := 0, seq := 6, ftype := FType.watch, dest := 0, hdr := List.replicate 64 0x07#8, pay := [0x01#8, 0x02#8], pages := [], phys := 2, sentAt := 50 }]
   let c := s.chip
   let ph := c.phys l
   let x := c.lane l
   s.chip.live = true ∧ l < 8 ∧ p < 9 ∧ prio < 8 ∧ c.laneUp ph = true ∧ x.resend = f :: rest) ∧
  (let s : State := State.reset
   let l : Nat := 2
   let p : Nat := 2
   let prio : Nat := 0
   let c := s.chip
   let ph := c.phys l
   let x := c.lane l
   s.chip.live = true ∧ l < 8 ∧ p < 9 ∧ prio < 8 ∧ (c.laneUp ph = false ∨ x.resend = [])) ∧
  (let s : State := State.reset
   let l : Nat := 2
   let p : Nat := 2
   let prio : Nat := 0
   let stop : Nat := 0
   let since : Nat := 0
   let c := s.chip
   let pause := fun (d : Chip) (i : Nat) => AMap.get (always none) d.egr.pause i
   let at_ := 8 * p + prio
   s.chip.live = true ∧ l < 8 ∧ p < 9 ∧ prio < 8 ∧
     (pause c at_ = some (stop, since, true) ∨ pause c at_ = none ∨ (pause c at_ = some (stop, since, false) ∧
     min stop c.tick < since + 640000 * c.g F.EGR_FAULT_PFC_WD))) ∧
  (let s : State := State.reset
    |> onEgr (fun e => { e with pause := [(16, some (1000000, 50, false)), (20, some (100000000, 50, false)), (21, some (90, 50, true))] })
    |> atTick 640000099
   let l : Nat := 2
   let p : Nat := 2
   let prio : Nat := 4
   let stop : Nat := 100000000
   let since : Nat := 50
   let c := s.chip
   let pause := fun (d : Chip) (i : Nat) => AMap.get (always none) d.egr.pause i
   let at_ := 8 * p + prio
   s.chip.live = true ∧ l < 8 ∧ p < 9 ∧ prio < 8 ∧ pause c at_ = some (stop, since, false) ∧
     since + 640000 * c.g F.EGR_FAULT_PFC_WD ≤ min stop c.tick) ∧
  (let s : State := State.reset
   let l : Nat := 2
   let p : Nat := 2
   let prio : Nat := 0
   let cause : Nat := 3
   let unc : Nat := 5
   let c := s.chip
   let r := fun (f : Fld) => laneFld f p
   let role := c.g (r F.EGR_LANE0_ROLE)
   let fault := role ≠ 0 ∧ cause ∈ [1, 2, 3, 4] ∧ (cause = 3 → c.g F.EGR_FAULT_FEC_UNC_LIM < unc)
   s.chip.live = true ∧ l < 8 ∧ p < 9 ∧ prio < 8 ∧ ¬ fault) ∧
  (let s : State := State.reset |> mgrFld (laneFld F.EGR_LANE0_ROLE 2) 3
   let l : Nat := 2
   let p : Nat := 2
   let prio : Nat := 0
   let cause : Nat := 4
   let unc : Nat := 5
   let c := s.chip
   let r := fun (f : Fld) => laneFld f p
   let role := c.g (r F.EGR_LANE0_ROLE)
   let fault := role ≠ 0 ∧ cause ∈ [1, 2, 3, 4] ∧ (cause = 3 → c.g F.EGR_FAULT_FEC_UNC_LIM < unc)
   s.chip.live = true ∧ l < 8 ∧ p < 9 ∧ prio < 8 ∧ fault ∧ role = 3) ∧
  (let s : State := State.reset |> mgrFld (laneFld F.EGR_LANE0_ROLE 8) 2
   let l : Nat := 2
   let p : Nat := 8
   let prio : Nat := 0
   let cause : Nat := 2
   let unc : Nat := 6
   let c := s.chip
   let r := fun (f : Fld) => laneFld f p
   let role := c.g (r F.EGR_LANE0_ROLE)
   let fault := role ≠ 0 ∧ cause ∈ [1, 2, 3, 4] ∧ (cause = 3 → c.g F.EGR_FAULT_FEC_UNC_LIM < unc)
   s.chip.live = true ∧ l < 8 ∧ p < 9 ∧ prio < 8 ∧ fault ∧ role = 2) ∧
  (let s : State := State.reset
   
      |> (fun s => mgrFld (laneFld F.EGR_LANE0_UP 8) 1 (mgrFld (laneFld F.EGR_LANE0_ROLE 2) 1 (mgrFld F.EGR_STAT_SPARE 8 (mgrFld F.EGR_STAT_SPARE_OK 1 (mgrFld F.EGR_MAP_PHYS 0x76543210 (setWork egImg s))))))
   let l : Nat := 2
   let p : Nat := 2
   let prio : Nat := 4
   let cause : Nat := 4
   let unc : Nat := 0
   let c := s.chip
   let r := fun (f : Fld) => laneFld f p
   let role := c.g (r F.EGR_LANE0_ROLE)
   let fault := role ≠ 0 ∧ cause ∈ [1, 2, 3, 4] ∧ (cause = 3 → c.g F.EGR_FAULT_FEC_UNC_LIM < unc)
   let sp := c.g F.EGR_STAT_SPARE
   let covers := c.b F.EGR_STAT_SPARE_OK = true ∧ c.laneUp sp = true ∧ limFlag c.work limLaneSpare = true
   s.chip.live = true ∧ l < 8 ∧ p < 9 ∧ prio < 8 ∧ fault ∧ role = 1 ∧ (List.range 8).find? (fun k => c.phys k = p) = some l ∧ covers ∧ sp ≠ p) ∧
  (let s : State := State.reset |> mgrFld (laneFld F.EGR_LANE0_ROLE 2) 1 |> mgrFld F.EGR_MAP_PHYS 0xF6543210
   let l : Nat := 2
   let p : Nat := 2
   let prio : Nat := 0
   let cause : Nat := 2
   let unc : Nat := 6
   let c := s.chip
   let r := fun (f : Fld) => laneFld f p
   let role := c.g (r F.EGR_LANE0_ROLE)
   let fault := role ≠ 0 ∧ cause ∈ [1, 2, 3, 4] ∧ (cause = 3 → c.g F.EGR_FAULT_FEC_UNC_LIM < unc)
   let sp := c.g F.EGR_STAT_SPARE
   let covers := c.b F.EGR_STAT_SPARE_OK = true ∧ c.laneUp sp = true ∧ limFlag c.work limLaneSpare = true
   s.chip.live = true ∧ l < 8 ∧ p < 9 ∧ prio < 8 ∧ fault ∧ role = 1 ∧ (List.range 8).find? (fun k => c.phys k = p) = some l ∧ ¬ covers) ∧
  (let s : State := State.reset |> mgrFld (laneFld F.EGR_LANE0_UP 2) 1 |> mgrFld (laneFld F.EGR_LANE0_ROLE 2) 3 |> atTick 640000099
   let l : Nat := 2
   let p : Nat := 2
   let prio : Nat := 5
   let c := s.chip
   let r := fun (f : Fld) => laneFld f p
   let role := c.g (r F.EGR_LANE0_ROLE)
   let sp := c.g F.EGR_STAT_SPARE
   let now := role = 3 ∧ c.laneUp p = true ∧ AMap.get (always 0) c.egr.upSince p + 640000000 ≤ c.tick ∧ sp = 0xF
   s.chip.live = true ∧ l < 8 ∧ p < 9 ∧ prio < 8 ∧ now) ∧
  (let s : State := State.reset
   let l : Nat := 2
   let p : Nat := 2
   let prio : Nat := 0
   let c := s.chip
   let r := fun (f : Fld) => laneFld f p
   let role := c.g (r F.EGR_LANE0_ROLE)
   let sp := c.g F.EGR_STAT_SPARE
   let now := role = 3 ∧ c.laneUp p = true ∧ AMap.get (always 0) c.egr.upSince p + 640000000 ≤ c.tick ∧ sp = 0xF
   s.chip.live = true ∧ l < 8 ∧ p < 9 ∧ prio < 8 ∧ ¬ now) ∧
  (let s : State := State.reset
   let l : Nat := 2
   let p : Nat := 2
   let prio : Nat := 0
   let c := s.chip
   s.chip.live = true ∧ l < 8 ∧ p < 9 ∧ prio < 8 ∧ bitOf (c.g F.EGR_CTL_LANE_EN) p = false) ∧
  (let s : State := State.reset |> mgrFld F.EGR_CTL_LANE_EN 0x1FF
   let l : Nat := 2
   let p : Nat := 8
   let prio : Nat := 5
   let c := s.chip
   s.chip.live = true ∧ l < 8 ∧ p < 9 ∧ prio < 8 ∧ bitOf (c.g F.EGR_CTL_LANE_EN) p = true) ∧
  (let s : State := State.reset
   let l : Nat := 2
   let p : Nat := 2
   let prio : Nat := 0
   let c := s.chip
   let dest := chartF c.work secEgress 24 1
   let mon := c.work ≠ [] ∧ dest < egNDest c.work ∧ c.g F.EGR_SYSDEST_MON_INT ≠ 0 ∧ egNMon c.work ≠ 0 ∧
         c.egr.monAt + c.g F.EGR_SYSDEST_MON_INT * 640000 ≤ c.tick
   s.chip.live = true ∧ l < 8 ∧ p < 9 ∧ prio < 8 ∧ ¬ mon) ∧
  (let s : State := State.reset |> mgrFld F.EGR_SYSDEST_MON_INT 2 |> setWork egImg2 |> atTick 1280100
   let l : Nat := 2
   let p : Nat := 8
   let prio : Nat := 4
   let c := s.chip
   let dest := chartF c.work secEgress 24 1
   let mon := c.work ≠ [] ∧ dest < egNDest c.work ∧ c.g F.EGR_SYSDEST_MON_INT ≠ 0 ∧ egNMon c.work ≠ 0 ∧
         c.egr.monAt + c.g F.EGR_SYSDEST_MON_INT * 640000 ≤ c.tick
   s.chip.live = true ∧ l < 8 ∧ p < 9 ∧ prio < 8 ∧ mon) := by
  refine ⟨?_, ?_, ?_, ?_, ?_, ?_, ?_, ?_, ?_, ?_, ?_, ?_, ?_, ?_, ?_, ?_, ?_, ?_⟩ <;>
    decide +kernel

theorem witness_ProtectedWords :
  (let s : State := State.reset
   let m : Nat := 11
   let a : Nat := 4
   s.chip.live = true ∧ wordExists m a = false) ∧
  (let s : State := State.reset
   let m : Nat := 1
   let a : Nat := 127
   let find : EccFind := { access := EccAccess.fullWrite, flipD := 65537, flipK := 0, overtaken := false, disagree := none }
   let known := wordExists m a = true ∧ find.disagree = none
   s.chip.live = true ∧ known ∧ find.access = .fullWrite) ∧
  (let s : State := State.reset
   let m : Nat := 3
   let a : Nat := 5
   let okA : Bool := true
   let okB : Bool := true
   let find : EccFind := { access := EccAccess.fullWrite, flipD := 1, flipK := 2, overtaken := false, disagree := some (true, true) }
   let c := s.chip
   let x := c.mem m
   s.chip.live = true ∧ wordExists m a = true ∧ find.disagree = some (okA, okB) ∧ x.chkOut = [] ∧ isStack m = false ∧ find.access = .fullWrite) ∧
  (let s : State := State.reset |> onMem 0 (fun x => { x with suspects := (List.range 64).map (fun i => (i + 10, 0)) })
   let m : Nat := 0
   let a : Nat := 1023
   let find : EccFind := { access := EccAccess.scrub, flipD := 170141183460469231731687303715884105728, flipK := 0, overtaken := false, disagree := none }
   let c := s.chip
   let x := c.mem m
   let pass := if isStack m then 38400000000 * min 1440 (max 1 (c.g F.INT_CTL_SCRUB_MIN)) else 640000000
   let blocked := c.b F.INT_CTL_SCRUB_EN = false ∨ m = 1 ∨ c.bypassed m = true ∨ a < x.cursor ∨ c.scrubDue m x.cursor a = true ∨
         c.tick < x.passAt + a * pass / memWords m
   let known := wordExists m a = true ∧ find.disagree = none
   s.chip.live = true ∧ known ∧ find.access = .scrub ∧ blocked) ∧
  (let s : State := State.reset |> atTick 80000000
   let m : Nat := 4
   let a : Nat := 1024
   let find : EccFind := { access := EccAccess.scrub, flipD := 0, flipK := 0, overtaken := false, disagree := none }
   let c := s.chip
   let x := c.mem m
   let e0 := c.eccAt m a
   let e : EccErr := { e0 with d := Nat.xor e0.d find.flipD, k := Nat.xor e0.k find.flipK }
   let pass := if isStack m then 38400000000 * min 1440 (max 1 (c.g F.INT_CTL_SCRUB_MIN)) else 640000000
   let blocked := c.b F.INT_CTL_SCRUB_EN = false ∨ m = 1 ∨ c.bypassed m = true ∨ a < x.cursor ∨ c.scrubDue m x.cursor a = true ∨
         c.tick < x.passAt + a * pass / memWords m
   let known := wordExists m a = true ∧ find.disagree = none
   s.chip.live = true ∧ known ∧ find.access = .scrub ∧ ¬ blocked ∧ find.overtaken = false ∧ (eccDecode m e.d e.k).1 = .clean) ∧
  (let s : State := State.reset
   let m : Nat := 3
   let a : Nat := 5
   let find : EccFind := { access := EccAccess.read, flipD := 0, flipK := 0, overtaken := false, disagree := none }
   let c := s.chip
   let e0 := c.eccAt m a
   let e : EccErr := { e0 with d := Nat.xor e0.d find.flipD, k := Nat.xor e0.k find.flipK }
   let known := wordExists m a = true ∧ find.disagree = none
   s.chip.live = true ∧ known ∧ find.access = .read ∧ find.overtaken = false ∧ (eccDecode m e.d e.k).1 = .clean) ∧
  (let s : State := State.reset
   let m : Nat := 4
   let a : Nat := 5
   let d' : Nat := 0
   let syn : Nat := 7
   let find : EccFind := { access := EccAccess.read, flipD := 1, flipK := 0, overtaken := false, disagree := none }
   let c := s.chip
   let e0 := c.eccAt m a
   let e : EccErr := { e0 with d := Nat.xor e0.d find.flipD, k := Nat.xor e0.k find.flipK }
   let known := wordExists m a = true ∧ find.disagree = none
   s.chip.live = true ∧ known ∧ find.access = .read ∧ find.overtaken = false ∧ eccDecode m e.d e.k = (.corrected, d', syn)) ∧
  (let s : State := State.reset
   let m : Nat := 2
   let a : Nat := 4
   let find : EccFind := { access := EccAccess.read, flipD := 65537, flipK := 0, overtaken := false, disagree := none }
   let c := s.chip
   let e0 := c.eccAt m a
   let e : EccErr := { e0 with d := Nat.xor e0.d find.flipD, k := Nat.xor e0.k find.flipK }
   let known := wordExists m a = true ∧ find.disagree = none
   s.chip.live = true ∧ known ∧ find.access = .read ∧ find.overtaken = false ∧ (eccDecode m e.d e.k).1 = .uncorrectable) ∧
  (let s : State := State.reset
   let m : Nat := 3
   let a : Nat := 127
   let find : EccFind := { access := EccAccess.partialWrite, flipD := 255, flipK := 0, overtaken := false, disagree := none }
   let c := s.chip
   let e0 := c.eccAt m a
   let e : EccErr := { e0 with d := Nat.xor e0.d find.flipD, k := Nat.xor e0.k find.flipK }
   let known := wordExists m a = true ∧ find.disagree = none
   s.chip.live = true ∧ known ∧ find.access = .partialWrite ∧ find.overtaken = false ∧ (eccDecode m e.d e.k).1 = .uncorrectable) := by
  refine ⟨?_, ?_, ?_, ?_, ?_, ?_, ?_, ?_, ?_⟩ <;>
    decide +kernel

theorem witness_FaultsRemapped :
  (let s : State := State.reset
   let m : Nat := 11
   s.chip.live = true ∧ memWords m = 0) ∧
  (let s : State := State.reset
   let m : Nat := 0
   let c := s.chip
   let x := c.mem m
   s.chip.live = true ∧ memWords m ≠ 0 ∧ x.tests = []) ∧
  (let s : State := State.reset |> onMem 16 (fun x => { x with tests := [⟨5, 5, true, false⟩, ⟨6, 6, false, false⟩] })
   let m : Nat := 16
   let fails : Bool := false
   let t : TestReq := { unit := 5, addr := 5, ue := true, suspect := false }
   let r : List TestReq := [{ unit := 6, addr := 6, ue := false, suspect := false }]
   let c := s.chip
   let x := c.mem m
   let passed := c.bypassed m = true ∨ (fails = false ∧ (t.suspect = false ∨ t.ue = true))
   s.chip.live = true ∧ memWords m ≠ 0 ∧ x.tests = t :: r ∧ passed) ∧
  (let s : State := State.reset |> onMem 2 (fun x => { x with tests := [⟨5, 5, true, true⟩] })
   let m : Nat := 2
   let fails : Bool := true
   let t : TestReq := { unit := 5, addr := 5, ue := true, suspect := true }
   let r : List TestReq := []
   let c := s.chip
   let x := c.mem m
   let passed := c.bypassed m = true ∨ (fails = false ∧ (t.suspect = false ∨ t.ue = true))
   s.chip.live = true ∧ memWords m ≠ 0 ∧ x.tests = t :: r ∧ ¬ passed) ∧
  (let s : State := State.reset
   let m : Nat := 2
   let c := s.chip
   let x := c.mem m
   let early := c.bypassed m = true ∨ (m = 0 ∧ ∃ u, x.lastInstall = some u ∧ c.tick < u + 6400000)
   s.chip.live = true ∧ memWords m ≠ 0 ∧ (x.installs = [] ∨ early)) ∧
  (let s : State := State.reset |> onMem 2 (fun x => { x with installs := [(5, true)] })
   let m : Nat := 2
   let a : Nat := 5
   let ue : Bool := true
   let l : List (Nat × Bool) := []
   let c := s.chip
   let x := c.mem m
   let early := c.bypassed m = true ∨ (m = 0 ∧ ∃ u, x.lastInstall = some u ∧ c.tick < u + 6400000)
   s.chip.live = true ∧ memWords m ≠ 0 ∧ x.installs = (a, ue) :: l ∧ ¬ early ∧ x.remaps.length < memSpares m) ∧
  (let s : State := State.reset |> onMem 2 (fun x => { x with installs := [(5, true)] }) |> onMem 2 (fun x => { x with remaps := List.range 32 })
   let m : Nat := 2
   let a : Nat := 5
   let ue : Bool := true
   let l : List (Nat × Bool) := []
   let c := s.chip
   let x := c.mem m
   let early := c.bypassed m = true ∨ (m = 0 ∧ ∃ u, x.lastInstall = some u ∧ c.tick < u + 6400000)
   s.chip.live = true ∧ memWords m ≠ 0 ∧ x.installs = (a, ue) :: l ∧ ¬ early ∧ memSpares m ≤ x.remaps.length) ∧
  (let s : State := State.reset
   let a : Nat := 2
   let c := s.chip
   s.chip.live = true ∧ a ∉ c.int.rebuild) ∧
  (let s : State := State.reset |> onInteg (fun i => { i with rebuild := [2, 63] })
   let m : Nat := 2
   let a : Nat := 2
   let c := s.chip
   s.chip.live = true ∧ a ∈ c.int.rebuild ∧ m = 2) ∧
  (let s : State := State.reset
   let m : Nat := 2
   let a : Nat := 2
   let c := s.chip
   let ents := roseEntries m a
   let off := (m = 3 ∨ m = 4) ∧ ∃ y ∈ ents, y ∈ c.rose.off
   s.chip.live = true ∧ ¬ off) ∧
  (let s : State := State.reset |> onRose (fun r => { r with off := [(0, 10), (1, 11), (0, 11), (3, 5)] })
   let m : Nat := 3
   let a : Nat := 5
   let c := s.chip
   let ents := roseEntries m a
   let off := (m = 3 ∨ m = 4) ∧ ∃ y ∈ ents, y ∈ c.rose.off
   s.chip.live = true ∧ off) := by
  refine ⟨?_, ?_, ?_, ?_, ?_, ?_, ?_, ?_, ?_, ?_, ?_⟩ <;>
    decide +kernel

theorem witness_SpareUnits :
  (let s : State := State.reset |> onInteg (fun i => { i with muAt := some (50, 7) }) |> mgrFld F.MGT_ROLE_ROLE 2
   let u : Nat := 1
   let p : Nat := 1
   let c := s.chip
   let i := c.int
   s.chip.live = true ∧ u < 2 ∧ p < 2 ∧ i.muAt ≠ none ∧ c.role = .installer) ∧
  (let s : State := State.reset
   let u : Nat := 0
   let p : Nat := 1
   let c := s.chip
   let i := c.int
   let unit := c.g F.INT_MU_ACTIVE
   let st := fun (n : Nat) => c.g (if n = 0 then F.INT_MU_A_STATE else F.INT_MU_B_STATE)
   let spare := st (1 - unit) = 0
   let mayTest := i.muAt = none ∧ spare
   s.chip.live = true ∧ u < 2 ∧ p < 2 ∧ mayTest) ∧
  (let s : State := State.reset |> mgrFld F.INT_MU_B_STATE 2
   let u : Nat := 1
   let p : Nat := 1
   let c := s.chip
   let i := c.int
   let unit := c.g F.INT_MU_ACTIVE
   let st := fun (n : Nat) => c.g (if n = 0 then F.INT_MU_A_STATE else F.INT_MU_B_STATE)
   let spare := st (1 - unit) = 0
   s.chip.live = true ∧ u < 2 ∧ p < 2 ∧ i.muAt = none ∧ ¬ spare) ∧
  (let s : State := State.reset |> mgrFld F.MGT_ROLE_ROLE 2
   let u : Nat := 0
   let p : Nat := 0
   let c := s.chip
   let i := c.int
   let unit := c.g F.INT_MU_ACTIVE
   let st := fun (n : Nat) => c.g (if n = 0 then F.INT_MU_A_STATE else F.INT_MU_B_STATE)
   let spare := st (1 - unit) = 0
   let mayTest := i.muAt = none ∧ spare
   s.chip.live = true ∧ u < 2 ∧ p < 2 ∧ mayTest ∧ c.role = .installer) ∧
  (let s : State := State.reset |> onInteg (fun i => { i with muAt := some (50, 7) })
   let u : Nat := 1
   let p : Nat := 1
   let c := s.chip
   let i := c.int
   let unit := c.g F.INT_MU_ACTIVE
   let st := fun (n : Nat) => c.g (if n = 0 then F.INT_MU_A_STATE else F.INT_MU_B_STATE)
   let spare := st (1 - unit) = 0
   let mayTest := i.muAt = none ∧ spare
   s.chip.live = true ∧ u < 2 ∧ p < 2 ∧ ¬ mayTest) ∧
  (let s : State := State.reset |> mgrFld F.INT_MU_A_STATE 2
   let u : Nat := 0
   let p : Nat := 1
   let c := s.chip
   let i := c.int
   let st := fun (n : Nat) => c.g (if n = 0 then F.INT_MU_A_STATE else F.INT_MU_B_STATE)
   let ended := st u = 2 ∧ (if u = 0 then i.muTestA else i.muTestB) ≤ c.tick
   s.chip.live = true ∧ u < 2 ∧ p < 2 ∧ ended) ∧
  (let s : State := State.reset
   let u : Nat := 1
   let p : Nat := 1
   let c := s.chip
   let i := c.int
   let st := fun (n : Nat) => c.g (if n = 0 then F.INT_MU_A_STATE else F.INT_MU_B_STATE)
   let ended := st u = 2 ∧ (if u = 0 then i.muTestA else i.muTestB) ≤ c.tick
   s.chip.live = true ∧ u < 2 ∧ p < 2 ∧ ¬ ended) ∧
  (let s : State := State.reset |> atTick 1280000100
   let u : Nat := 1
   let p : Nat := 1
   let c := s.chip
   let i := c.int
   let ckpt := i.coresUp = true ∧ i.ckptAt + max 50 (c.g F.INT_CKPT_CKPT_INT) * 640000 ≤ c.tick
   s.chip.live = true ∧ u < 2 ∧ p < 2 ∧ ckpt) ∧
  (let s : State := State.reset |> onInteg (fun i => { i with coresUp := false, rebootAt := some 100 })
   let u : Nat := 0
   let p : Nat := 1
   let c := s.chip
   let i := c.int
   let ckpt := i.coresUp = true ∧ i.ckptAt + max 50 (c.g F.INT_CKPT_CKPT_INT) * 640000 ≤ c.tick
   s.chip.live = true ∧ u < 2 ∧ p < 2 ∧ ¬ ckpt) ∧
  (let s : State := State.reset
   let u : Nat := 1
   let p : Nat := 0
   let c := s.chip
   let i := c.int
   let act := c.g F.INT_CORE_ACTIVE_PAIR
   let cfld := fun (n : Nat) => if n = 0 then F.INT_CORE_A_STATE else F.INT_CORE_B_STATE
   let cst := fun (n : Nat) => c.g (cfld n)
   s.chip.live = true ∧ u < 2 ∧ p < 2 ∧ p = act ∧ i.coresUp = true ∧ cst (1 - p) = 0) ∧
  (let s : State := State.reset |> mgrFld F.INT_CORE_ACTIVE_PAIR 1
   let u : Nat := 1
   let p : Nat := 1
   let c := s.chip
   let i := c.int
   let act := c.g F.INT_CORE_ACTIVE_PAIR
   let cfld := fun (n : Nat) => if n = 0 then F.INT_CORE_A_STATE else F.INT_CORE_B_STATE
   let cst := fun (n : Nat) => c.g (cfld n)
   s.chip.live = true ∧ u < 2 ∧ p < 2 ∧ p = act ∧ i.coresUp = true ∧ cst (1 - p) ≠ 0) ∧
  (let s : State := State.reset
   let u : Nat := 1
   let p : Nat := 1
   let c := s.chip
   let i := c.int
   let act := c.g F.INT_CORE_ACTIVE_PAIR
   let cfld := fun (n : Nat) => if n = 0 then F.INT_CORE_A_STATE else F.INT_CORE_B_STATE
   let cst := fun (n : Nat) => c.g (cfld n)
   s.chip.live = true ∧ u < 2 ∧ p < 2 ∧ p ≠ act ∧ cst p = 0 ∧ i.failAt = none) ∧
  (let s : State := State.reset |> onInteg (fun i => { i with coresUp := false, failAt := some 100 })
   let u : Nat := 0
   let p : Nat := 1
   let c := s.chip
   let i := c.int
   let act := c.g F.INT_CORE_ACTIVE_PAIR
   let cfld := fun (n : Nat) => if n = 0 then F.INT_CORE_A_STATE else F.INT_CORE_B_STATE
   let cst := fun (n : Nat) => c.g (cfld n)
   s.chip.live = true ∧ u < 2 ∧ p < 2 ∧ p ≠ act ∧ cst p = 0 ∧ i.failAt ≠ none) ∧
  (let s : State := State.reset |> mgrFld F.INT_CORE_B_STATE 3
   let u : Nat := 0
   let p : Nat := 1
   let c := s.chip
   let i := c.int
   let act := c.g F.INT_CORE_ACTIVE_PAIR
   let cfld := fun (n : Nat) => if n = 0 then F.INT_CORE_A_STATE else F.INT_CORE_B_STATE
   let cst := fun (n : Nat) => c.g (cfld n)
   s.chip.live = true ∧ u < 2 ∧ p < 2 ∧ ((p = act ∧ i.coresUp = false) ∨ (p ≠ act ∧ cst p ≠ 0))) ∧
  (let s : State := State.reset |> onInteg (fun i => { i with failAt := some 100 }) |> atTick 1280000100
   let u : Nat := 1
   let p : Nat := 0
   let t : Nat := 100
   let c := s.chip
   let i := c.int
   let due := i.failAt = some t ∧ t + 1280000000 ≤ c.tick
   s.chip.live = true ∧ u < 2 ∧ p < 2 ∧ due) ∧
  (let s : State := State.reset
   let u : Nat := 0
   let p : Nat := 1
   let t : Nat := 0
   let c := s.chip
   let i := c.int
   s.chip.live = true ∧ u < 2 ∧ p < 2 ∧ (i.failAt = none ∨ (i.failAt = some t ∧ c.tick < t + 1280000000))) ∧
  (let s : State := State.reset |> mgrFld F.INT_CORE_B_STATE 2 |> onInteg (fun i => { i with coreTestB := 100 })
   let u : Nat := 1
   let p : Nat := 1
   let c := s.chip
   let i := c.int
   let cfld := fun (n : Nat) => if n = 0 then F.INT_CORE_A_STATE else F.INT_CORE_B_STATE
   let cst := fun (n : Nat) => c.g (cfld n)
   let ctest := cst p = 2 ∧ (if p = 0 then i.coreTestA else i.coreTestB) ≠ 0
   s.chip.live = true ∧ u < 2 ∧ p < 2 ∧ ctest) ∧
  (let s : State := State.reset |> mgrFld F.INT_CORE_B_STATE 2 |> onInteg (fun i => { i with coreTestB := 100 })
   let u : Nat := 1
   let p : Nat := 1
   let c := s.chip
   let i := c.int
   let act := c.g F.INT_CORE_ACTIVE_PAIR
   let cfld := fun (n : Nat) => if n = 0 then F.INT_CORE_A_STATE else F.INT_CORE_B_STATE
   let cst := fun (n : Nat) => c.g (cfld n)
   let ctest := cst p = 2 ∧ (if p = 0 then i.coreTestA else i.coreTestB) ≠ 0
   s.chip.live = true ∧ u < 2 ∧ p < 2 ∧ ctest ∧ (i.rebootAt = none ∨ p ≠ act)) ∧
  (let s : State := State.reset |> mgrFld F.INT_CORE_A_STATE 2 |> onInteg (fun i => { i with coresUp := false, rebootAt := some 100 })
    |> onInteg (fun i => { i with coreTestA := 100 })
   let u : Nat := 0
   let p : Nat := 0
   let c := s.chip
   let i := c.int
   let act := c.g F.INT_CORE_ACTIVE_PAIR
   let cfld := fun (n : Nat) => if n = 0 then F.INT_CORE_A_STATE else F.INT_CORE_B_STATE
   let cst := fun (n : Nat) => c.g (cfld n)
   let ctest := cst p = 2 ∧ (if p = 0 then i.coreTestA else i.coreTestB) ≠ 0
   s.chip.live = true ∧ u < 2 ∧ p < 2 ∧ ctest ∧ i.rebootAt ≠ none ∧ p = act) ∧
  (let s : State := State.reset
   let u : Nat := 0
   let p : Nat := 1
   let c := s.chip
   let i := c.int
   let cfld := fun (n : Nat) => if n = 0 then F.INT_CORE_A_STATE else F.INT_CORE_B_STATE
   let cst := fun (n : Nat) => c.g (cfld n)
   let ctest := cst p = 2 ∧ (if p = 0 then i.coreTestA else i.coreTestB) ≠ 0
   s.chip.live = true ∧ u < 2 ∧ p < 2 ∧ ¬ ctest) ∧
  (let s : State := State.reset |> mgrFld F.INT_CORE_A_STATE 2 |> onInteg (fun i => { i with coresUp := false, rebootAt := some 100 })
   let u : Nat := 1
   let p : Nat := 1
   let c := s.chip
   let i := c.int
   let act := c.g F.INT_CORE_ACTIVE_PAIR
   let cfld := fun (n : Nat) => if n = 0 then F.INT_CORE_A_STATE else F.INT_CORE_B_STATE
   let cst := fun (n : Nat) => c.g (cfld n)
   let reboots := i.rebootAt ≠ none ∧ cst act = 2 ∧ (if act = 0 then i.coreTestA else i.coreTestB) = 0
   s.chip.live = true ∧ u < 2 ∧ p < 2 ∧ reboots ∧ i.coresUp = false) ∧
  (let s : State := State.reset
   let u : Nat := 0
   let p : Nat := 1
   let c := s.chip
   let i := c.int
   let act := c.g F.INT_CORE_ACTIVE_PAIR
   let cfld := fun (n : Nat) => if n = 0 then F.INT_CORE_A_STATE else F.INT_CORE_B_STATE
   let cst := fun (n : Nat) => c.g (cfld n)
   let reboots := i.rebootAt ≠ none ∧ cst act = 2 ∧ (if act = 0 then i.coreTestA else i.coreTestB) = 0
   s.chip.live = true ∧ u < 2 ∧ p < 2 ∧ ¬ reboots) := by
  refine ⟨?_, ?_, ?_, ?_, ?_, ?_, ?_, ?_, ?_, ?_, ?_, ?_, ?_, ?_, ?_, ?_, ?_, ?_, ?_, ?_, ?_, ?_⟩ <;>
    decide +kernel

theorem witness_MemoryStacks :
  (let s : State := State.reset
   let k : Nat := 1
   let t : Int := 106
   let c := s.chip
   let x := c.stack k
   let out := F.INT_TEMP_OUT.ix 4 k
   let loses := c.b out = false ∧ x.sefiAt = none
   s.chip.live = true ∧ k < 8 ∧ -128 ≤ t ∧ t < 128 ∧ loses) ∧
  (let s : State := State.reset |> onStack 1 (fun x => { x with sefiAt := some 5, fails := [60, 50] })
   let k : Nat := 1
   let t : Int := 100
   let c := s.chip
   let x := c.stack k
   let out := F.INT_TEMP_OUT.ix 4 k
   let loses := c.b out = false ∧ x.sefiAt = none
   s.chip.live = true ∧ k < 8 ∧ -128 ≤ t ∧ t < 128 ∧ ¬ loses) ∧
  (let s : State := State.reset
   let k : Nat := 1
   let t : Int := 106
   let c := s.chip
   let x := c.stack k
   s.chip.live = true ∧ k < 8 ∧ -128 ≤ t ∧ t < 128 ∧ x.sefiAt = none) ∧
  (let s : State := State.reset |> onStack 1 (fun x => { x with sefiAt := some 5, fails := [60, 50] })
   let k : Nat := 1
   let t0 : Nat := 5
   let t : Int := 100
   let c := s.chip
   let x := c.stack k
   s.chip.live = true ∧ k < 8 ∧ -128 ≤ t ∧ t < 128 ∧ x.sefiAt = some t0) ∧
  (let s : State := State.reset |> onStack 1 (fun x => { x with sefiAt := some 5 })
   let k : Nat := 1
   let t0 : Nat := 5
   let t : Int := 105
   let c := s.chip
   let x := c.stack k
   let fails := c.tick :: x.fails.filter (fun n => decide (c.tick < n + 640000000))
   s.chip.live = true ∧ k < 8 ∧ -128 ≤ t ∧ t < 128 ∧ x.sefiAt = some t0 ∧ fails.length < 3) ∧
  (let s : State := State.reset |> onStack 1 (fun x => { x with sefiAt := some 5, fails := [60, 50] })
   let k : Nat := 1
   let t0 : Nat := 5
   let t : Int := 105
   let c := s.chip
   let x := c.stack k
   let fails := c.tick :: x.fails.filter (fun n => decide (c.tick < n + 640000000))
   s.chip.live = true ∧ k < 8 ∧ -128 ≤ t ∧ t < 128 ∧ x.sefiAt = some t0 ∧ 3 ≤ fails.length) ∧
  (let s : State := State.reset |> onStack 1 (fun x => { x with readAt := 100 })
   let k : Nat := 1
   let t : Int := 105
   let c := s.chip
   let x := c.stack k
   s.chip.live = true ∧ k < 8 ∧ -128 ≤ t ∧ t < 128 ∧ c.tick < x.readAt) ∧
  (let s : State := State.reset
   let k : Nat := 1
   let t : Int := 106
   let c := s.chip
   let x := c.stack k
   s.chip.live = true ∧ k < 8 ∧ -128 ≤ t ∧ t < 128 ∧ x.readAt ≤ c.tick) ∧
  (let s : State := State.reset |> onStack 1 (fun x => { x with ces := List.replicate 10001 60 })
   let k : Nat := 1
   let t : Int := 100
   let c := s.chip
   let x := c.stack k
   let temp := F.INT_TEMP_TEMP.ix 4 k
   let dose := F.INT_TEMP_DOSE_REF.ix 4 k
   let beats := (x.ces.filter (fun n => decide (c.tick < n + 2304000000000))).length
   let rises := c.b dose = false ∧ c.b F.INT_CTL_ADAPT_REF = true ∧ 10000 < beats ∧ signedOf 8 (c.g temp) ≤ 105
   s.chip.live = true ∧ k < 8 ∧ -128 ≤ t ∧ t < 128 ∧ rises) ∧
  (let s : State := State.reset |> mgrFld (F.INT_TEMP_DOSE_REF.ix 4 1) 1 |> atTick 55296000000049
   let k : Nat := 1
   let t : Int := 99
   let c := s.chip
   let x := c.stack k
   let dose := F.INT_TEMP_DOSE_REF.ix 4 k
   let beats := (x.ces.filter (fun n => decide (c.tick < n + 2304000000000))).length
   let falls := c.b dose = true ∧ (c.b F.INT_CTL_ADAPT_REF = false ∨ (beats < 2000 ∧ x.highUntil + 55296000000000 ≤ c.tick))
   s.chip.live = true ∧ k < 8 ∧ -128 ≤ t ∧ t < 128 ∧ falls) ∧
  (let s : State := State.reset
   let k : Nat := 1
   let t : Int := 106
   let c := s.chip
   let x := c.stack k
   let temp := F.INT_TEMP_TEMP.ix 4 k
   let dose := F.INT_TEMP_DOSE_REF.ix 4 k
   let beats := (x.ces.filter (fun n => decide (c.tick < n + 2304000000000))).length
   let rises := c.b dose = false ∧ c.b F.INT_CTL_ADAPT_REF = true ∧ 10000 < beats ∧ signedOf 8 (c.g temp) ≤ 105
   let falls := c.b dose = true ∧ (c.b F.INT_CTL_ADAPT_REF = false ∨ (beats < 2000 ∧ x.highUntil + 55296000000000 ≤ c.tick))
   s.chip.live = true ∧ k < 8 ∧ -128 ≤ t ∧ t < 128 ∧ ¬ rises ∧ ¬ falls) := by
  refine ⟨?_, ?_, ?_, ?_, ?_, ?_, ?_, ?_, ?_, ?_, ?_⟩ <;>
    decide +kernel

theorem witness_SelfTestAndBypass :
  (let s : State := State.reset |> mgrFld F.MGT_ROLE_ROLE 2 |> onInteg (fun i => { i with stup := some true })
   let c := s.chip
   let i := c.int
   let inst := c.role = .installer
   s.chip.live = true ∧ inst ∧ (c.run = true ∨ i.stup ≠ none)) ∧
  (let s : State := State.reset |> mgrFld F.MGT_ROLE_ROLE 2
   let c := s.chip
   let i := c.int
   let inst := c.role = .installer
   s.chip.live = true ∧ inst ∧ c.run = false ∧ i.stup = none) ∧
  (let s : State := State.reset
   let c := s.chip
   let i := c.int
   s.chip.live = true ∧ i.stup = none) ∧
  (let s : State := State.reset |> onInteg (fun i => { i with stup := some true })
   let stup : Bool := true
   let c := s.chip
   let i := c.int
   s.chip.live = true ∧ i.stup = some stup ∧ ((∀ j, j < 8 → c.b (F.INT_TEMP_OUT.ix 4 j) = false))) ∧
  (let s : State := State.reset |> onInteg (fun i => { i with stup := some false })
   let find : StupFind := { bad := [], checkers := [], badStacks := 386, corrupt := [] }
   let stup : Bool := false
   let c := s.chip
   let i := c.int
   s.chip.live = true ∧ i.stup = some stup ∧ find.badStacks % 256 ≠ 0) ∧
  (let s : State := State.reset |> mgrFld F.MGT_ROLE_ROLE 2 |> mgrFld F.GBL_CTL_RUN_EN 1
   let v : Word := 0xe0000000#32
   let c := s.chip
   let may := c.role = .installer ∨ c.role = .maker
   let go := F.INT_BYP_CTL_GO.of v ≠ 0
   let en := F.INT_BYP_CTL_BYP_EN.of v ≠ 0
   s.chip.live = true ∧ may ∧ c.run = true ∧ (go ∨ en)) ∧
  (let s : State := State.reset |> mgrFld F.MGT_ROLE_ROLE 2
   let v : Word := 0x200b0000#32
   let c := s.chip
   let may := c.role = .installer ∨ c.role = .maker
   let go := F.INT_BYP_CTL_GO.of v ≠ 0
   let en := F.INT_BYP_CTL_BYP_EN.of v ≠ 0
   s.chip.live = true ∧ may ∧ ¬ go ∧ (c.run = false ∨ ¬ en)) ∧
  (let s : State := State.reset |> mgrFld F.MGT_ROLE_ROLE 2
   let v : Word := 0x60100000#32
   let c := s.chip
   let may := c.role = .installer ∨ c.role = .maker
   let go := F.INT_BYP_CTL_GO.of v ≠ 0
   let en := F.INT_BYP_CTL_BYP_EN.of v ≠ 0
   s.chip.live = true ∧ may ∧ c.run = false ∧ go ∧ ¬ en) ∧
  (let s : State := State.reset |> mgrFld F.MGT_ROLE_ROLE 2
   let v : Word := 0xe0100000#32
   let c := s.chip
   let may := c.role = .installer ∨ c.role = .maker
   let go := F.INT_BYP_CTL_GO.of v ≠ 0
   let en := F.INT_BYP_CTL_BYP_EN.of v ≠ 0
   let wr := F.INT_BYP_CTL_WR.of v ≠ 0
   let m := F.INT_BYP_CTL_MEM.of v
   let a := c.g F.INT_BYP_ADDR_ADDR
   s.chip.live = true ∧ may ∧ c.run = false ∧ go ∧ en ∧ wr ∧ wordExists m a = true) ∧
  (let s : State := State.reset |> mgrFld F.MGT_ROLE_ROLE 3 |> mgrFld F.INT_BYP_ADDR_ADDR 5
    |> onMem 16 (fun x => { x with errs := [(5, ⟨true, 3, 0⟩)] })
   let v : Word := 0xc0100000#32
   let c := s.chip
   let may := c.role = .installer ∨ c.role = .maker
   let go := F.INT_BYP_CTL_GO.of v ≠ 0
   let en := F.INT_BYP_CTL_BYP_EN.of v ≠ 0
   let wr := F.INT_BYP_CTL_WR.of v ≠ 0
   let m := F.INT_BYP_CTL_MEM.of v
   let a := c.g F.INT_BYP_ADDR_ADDR
   let e := c.eccAt m a
   s.chip.live = true ∧ may ∧ c.run = false ∧ go ∧ en ∧ ¬ wr ∧ wordExists m a = true ∧ e.known = true) ∧
  (let s : State := State.reset |> mgrFld F.MGT_ROLE_ROLE 2
   let v : Word := 0xe00b0000#32
   let c := s.chip
   let may := c.role = .installer ∨ c.role = .maker
   let go := F.INT_BYP_CTL_GO.of v ≠ 0
   let en := F.INT_BYP_CTL_BYP_EN.of v ≠ 0
   let m := F.INT_BYP_CTL_MEM.of v
   let a := c.g F.INT_BYP_ADDR_ADDR
   s.chip.live = true ∧ may ∧ c.run = false ∧ go ∧ en ∧ wordExists m a = false) := by
  refine ⟨?_, ?_, ?_, ?_, ?_, ?_, ?_, ?_, ?_, ?_, ?_⟩ <;>
    decide +kernel

theorem witness_ChartSlots :
  (let s : State := mgrFld F.MGT_ROLE_ROLE 2 State.reset |> mgrFld F.GBL_STAT_CHART_OK 1
   let k : Nat := 0
   let c := s.chip
   let active := c.isActive k = true
   s.chip.live = true ∧ k < 4 ∧ s.chip.role = .installer ∧ active) ∧
  (let s : State := mgrFld F.MGT_ROLE_ROLE 2 State.reset |> mgrFld F.LOG_STAT_NVM_FAIL 1
   let k : Nat := 1
   let c := s.chip
   let active := c.isActive k = true
   let dead := c.b F.LOG_STAT_NVM_FAIL = true
   s.chip.live = true ∧ k < 4 ∧ s.chip.role = .installer ∧ ¬ active ∧ dead) ∧
  (let s : State := mgrFld F.MGT_ROLE_ROLE 2 State.reset |> onChip withKey
   let k : Nat := 1
   let why : Reason := (21, 0)
   let c := s.chip
   let len := c.g F.GBL_STG_LEN_LEN
   let img := if len ≤ 4194304 then sliceBytes c.mgt.stgChart 0 len else []
   let active := c.isActive k = true
   let dead := c.b F.LOG_STAT_NVM_FAIL = true
   s.chip.live = true ∧ k < 4 ∧ s.chip.role = .installer ∧ ¬ active ∧ ¬ dead ∧ c.verifyChart img len = some why) ∧
  (let s : State := mgrFld F.MGT_ROLE_ROLE 2 State.reset
   let k : Nat := 1
   let c := s.chip
   let active := c.isActive k = true
   let dead := c.b F.LOG_STAT_NVM_FAIL = true
   s.chip.live = true ∧ k < 4 ∧ s.chip.role = .installer ∧ ¬ active ∧ ¬ dead) ∧
  (let s : State := mgrFld F.MGT_ROLE_ROLE 2 State.reset |> mgrFld F.GBL_CTL_RUN_EN 1
   let k : Nat := 1
   let c := s.chip
   let busy := c.run = true ∨ c.b F.GBL_STAT_CHECK_BUSY = true
   s.chip.live = true ∧ k < 4 ∧ s.chip.role = .installer ∧ busy) ∧
  (let s : State := mgrFld F.MGT_ROLE_ROLE 2 State.reset
   let k : Nat := 2
   let why : Reason := (21, 0)
   let c := s.chip
   let held := (c.chart k).image
   let busy := c.run = true ∨ c.b F.GBL_STAT_CHECK_BUSY = true
   s.chip.live = true ∧ k < 4 ∧ s.chip.role = .installer ∧ ¬ busy ∧ c.verifyChart held held.length = some why) := by
  refine ⟨?_, ?_, ?_, ?_, ?_, ?_⟩ <;>
    decide +kernel

theorem witness_ChartAndRun :
  (let s : State := State.reset |> mgrFld F.GBL_STAT_CHART_OK 1
   let k : Nat := 0
   let j : Nat := 2
   let c := s.chip
   let still := c.b F.GBL_STAT_CHART_OK = true ∨ c.b F.MGT_STAT_RECOVERY = true ∨ c.int.coresUp = false ∨ ∀ n, n < 4 → (c.chart n).state ≠ slotValid
   let small := ∀ n, c.nvm.primary = some n ∨ c.nvm.fallback = some n → n < 4
   s.chip.live = true ∧ k < 4 ∧ j < 4 ∧ j ≠ k ∧ small ∧ still) ∧
  (let s : State := State.reset
   let k : Nat := 0
   let j : Nat := 1
   let c := s.chip
   let due := c.b F.GBL_STAT_CHART_OK = true ∧ c.pwr.digestAt + 2304000000000 ≤ c.tick ∧ c.int.coresUp = true
   s.chip.live = true ∧ k < 4 ∧ j < 4 ∧ j ≠ k ∧ ¬ due) ∧
  (let s : State := State.reset |> mgrFld F.GBL_STAT_CHART_OK 1 |> atTick 2304000000000
   let k : Nat := 0
   let j : Nat := 1
   let c := s.chip
   let due := c.b F.GBL_STAT_CHART_OK = true ∧ c.pwr.digestAt + 2304000000000 ≤ c.tick ∧ c.int.coresUp = true
   s.chip.live = true ∧ k < 4 ∧ j < 4 ∧ j ≠ k ∧ due) ∧
  (let s : State := State.reset |> mgrFld F.GBL_STAT_CHART_OK 1 |> atTick 2304000000000
   let k : Nat := 0
   let j : Nat := 1
   let ok : Bool := true
   let c := s.chip
   let due := c.b F.GBL_STAT_CHART_OK = true ∧ c.pwr.digestAt + 2304000000000 ≤ c.tick ∧ c.int.coresUp = true
   let writes := c.b F.LOG_STAT_NVM_FAIL = false ∧ ok = true
   s.chip.live = true ∧ k < 4 ∧ j < 4 ∧ j ≠ k ∧ due ∧ writes) ∧
  (let s : State := State.reset |> mgrFld F.GBL_STAT_CHART_OK 1 |> atTick 2304000000000
   let k : Nat := 0
   let j : Nat := 1
   let ok : Bool := false
   let c := s.chip
   let due := c.b F.GBL_STAT_CHART_OK = true ∧ c.pwr.digestAt + 2304000000000 ≤ c.tick ∧ c.int.coresUp = true
   let writes := c.b F.LOG_STAT_NVM_FAIL = false ∧ ok = true
   s.chip.live = true ∧ k < 4 ∧ j < 4 ∧ j ≠ k ∧ due ∧ ¬ writes) ∧
  (let s : State := State.reset |> mgrFld F.MGT_ROLE_ROLE 1 |> mgrFld F.GBL_CTL_RUN_EN 1
   let c := s.chip
   let may := c.role = .operator ∨ c.role = .installer
   let busy := c.b F.GBL_STAT_CHECK_BUSY = true
   s.chip.live = true ∧ may ∧ (c.run = true ∨ busy)) ∧
  (let s : State := State.reset |> mgrFld F.MGT_ROLE_ROLE 2
   let c := s.chip
   let may := c.role = .operator ∨ c.role = .installer
   let busy := c.b F.GBL_STAT_CHECK_BUSY = true
   s.chip.live = true ∧ may ∧ c.run = false ∧ ¬ busy) ∧
  (let s : State := State.reset |> mgrFld F.MGT_ROLE_ROLE 2 |> mgrFld F.GBL_STAT_CHECK_BUSY 1
   let c := s.chip
   let may := c.role = .operator ∨ c.role = .installer
   let busy := c.b F.GBL_STAT_CHECK_BUSY = true
   s.chip.live = true ∧ may ∧ busy) ∧
  (let s : State := State.reset |> mgrFld F.MGT_ROLE_ROLE 1
   let c := s.chip
   let may := c.role = .operator ∨ c.role = .installer
   let busy := c.b F.GBL_STAT_CHECK_BUSY = true
   s.chip.live = true ∧ may ∧ ¬ busy ∧ c.run = false) ∧
  (let s : State := State.reset |> mgrFld F.MGT_ROLE_ROLE 1 |> mgrFld F.GBL_CTL_RUN_EN 1
   let c := s.chip
   let may := c.role = .operator ∨ c.role = .installer
   let busy := c.b F.GBL_STAT_CHECK_BUSY = true
   s.chip.live = true ∧ may ∧ ¬ busy ∧ c.run = true) ∧
  (let s : State := State.reset
   let c := s.chip
   let busy := c.b F.GBL_STAT_CHECK_BUSY = true
   s.chip.live = true ∧ ¬ busy) ∧
  (let s : State := runState
   let c := s.chip
   let busy := c.b F.GBL_STAT_CHECK_BUSY = true
   let r := Check.reason c (ilkView s.saf)
   s.chip.live = true ∧ busy ∧ r.1 = 0) ∧
  (let s : State := State.reset |> mgrFld F.GBL_STAT_CHECK_BUSY 1
   let c := s.chip
   let busy := c.b F.GBL_STAT_CHECK_BUSY = true
   let r := Check.reason c (ilkView s.saf)
   s.chip.live = true ∧ busy ∧ r.1 ≠ 0) ∧
  (let s : State := State.reset |> mgrFld F.MGT_ROLE_ROLE 1 |> setWork (image [(11, 4, 4, 10), (11, 8, 4, 1000)])
   let v : Word := 1000#32
   let c := s.chip
   let may := c.role = .operator ∨ c.role = .installer
   let fits := limOccLo c.work ≤ v.toNat ∧ v.toNat ≤ limOccHi c.work
   s.chip.live = true ∧ may ∧ fits) ∧
  (let s : State := State.reset |> mgrFld F.MGT_ROLE_ROLE 1 |> setWork (image [(11, 4, 4, 10), (11, 8, 4, 1000)])
   let v : Word := 9#32
   let c := s.chip
   let may := c.role = .operator ∨ c.role = .installer
   let fits := limOccLo c.work ≤ v.toNat ∧ v.toNat ≤ limOccHi c.work
   s.chip.live = true ∧ may ∧ ¬ fits) := by
  refine ⟨?_, ?_, ?_, ?_, ?_, ?_, ?_, ?_, ?_, ?_, ?_, ?_, ?_, ?_, ?_⟩
  · repeat' apply And.intro
    all_goals first
      | decide +kernel
      | (intro i h; cases h; exact ⟨_, rfl⟩)
      | (intro i h; cases h; done)
      | (intro i j h; cases h; done)
      | (intro i; rfl)
      | (rintro ⟨h, -⟩; revert h; decide +kernel)
      | (rintro ⟨-, h⟩; revert h; decide +kernel)
      | (rintro (⟨_, h⟩ | ⟨_, h⟩) <;> cases h; done)
      | (rintro _ (h | h) <;> cases h; done)
      | (rintro _ (h | h) <;> cases h <;> decide)
      | exact Or.inl (by decide +kernel)
      | exact Or.inr (by decide +kernel)
      | exact Or.inl (by rintro (⟨_, h⟩ | ⟨_, h⟩) <;> cases h)
      | exact rfl
      | exact And.intro rfl rfl
      | exact fun (h : _ ∧ _) => absurd h (by decide +kernel)
      | exact fun (h : _ = _) => absurd h (by decide +kernel)
  · decide +kernel
  · decide +kernel
  · decide +kernel
  · decide +kernel
  · decide +kernel
  · decide +kernel
  · decide +kernel
  · decide +kernel
  · decide +kernel
  · decide +kernel
  · decide +kernel
  · decide +kernel
  · decide +kernel
  · decide +kernel

theorem witness_UncorrectableReads :
  (let s : State := roseBase State.reset
   let p : Nat := 1
   let c := s.chip
   s.chip.live = true ∧ c.dcq p = []) ∧
  (let s : State := roseBase State.reset |> atFront 0 [.block (mkPktStart 2 0 5 3), .block (dataB 3)]
   let p : Nat := 0
   let b : Block := { hdr := 0x2#2, pay := 0xaa1000503000000000000000000001#120 }
   let r : List RxItem := [.block { hdr := 0x1#2, pay := 0x000000000000000000000000000003#120 }]
   let c := s.chip
   s.chip.live = true ∧ c.dcq p = .block b :: r ∧ (∀ i ∈ r.head?, ∃ b', i = .block b')) ∧
  (let s : State := roseBase State.reset
   let e : Nat := 0
   let c := s.chip
   let x := c.engOf e
   let reads := ((x.inputs.drop x.input).filter (fun w => decide (w < 0x8000))).map streamQueue
   let bucket := fun (d : Chip) (q : Nat) => AMap.get (always []) (d.lq q).buckets x.bucket
   let first := reads.find? (fun q => bucket c q ≠ [])
   s.chip.live = true ∧ first = none) ∧
  (let s : State := roseBase State.reset |> onLq 8 (fun x => { x with buckets := [(3, [.hit false 5 6, .sight 3 4, .hit true 9 9])] })
   let e : Nat := 0
   let q : Nat := 8
   let c := s.chip
   let x := c.engOf e
   let reads := ((x.inputs.drop x.input).filter (fun w => decide (w < 0x8000))).map streamQueue
   let bucket := fun (d : Chip) (q : Nat) => AMap.get (always []) (d.lq q).buckets x.bucket
   let first := reads.find? (fun q => bucket c q ≠ [])
   s.chip.live = true ∧ first = some q) ∧
  (let s : State := roseBase State.reset
   let e : Nat := 0
   let c := s.chip
   s.chip.live = true ∧ c.win e = none) ∧
  (let s : State := roseBase State.reset
    |> onWake (fun w => { w with windows := [(0, some window0), (7, some { window0 with ready := some (0, 5), outst := [⟨3, 1, 50, false⟩] })] })
   let e : Nat := 7
   let w : Window := { group := 0, lo := 10, hi := 50, st := WinSt.waiting, partial_ := false, marks := 1, outst := [{ id := 3, slot := 1, sent := 50, done := false }], serial := 0, ready := some (0, 5), mstate := 2 }
   let c := s.chip
   s.chip.live = true ∧ c.win e = some w) ∧
  (let s : State := roseBase State.reset
   let l : Nat := 0
   let c := s.chip
   s.chip.live = true ∧ (c.lane l).resend = []) ∧
  (let s : State := roseBase State.reset |> onLane 2 (fun x => { x with resend := [frame0 5 2, frame0 6 2] })
   let l : Nat := 2
   let f : Frame := { lane := 0, seq := 5, ftype := FType.watch, dest := 0, hdr := List.replicate 64 0x07#8, pay := [0x01#8, 0x02#8], pages := [], phys := 2, sentAt := 50 }
   let fs : List Frame := [{ lane := 0, seq := 6, ftype := FType.watch, dest := 0, hdr := List.replicate 64 0x07#8, pay := [0x01#8, 0x02#8], pages := [], phys := 2, sentAt := 50 }]
   let c := s.chip
   s.chip.live = true ∧ (c.lane l).resend = f :: fs) := by
  refine ⟨?_, ?_, ?_, ?_, ?_, ?_, ?_, ?_⟩
  · repeat' apply And.intro
    all_goals first
      | decide +kernel
      | (intro i h; cases h; exact ⟨_, rfl⟩)
      | (intro i h; cases h; done)
      | (intro i j h; cases h; done)
      | (intro i; rfl)
      | (rintro ⟨h, -⟩; revert h; decide +kernel)
      | (rintro ⟨-, h⟩; revert h; decide +kernel)
      | (rintro (⟨_, h⟩ | ⟨_, h⟩) <;> cases h; done)
      | (rintro _ (h | h) <;> cases h; done)
      | (rintro _ (h | h) <;> cases h <;> decide)
      | exact Or.inl (by decide +kernel)
      | exact Or.inr (by decide +kernel)
      | exact Or.inl (by rintro (⟨_, h⟩ | ⟨_, h⟩) <;> cases h)
      | exact rfl
      | exact And.intro rfl rfl
      | exact fun (h : _ ∧ _) => absurd h (by decide +kernel)
      | exact fun (h : _ = _) => absurd h (by decide +kernel)
  · repeat' apply And.intro
    all_goals first
      | decide +kernel
      | (intro i h; cases h; exact ⟨_, rfl⟩)
      | (intro i h; cases h; done)
      | (intro i j h; cases h; done)
      | (intro i; rfl)
      | (rintro ⟨h, -⟩; revert h; decide +kernel)
      | (rintro ⟨-, h⟩; revert h; decide +kernel)
      | (rintro (⟨_, h⟩ | ⟨_, h⟩) <;> cases h; done)
      | (rintro _ (h | h) <;> cases h; done)
      | (rintro _ (h | h) <;> cases h <;> decide)
      | exact Or.inl (by decide +kernel)
      | exact Or.inr (by decide +kernel)
      | exact Or.inl (by rintro (⟨_, h⟩ | ⟨_, h⟩) <;> cases h)
      | exact rfl
      | exact And.intro rfl rfl
      | exact fun (h : _ ∧ _) => absurd h (by decide +kernel)
      | exact fun (h : _ = _) => absurd h (by decide +kernel)
  · decide +kernel
  · decide +kernel
  · decide +kernel
  · decide +kernel
  · decide +kernel
  · decide +kernel

theorem witness_HkConversions :
  (let s : State := State.reset |> onConvA (fun x => { x with ph := .settle 100, slot := 1 }) |> atTick 10000000
   let x : Nat := 0
   let till : Nat := 100
   let k : Nat := 30
   let c := s.chip
   let y := c.conv x
   let settled := y.ph = .settle till ∧ till ≤ c.tick ∧ c.hkStopped = false
   s.chip.live = true ∧ x < 2 ∧ k < 40 ∧ settled) ∧
  (let s : State := State.reset
   let x : Nat := 1
   let k : Nat := 3
   let c := s.chip
   let y := c.conv x
   s.chip.live = true ∧ x < 2 ∧ k < 40 ∧ ((∀ n, y.ph = .settle n → c.tick < n ∨ c.hkStopped = true))) ∧
  (let s : State := State.reset |> onConvA (fun x => { x with ph := .integ 100, slot := 0 }) |> atTick 1920050
   let x : Nat := 0
   let till : Nat := 100
   let k : Nat := 0
   let c := s.chip
   let y := c.conv x
   let ended := y.ph = .integ till ∧ till + 128 ≤ c.tick
   s.chip.live = true ∧ x < 2 ∧ k < 40 ∧ ended) ∧
  (let s : State := State.reset
   let x : Nat := 0
   let k : Nat := 39
   let c := s.chip
   s.chip.live = true ∧ x < 2 ∧ k < 40 ∧ c.hk.fifo.length ≤ 256) ∧
  (let s : State := State.reset |> onHk (fun h => { h with fifo := List.replicate 300 res0 })
   let x : Nat := 1
   let k : Nat := 3
   let c := s.chip
   s.chip.live = true ∧ x < 2 ∧ k < 40 ∧ 256 < c.hk.fifo.length) ∧
  (let s : State := State.reset
   let x : Nat := 1
   let k : Nat := 3
   let c := s.chip
   let y := c.conv x
   s.chip.live = true ∧ x < 2 ∧ k < 40 ∧ ((∀ n, y.ph = .integ n → c.tick < n + 128))) ∧
  (let s : State := State.reset
   let x : Nat := 1
   let k : Nat := 3
   let c := s.chip
   let skip := c.b F.HK_STAT_SLOPE_B = false ∨ 9 ∈ c.pwr.brown ∨ c.tick < c.hk.subAt + c.subTicks
   s.chip.live = true ∧ x < 2 ∧ k < 40 ∧ skip) ∧
  (let s : State := State.reset |> mgrFld F.HK_STAT_SLOPE_B 1 |> atTick 1920051
   let x : Nat := 1
   let k : Nat := 30
   let c := s.chip
   let skip := c.b F.HK_STAT_SLOPE_B = false ∨ 9 ∈ c.pwr.brown ∨ c.tick < c.hk.subAt + c.subTicks
   s.chip.live = true ∧ x < 2 ∧ k < 40 ∧ ¬ skip) ∧
  (let s : State := State.reset
   let x : Nat := 1
   let k : Nat := 3
   let c := s.chip
   s.chip.live = true ∧ x < 2 ∧ k < 40 ∧ AMap.get (always none) c.hk.last k = none) ∧
  (let s : State := State.reset |> onHk (fun h => { h with last := [(0, some res0), (30, some { res0 with w0 := 0x80000000 })] })
   let x : Nat := 1
   let k : Nat := 0
   let r : HkRes := { w0 := 3221225472, w1 := 2, w2 := 3, w3 := 4, at_ := 5, when := 5 }
   let c := s.chip
   s.chip.live = true ∧ x < 2 ∧ k < 40 ∧ AMap.get (always none) c.hk.last k = some r) := by
  refine ⟨?_, ?_, ?_, ?_, ?_, ?_, ?_, ?_, ?_, ?_⟩
  · decide +kernel
  · repeat' apply And.intro
    all_goals first
      | decide +kernel
      | (intro i h; cases h; exact ⟨_, rfl⟩)
      | (intro i h; cases h; done)
      | (intro i j h; cases h; done)
      | (intro i; rfl)
      | (rintro ⟨h, -⟩; revert h; decide +kernel)
      | (rintro ⟨-, h⟩; revert h; decide +kernel)
      | (rintro (⟨_, h⟩ | ⟨_, h⟩) <;> cases h; done)
      | (rintro _ (h | h) <;> cases h; done)
      | (rintro _ (h | h) <;> cases h <;> decide)
      | exact Or.inl (by decide +kernel)
      | exact Or.inr (by decide +kernel)
      | exact Or.inl (by rintro (⟨_, h⟩ | ⟨_, h⟩) <;> cases h)
      | exact rfl
      | exact And.intro rfl rfl
      | exact fun (h : _ ∧ _) => absurd h (by decide +kernel)
      | exact fun (h : _ = _) => absurd h (by decide +kernel)
  · decide +kernel
  · repeat' apply And.intro
    all_goals first
      | decide +kernel
      | (intro i h; cases h; exact ⟨_, rfl⟩)
      | (intro i h; cases h; done)
      | (intro i j h; cases h; done)
      | (intro i; rfl)
      | (rintro ⟨h, -⟩; revert h; decide +kernel)
      | (rintro ⟨-, h⟩; revert h; decide +kernel)
      | (rintro (⟨_, h⟩ | ⟨_, h⟩) <;> cases h; done)
      | (rintro _ (h | h) <;> cases h; done)
      | (rintro _ (h | h) <;> cases h <;> decide)
      | exact Or.inl (by decide +kernel)
      | exact Or.inr (by decide +kernel)
      | exact Or.inl (by rintro (⟨_, h⟩ | ⟨_, h⟩) <;> cases h)
      | exact rfl
      | exact And.intro rfl rfl
      | exact fun (h : _ ∧ _) => absurd h (by decide +kernel)
      | exact fun (h : _ = _) => absurd h (by decide +kernel)
  · decide +kernel
  · repeat' apply And.intro
    all_goals first
      | decide +kernel
      | (intro i h; cases h; exact ⟨_, rfl⟩)
      | (intro i h; cases h; done)
      | (intro i j h; cases h; done)
      | (intro i; rfl)
      | (rintro ⟨h, -⟩; revert h; decide +kernel)
      | (rintro ⟨-, h⟩; revert h; decide +kernel)
      | (rintro (⟨_, h⟩ | ⟨_, h⟩) <;> cases h; done)
      | (rintro _ (h | h) <;> cases h; done)
      | (rintro _ (h | h) <;> cases h <;> decide)
      | exact Or.inl (by decide +kernel)
      | exact Or.inr (by decide +kernel)
      | exact Or.inl (by rintro (⟨_, h⟩ | ⟨_, h⟩) <;> cases h)
      | exact rfl
      | exact And.intro rfl rfl
      | exact fun (h : _ ∧ _) => absurd h (by decide +kernel)
      | exact fun (h : _ = _) => absurd h (by decide +kernel)
  · decide +kernel
  · decide +kernel
  · decide +kernel
  · decide +kernel

theorem witness_HkControl :
  (let s : State := State.reset
   let k : Nat := 3
   let c := s.chip
   s.chip.live = true ∧ k < 40 ∧ c.evt.trig = false) ∧
  (let s : State := State.reset |> onChip (fun c => { c with evt := { c.evt with trig := true } })
   let k : Nat := 3
   let c := s.chip
   let seqEn := c.b F.HK_CTL_SEQ_EN = true
   s.chip.live = true ∧ k < 40 ∧ c.evt.trig = true ∧ ¬ seqEn) ∧
  (let s : State := State.reset |> onChip (fun c => { c with evt := { c.evt with trig := true }, hk := { c.hk with trigAt := some 0 } })
   let k : Nat := 39
   let c := s.chip
   s.chip.live = true ∧ k < 40 ∧ c.evt.trig = true ∧ c.hk.trigAt = some (c.tick / 64)) ∧
  (let s : State := State.reset |> mgrFld F.HK_CTL_SEQ_EN 1 |> mgrFld F.HK_TEST_BUSY 1
    |> onChip (fun c => { c with evt := { c.evt with trig := true } })
   let k : Nat := 3
   let c := s.chip
   let seqEn := c.b F.HK_CTL_SEQ_EN = true
   let busy := c.b F.HK_STAT_INJ_BUSY = true ∨ c.b F.HK_TEST_BUSY = true
   let pend := c.b F.HK_STAT_INJ_PEND = true
   s.chip.live = true ∧ k < 40 ∧ c.evt.trig = true ∧ seqEn ∧ c.hk.trigAt ≠ some (c.tick / 64) ∧ busy ∧ ¬ pend) ∧
  (let s : State := State.reset |> mgrFld F.HK_CTL_SEQ_EN 1 |> mgrFld F.HK_STAT_INJ_PEND 1 |> mgrFld F.HK_TEST_BUSY 1
    |> onChip (fun c => { c with evt := { c.evt with trig := true } })
   let k : Nat := 39
   let c := s.chip
   let seqEn := c.b F.HK_CTL_SEQ_EN = true
   let busy := c.b F.HK_STAT_INJ_BUSY = true ∨ c.b F.HK_TEST_BUSY = true
   let pend := c.b F.HK_STAT_INJ_PEND = true
   s.chip.live = true ∧ k < 40 ∧ c.evt.trig = true ∧ seqEn ∧ c.hk.trigAt ≠ some (c.tick / 64) ∧ busy ∧ pend) ∧
  (let s : State := State.reset |> mgrFld F.HK_CTL_SEQ_EN 1 |> onChip (fun c => { c with evt := { c.evt with trig := true } }) |> setWork (hkImg 2)
   let k : Nat := 0
   let c := s.chip
   let seqEn := c.b F.HK_CTL_SEQ_EN = true
   let busy := c.b F.HK_STAT_INJ_BUSY = true ∨ c.b F.HK_TEST_BUSY = true
   let inj := hkSlots c.work 0 true ≠ [] ∨ hkSlots c.work 1 true ≠ []
   s.chip.live = true ∧ k < 40 ∧ c.evt.trig = true ∧ seqEn ∧ c.hk.trigAt ≠ some (c.tick / 64) ∧ ¬ busy ∧ inj) ∧
  (let s : State := State.reset |> mgrFld F.HK_CTL_SEQ_EN 1 |> onChip (fun c => { c with evt := { c.evt with trig := true } })
   let k : Nat := 39
   let c := s.chip
   let seqEn := c.b F.HK_CTL_SEQ_EN = true
   let busy := c.b F.HK_STAT_INJ_BUSY = true ∨ c.b F.HK_TEST_BUSY = true
   let inj := hkSlots c.work 0 true ≠ [] ∨ hkSlots c.work 1 true ≠ []
   s.chip.live = true ∧ k < 40 ∧ c.evt.trig = true ∧ seqEn ∧ c.hk.trigAt ≠ some (c.tick / 64) ∧ ¬ busy ∧ ¬ inj) ∧
  (let s : State := State.reset |> mgrFld F.HK_CTL_SEQ_EN 1 |> mgrFld F.MGT_ROLE_ROLE 2 |> setWork (hkImg 2)
   let k : Nat := 3
   let c := s.chip
   let inst := c.role = .installer
   let seqEn := c.b F.HK_CTL_SEQ_EN = true
   let busy := c.b F.HK_STAT_INJ_BUSY = true ∨ c.b F.HK_TEST_BUSY = true
   let inj := hkSlots c.work 0 true ≠ [] ∨ hkSlots c.work 1 true ≠ []
   s.chip.live = true ∧ k < 40 ∧ inst ∧ seqEn ∧ c.hk.trigAt ≠ some (c.tick / 64) ∧ ¬ busy ∧ inj) ∧
  (let s : State := State.reset |> mgrFld F.MGT_ROLE_ROLE 2
   let k : Nat := 31
   let v : Word := 0x01028080#32
   let c := s.chip
   let inst := c.role = .installer
   let allowed := inCfgOk k (F.HK_INCFG_CURVE.of v) (F.HK_INCFG_WIRING.of v) (F.HK_INCFG_EXCIT.of v) = true
   s.chip.live = true ∧ k < 40 ∧ inst ∧ ¬ allowed) ∧
  (let s : State := State.reset |> mgrFld F.MGT_ROLE_ROLE 2
   let k : Nat := 31
   let v : Word := 0x00018040#32
   let c := s.chip
   let inst := c.role = .installer
   let allowed := inCfgOk k (F.HK_INCFG_CURVE.of v) (F.HK_INCFG_WIRING.of v) (F.HK_INCFG_EXCIT.of v) = true
   s.chip.live = true ∧ k < 40 ∧ inst ∧ allowed) ∧
  (let s : State := State.reset |> mgrFld F.MGT_ROLE_ROLE 2
   let k : Nat := 31
   let c := s.chip
   let inst := c.role = .installer
   s.chip.live = true ∧ k < 40 ∧ inst) ∧
  (let s : State := State.reset |> mgrFld F.HK_CTL_SEQ_EN 1 |> mgrFld F.MGT_ROLE_ROLE 2
   let k : Nat := 31
   let c := s.chip
   let inst := c.role = .installer
   let seqEn := c.b F.HK_CTL_SEQ_EN = true
   s.chip.live = true ∧ k < 40 ∧ inst ∧ seqEn) ∧
  (let s : State := State.reset
   let k : Nat := 3
   let c := s.chip
   let h := c.hk
   s.chip.live = true ∧ k < 40 ∧ (c.b F.HK_CTL_BLANK_EN = false ∨ h.blankAt ≠ none)) ∧
  (let s : State := State.reset |> mgrFld F.HK_CTL_BLANK_EN 1
   let k : Nat := 3
   let c := s.chip
   let h := c.hk
   s.chip.live = true ∧ k < 40 ∧ c.b F.HK_CTL_BLANK_EN = true ∧ h.blankAt = none) ∧
  (let s : State := State.reset
   let k : Nat := 3
   let c := s.chip
   let h := c.hk
   s.chip.live = true ∧ k < 40 ∧ h.blankAt = none) ∧
  (let s : State := State.reset |> onHk (fun h => { h with blankAt := some 50, blankLong := true })
   let k : Nat := 3
   let t : Nat := 50
   let c := s.chip
   let h := c.hk
   s.chip.live = true ∧ k < 40 ∧ h.blankAt = some t) ∧
  (let s : State := State.reset |> mgrFld F.HK_CTL_BLANK_MAX 3 |> onHk (fun h => { h with blankAt := some 50 }) |> atTick 10000000
   let k : Nat := 39
   let t : Nat := 50
   let c := s.chip
   let h := c.hk
   let long := h.blankLong = false ∧ t + max 1 (c.g F.HK_CTL_BLANK_MAX) * 640000 < c.tick
   s.chip.live = true ∧ k < 40 ∧ h.blankAt = some t ∧ long) ∧
  (let s : State := State.reset |> onHk (fun h => { h with blankAt := some 50, blankLong := true })
   let k : Nat := 3
   let t : Nat := 50
   let c := s.chip
   let h := c.hk
   let long := h.blankLong = false ∧ t + max 1 (c.g F.HK_CTL_BLANK_MAX) * 640000 < c.tick
   s.chip.live = true ∧ k < 40 ∧ h.blankAt = some t ∧ ¬ long) ∧
  (let s : State := State.reset |> mgrFld F.HK_TEST_TEST_INT 1 |> onHk (fun h => { h with testAt := 5, wrapAt := 2304000000005 })
   let k : Nat := 3
   let c := s.chip
   let h := c.hk
   let timed := c.g F.HK_TEST_TEST_INT ≠ 0 ∧ h.testAt + c.g F.HK_TEST_TEST_INT * 2304000000000 ≤ h.wrapAt
   s.chip.live = true ∧ k < 40 ∧ timed) ∧
  (let s : State := State.reset
   let k : Nat := 3
   let c := s.chip
   let h := c.hk
   let timed := c.g F.HK_TEST_TEST_INT ≠ 0 ∧ h.testAt + c.g F.HK_TEST_TEST_INT * 2304000000000 ≤ h.wrapAt
   s.chip.live = true ∧ k < 40 ∧ ¬ timed) ∧
  (let s : State := State.reset |> mgrFld F.HK_TEST_BUSY 1
   let k : Nat := 3
   let c := s.chip
   let h := c.hk
   let works := fun (x : HkConv) => (∃ n, x.ph = .settle n) ∨ ∃ n, x.ph = .integ n
   let testing := c.b F.HK_TEST_BUSY = true ∧ ¬ works h.a ∧ (¬ works h.b ∨ c.b F.HK_STAT_SLOPE_B = true)
   s.chip.live = true ∧ k < 40 ∧ testing) ∧
  (let s : State := State.reset
   let k : Nat := 31
   let c := s.chip
   let h := c.hk
   let works := fun (x : HkConv) => (∃ n, x.ph = .settle n) ∨ ∃ n, x.ph = .integ n
   let testing := c.b F.HK_TEST_BUSY = true ∧ ¬ works h.a ∧ (¬ works h.b ∨ c.b F.HK_STAT_SLOPE_B = true)
   s.chip.live = true ∧ k < 40 ∧ ¬ testing) := by
  refine ⟨?_, ?_, ?_, ?_, ?_, ?_, ?_, ?_, ?_, ?_, ?_, ?_, ?_, ?_, ?_, ?_, ?_, ?_, ?_, ?_, ?_, ?_⟩
  · decide +kernel
  · decide +kernel
  · decide +kernel
  · decide +kernel
  · decide +kernel
  · decide +kernel
  · decide +kernel
  · decide +kernel
  · decide +kernel
  · decide +kernel
  · decide +kernel
  · decide +kernel
  · decide +kernel
  · decide +kernel
  · decide +kernel
  · decide +kernel
  · decide +kernel
  · decide +kernel
  · decide +kernel
  · decide +kernel
  · repeat' apply And.intro
    all_goals first
      | decide +kernel
      | (intro i h; cases h; exact ⟨_, rfl⟩)
      | (intro i h; cases h; done)
      | (intro i j h; cases h; done)
      | (intro i; rfl)
      | (rintro ⟨h, -⟩; revert h; decide +kernel)
      | (rintro ⟨-, h⟩; revert h; decide +kernel)
      | (rintro (⟨_, h⟩ | ⟨_, h⟩) <;> cases h; done)
      | (rintro _ (h | h) <;> cases h; done)
      | (rintro _ (h | h) <;> cases h <;> decide)
      | exact Or.inl (by decide +kernel)
      | exact Or.inr (by decide +kernel)
      | exact Or.inl (by rintro (⟨_, h⟩ | ⟨_, h⟩) <;> cases h)
      | exact rfl
      | exact And.intro rfl rfl
      | exact fun (h : _ ∧ _) => absurd h (by decide +kernel)
      | exact fun (h : _ = _) => absurd h (by decide +kernel)
  · repeat' apply And.intro
    all_goals first
      | decide +kernel
      | (intro i h; cases h; exact ⟨_, rfl⟩)
      | (intro i h; cases h; done)
      | (intro i j h; cases h; done)
      | (intro i; rfl)
      | (rintro ⟨h, -⟩; revert h; decide +kernel)
      | (rintro ⟨-, h⟩; revert h; decide +kernel)
      | (rintro (⟨_, h⟩ | ⟨_, h⟩) <;> cases h; done)
      | (rintro _ (h | h) <;> cases h; done)
      | (rintro _ (h | h) <;> cases h <;> decide)
      | exact Or.inl (by decide +kernel)
      | exact Or.inr (by decide +kernel)
      | exact Or.inl (by rintro (⟨_, h⟩ | ⟨_, h⟩) <;> cases h)
      | exact rfl
      | exact And.intro rfl rfl
      | exact fun (h : _ ∧ _) => absurd h (by decide +kernel)
      | exact fun (h : _ = _) => absurd h (by decide +kernel)

theorem witness_InterlockStart :
  (let s : State := State.reset |> onIlk (fun i => { i with up := true, st := .test, enHs := false, enLs := false, rampReq := true })
   let i := s.saf
   s.Inv ∧ i.up = true) ∧
  (let s : State := State.reset
   let i := s.saf
   s.Inv ∧ i.up = false) ∧
  (let s : State := State.reset
   let i := s.saf
   s.Inv ∧ (i.up = false ∨ i.st ≠ .test)) ∧
  (let s : State := State.reset |> onIlk (fun i => { i with up := true, st := .test, enHs := false, enLs := false, rampReq := true })
    |> onIlk (fun i => { i with sel := 0x10, selOk := true })
   let logicOk : Bool := true
   let sckOk : Bool := true
   let convOk : Bool := false
   let i := s.saf
   let passes := i.selOk && logicOk && sckOk && !i.sckFault && (!i.catB || (convOk && decide (i.run = 20)))
   s.Inv ∧ i.up = true ∧ i.st = .test ∧ passes = true) ∧
  (let s : State := State.reset |> (fun s => onIlk (fun i => { Interlock.off with up := true, st := .test, sel := 0x80, selOk := true, run := 20 }) s)
   let logicOk : Bool := false
   let sckOk : Bool := false
   let convOk : Bool := false
   let i := s.saf
   let passes := i.selOk && logicOk && sckOk && !i.sckFault && (!i.catB || (convOk && decide (i.run = 20)))
   s.Inv ∧ i.up = true ∧ i.st = .test ∧ passes = false) ∧
  (let s : State := State.reset
   let n : Nat := 3640
   let i := s.saf
   let bad := n < 3640 ∨ 4350 < n
   s.Inv ∧ (i.up = false ∨ i.sckFault = true ∨ ¬ bad)) ∧
  (let s : State := State.reset |> onIlk (fun i => { i with up := true, st := .safe, enHs := false, enLs := false, rampReq := true, step := 0 })
   let n : Nat := 0
   let i := s.saf
   let bad := n < 3640 ∨ 4350 < n
   let high := i.st = .on ∨ i.st = .precheck ∨ i.st = .ramp
   s.Inv ∧ i.up = true ∧ i.sckFault = false ∧ bad ∧ ¬ high) ∧
  (let s : State := State.reset
    |> onIlk (fun i => { i with up := true, st := .on, enHs := true, enLs := true, rampReq := false, dsc := false, step := 0 })
   let n : Nat := 0
   let i := s.saf
   let bad := n < 3640 ∨ 4350 < n
   let high := i.st = .on ∨ i.st = .precheck ∨ i.st = .ramp
   s.Inv ∧ i.up = true ∧ i.sckFault = false ∧ bad ∧ high) ∧
  (let s : State := State.reset
    |> onIlk (fun i => { i with up := true, st := .precheck, step := 3, enHs := (stepEn 3).1, enLs := (stepEn 3).2, rampReq := true, dsc := false })
   let ms : Nat := 5001
   let i := s.saf
   let short := i.rstStuck = true ∨ ms < 50 ∨ 5000 < ms
   s.Inv ∧ i.up = true ∧ short) ∧
  (let s : State := State.reset
   
      |> (fun s => atTick 64000100 (onIlk (fun i => { Interlock.off with up := true, st := .safe, sel := 0x80, selOk := true, chA := true, chB := true, closedSince := some 100 }) s))
   let ms : Nat := 5000
   let u : Nat := 100
   let i := s.saf
   let c := s.chip
   let t := c.tick
   let short := i.rstStuck = true ∨ ms < 50 ∨ 5000 < ms
   let starts := i.st = .safe ∧ i.closedSince = some u ∧ u + 64000000 ≤ t ∧ (i.discFault = false ∨ i.cycled = true) ∧ i.sckFault = false
   s.Inv ∧ i.up = true ∧ ¬ short ∧ starts) ∧
  (let s : State := State.reset |> onIlk (fun i => { i with up := true, st := .test, enHs := false, enLs := false, rampReq := true })
   let ms : Nat := 5000
   let u : Nat := 100
   let i := s.saf
   let c := s.chip
   let t := c.tick
   let short := i.rstStuck = true ∨ ms < 50 ∨ 5000 < ms
   let never := i.st ≠ .safe ∨ i.closedSince = none ∨ (i.closedSince = some u ∧ t < u + 64000000) ∨ (i.discFault = true ∧
     i.cycled = false) ∨ i.sckFault = true
   s.Inv ∧ i.up = true ∧ ¬ short ∧ never) ∧
  (let s : State := State.reset |> onIlk (fun i => { i with up := true, st := .test, enHs := false, enLs := false, rampReq := true })
   let i := s.saf
   s.Inv ∧ i.up = true ∧ i.rstStuck = false) ∧
  (let s : State := State.reset |> onIlk (fun i => { i with rstStuck := true })
   let i := s.saf
   s.Inv ∧ i.rstStuck = true) ∧
  (let s : State := State.reset
   let i := s.saf
   let c := s.chip
   let t := c.tick
   let due := i.up = true ∧ i.st = .precheck ∧ i.stepAt + 5760000 ≤ t
   s.Inv ∧ ¬ due) ∧
  (let s : State := State.reset
    |> onIlk (fun i => { i with up := true, st := .precheck, step := 3, enHs := (stepEn 3).1, enLs := (stepEn 3).2, rampReq := true, dsc := false })
    |> atTick 1152000100
   let hs : Bool := false
   let ls : Bool := false
   let dscFb : Bool := true
   let i := s.saf
   let c := s.chip
   let t := c.tick
   let due := i.up = true ∧ i.st = .precheck ∧ i.stepAt + 5760000 ≤ t
   let n := i.step
   let right := match n with
         | 1 => hs = false ∧ ls = false
         | 2 => hs = true ∧ ls = false
         | 3 => hs = false
         | 4 => ls = true ∧ hs = false
         | 5 => ls = false
         | _ => hs = true ∧ ls = true
   let conducts := n = 1 ∧ i.hasDsc = true ∧ dscFb = true
   s.Inv ∧ due ∧ right ∧ ¬ conducts ∧ n < 6) ∧
  (let s : State := State.reset
    |> onIlk (fun i => { i with up := true, st := .precheck, step := 6, enHs := (stepEn 6).1, enLs := (stepEn 6).2, rampReq := false, dsc := false })
    |> atTick 7040100
   let hs : Bool := true
   let ls : Bool := true
   let dscFb : Bool := true
   let i := s.saf
   let c := s.chip
   let t := c.tick
   let due := i.up = true ∧ i.st = .precheck ∧ i.stepAt + 5760000 ≤ t
   let n := i.step
   let right := match n with
         | 1 => hs = false ∧ ls = false
         | 2 => hs = true ∧ ls = false
         | 3 => hs = false
         | 4 => ls = true ∧ hs = false
         | 5 => ls = false
         | _ => hs = true ∧ ls = true
   let conducts := n = 1 ∧ i.hasDsc = true ∧ dscFb = true
   s.Inv ∧ due ∧ right ∧ ¬ conducts ∧ n = 6) ∧
  (let s : State := State.reset
    |> onIlk (fun i => { i with up := true, st := .precheck, step := 1, enHs := (stepEn 1).1, enLs := (stepEn 1).2, rampReq := true, dsc := false })
    |> onIlk (fun i => { i with sel := 0x10, selOk := true }) |> atTick 64000099
   let hs : Bool := false
   let ls : Bool := false
   let dscFb : Bool := true
   let i := s.saf
   let c := s.chip
   let t := c.tick
   let due := i.up = true ∧ i.st = .precheck ∧ i.stepAt + 5760000 ≤ t
   let n := i.step
   let right := match n with
         | 1 => hs = false ∧ ls = false
         | 2 => hs = true ∧ ls = false
         | 3 => hs = false
         | 4 => ls = true ∧ hs = false
         | 5 => ls = false
         | _ => hs = true ∧ ls = true
   let conducts := n = 1 ∧ i.hasDsc = true ∧ dscFb = true
   s.Inv ∧ due ∧ right ∧ conducts) ∧
  (let s : State := State.reset
    |> onIlk (fun i => { i with up := true, st := .precheck, step := 1, enHs := (stepEn 1).1, enLs := (stepEn 1).2, rampReq := true, dsc := false })
    |> atTick 5760100
   let hs : Bool := false
   let ls : Bool := true
   let dscFb : Bool := true
   let i := s.saf
   let c := s.chip
   let t := c.tick
   let due := i.up = true ∧ i.st = .precheck ∧ i.stepAt + 5760000 ≤ t
   let n := i.step
   let right := match n with
         | 1 => hs = false ∧ ls = false
         | 2 => hs = true ∧ ls = false
         | 3 => hs = false
         | 4 => ls = true ∧ hs = false
         | 5 => ls = false
         | _ => hs = true ∧ ls = true
   let conducts := n = 1 ∧ i.hasDsc = true ∧ dscFb = true
   s.Inv ∧ due ∧ ¬ right ∧ ¬ conducts) ∧
  (let s : State := State.reset
    |> onIlk (fun i => { i with up := true, st := .precheck, step := 1, enHs := (stepEn 1).1, enLs := (stepEn 1).2, rampReq := true, dsc := false })
    |> onIlk (fun i => { i with sel := 0x10, selOk := true }) |> atTick 7040100
   let hs : Bool := true
   let ls : Bool := false
   let dscFb : Bool := true
   let i := s.saf
   let c := s.chip
   let t := c.tick
   let due := i.up = true ∧ i.st = .precheck ∧ i.stepAt + 5760000 ≤ t
   let n := i.step
   let right := match n with
         | 1 => hs = false ∧ ls = false
         | 2 => hs = true ∧ ls = false
         | 3 => hs = false
         | 4 => ls = true ∧ hs = false
         | 5 => ls = false
         | _ => hs = true ∧ ls = true
   let conducts := n = 1 ∧ i.hasDsc = true ∧ dscFb = true
   s.Inv ∧ due ∧ ¬ right ∧ conducts) := by
  refine ⟨?_, ?_, ?_, ?_, ?_, ?_, ?_, ?_, ?_, ?_, ?_, ?_, ?_, ?_, ?_, ?_, ?_, ?_, ?_⟩
  · unfold State.Inv; decide +kernel
  · unfold State.Inv; decide +kernel
  · unfold State.Inv; decide +kernel
  · unfold State.Inv; decide +kernel
  · unfold State.Inv; decide +kernel
  · unfold State.Inv; decide +kernel
  · unfold State.Inv; decide +kernel
  · unfold State.Inv; decide +kernel
  · unfold State.Inv; decide +kernel
  · unfold State.Inv; decide +kernel
  · unfold State.Inv; decide +kernel
  · unfold State.Inv; decide +kernel
  · unfold State.Inv; decide +kernel
  · unfold State.Inv; decide +kernel
  · repeat' apply And.intro
    all_goals first
      | decide +kernel
      | (intro i h; cases h; exact ⟨_, rfl⟩)
      | (intro i h; cases h; done)
      | (intro i j h; cases h; done)
      | (intro i; rfl)
      | (rintro ⟨h, -⟩; revert h; decide +kernel)
      | (rintro ⟨-, h⟩; revert h; decide +kernel)
      | (rintro (⟨_, h⟩ | ⟨_, h⟩) <;> cases h; done)
      | (rintro _ (h | h) <;> cases h; done)
      | (rintro _ (h | h) <;> cases h <;> decide)
      | exact Or.inl (by decide +kernel)
      | exact Or.inr (by decide +kernel)
      | exact Or.inl (by rintro (⟨_, h⟩ | ⟨_, h⟩) <;> cases h)
      | exact rfl
      | exact And.intro rfl rfl
      | exact fun (h : _ ∧ _) => absurd h (by decide +kernel)
      | exact fun (h : _ = _) => absurd h (by decide +kernel)
  · repeat' apply And.intro
    all_goals first
      | decide +kernel
      | (intro i h; cases h; exact ⟨_, rfl⟩)
      | (intro i h; cases h; done)
      | (intro i j h; cases h; done)
      | (intro i; rfl)
      | (rintro ⟨h, -⟩; revert h; decide +kernel)
      | (rintro ⟨-, h⟩; revert h; decide +kernel)
      | (rintro (⟨_, h⟩ | ⟨_, h⟩) <;> cases h; done)
      | (rintro _ (h | h) <;> cases h; done)
      | (rintro _ (h | h) <;> cases h <;> decide)
      | exact Or.inl (by decide +kernel)
      | exact Or.inr (by decide +kernel)
      | exact Or.inl (by rintro (⟨_, h⟩ | ⟨_, h⟩) <;> cases h)
      | exact rfl
      | exact And.intro rfl rfl
      | exact fun (h : _ ∧ _) => absurd h (by decide +kernel)
      | exact fun (h : _ = _) => absurd h (by decide +kernel)
  · repeat' apply And.intro
    all_goals first
      | decide +kernel
      | (intro i h; cases h; exact ⟨_, rfl⟩)
      | (intro i h; cases h; done)
      | (intro i j h; cases h; done)
      | (intro i; rfl)
      | (rintro ⟨h, -⟩; revert h; decide +kernel)
      | (rintro ⟨-, h⟩; revert h; decide +kernel)
      | (rintro (⟨_, h⟩ | ⟨_, h⟩) <;> cases h; done)
      | (rintro _ (h | h) <;> cases h; done)
      | (rintro _ (h | h) <;> cases h <;> decide)
      | exact Or.inl (by decide +kernel)
      | exact Or.inr (by decide +kernel)
      | exact Or.inl (by rintro (⟨_, h⟩ | ⟨_, h⟩) <;> cases h)
      | exact rfl
      | exact And.intro rfl rfl
      | exact fun (h : _ ∧ _) => absurd h (by decide +kernel)
      | exact fun (h : _ = _) => absurd h (by decide +kernel)
  · repeat' apply And.intro
    all_goals first
      | decide +kernel
      | (intro i h; cases h; exact ⟨_, rfl⟩)
      | (intro i h; cases h; done)
      | (intro i j h; cases h; done)
      | (intro i; rfl)
      | (rintro ⟨h, -⟩; revert h; decide +kernel)
      | (rintro ⟨-, h⟩; revert h; decide +kernel)
      | (rintro (⟨_, h⟩ | ⟨_, h⟩) <;> cases h; done)
      | (rintro _ (h | h) <;> cases h; done)
      | (rintro _ (h | h) <;> cases h <;> decide)
      | exact Or.inl (by decide +kernel)
      | exact Or.inr (by decide +kernel)
      | exact Or.inl (by rintro (⟨_, h⟩ | ⟨_, h⟩) <;> cases h)
      | exact rfl
      | exact And.intro rfl rfl
      | exact fun (h : _ ∧ _) => absurd h (by decide +kernel)
      | exact fun (h : _ = _) => absurd h (by decide +kernel)
  · repeat' apply And.intro
    all_goals first
      | decide +kernel
      | (intro i h; cases h; exact ⟨_, rfl⟩)
      | (intro i h; cases h; done)
      | (intro i j h; cases h; done)
      | (intro i; rfl)
      | (rintro ⟨h, -⟩; revert h; decide +kernel)
      | (rintro ⟨-, h⟩; revert h; decide +kernel)
      | (rintro (⟨_, h⟩ | ⟨_, h⟩) <;> cases h; done)
      | (rintro _ (h | h) <;> cases h; done)
      | (rintro _ (h | h) <;> cases h <;> decide)
      | exact Or.inl (by decide +kernel)
      | exact Or.inr (by decide +kernel)
      | exact Or.inl (by rintro (⟨_, h⟩ | ⟨_, h⟩) <;> cases h)
      | exact rfl
      | exact And.intro rfl rfl
      | exact fun (h : _ ∧ _) => absurd h (by decide +kernel)
      | exact fun (h : _ = _) => absurd h (by decide +kernel)

theorem witness_InterlockDemand :
  (let s : State := State.reset
   let a : Bool := false
   let b : Bool := true
   let i := s.saf
   let newA := a && i.chA
   let newB := b && i.chB
   s.saf.raised = [] ∧ ¬ (s.saf.st = .on ∧ s.saf.catB = true ∧ s.saf.monOk = true) ∧ (i.up = false ∨ (newA = false ∧ newB = false))) ∧
  (let s : State := State.reset |> onIlk (fun i => { i with up := true, st := .safe, enHs := false, enLs := false, rampReq := true, step := 0 })
    |> onIlk (fun i => { i with chA := true })
   let a : Bool := true
   let b : Bool := false
   let i := s.saf
   let c := s.chip
   let t := c.tick
   let leave := i.st = .on ∨ i.st = .precheck
   let newA := a && i.chA
   let newB := b && i.chB
   let timely := ∀ n, i.discSince = some n → 10 * t < 10 * n + 11 * i.tdisc
   s.saf.raised = [] ∧ ¬ (s.saf.st = .on ∧ s.saf.catB = true ∧ s.saf.monOk = true) ∧ i.up = true ∧ (newA = true ∨ newB = true) ∧ timely ∧ ¬ leave) ∧
  (let s : State := State.reset
    |> onIlk (fun i => { i with up := true, st := .precheck, step := 6, enHs := (stepEn 6).1, enLs := (stepEn 6).2, rampReq := false, dsc := false })
    |> onIlk (fun i => { i with chB := true })
   let a : Bool := false
   let b : Bool := true
   let i := s.saf
   let c := s.chip
   let t := c.tick
   let leave := i.st = .on ∨ i.st = .precheck
   let newA := a && i.chA
   let newB := b && i.chB
   let timely := ∀ n, i.discSince = some n → 10 * t < 10 * n + 11 * i.tdisc
   s.saf.raised = [] ∧ ¬ (s.saf.st = .on ∧ s.saf.catB = true ∧ s.saf.monOk = true) ∧ i.up = true ∧ (newA = true ∨ newB = true) ∧ timely ∧ leave) ∧
  (let s : State := State.reset
   let i := s.saf
   s.saf.raised = [] ∧ ¬ (s.saf.st = .on ∧ s.saf.catB = true ∧ s.saf.monOk = true) ∧ i.up = false) ∧
  (let s : State := State.reset |> onIlk (fun i => { i with up := true, st := .safe, enHs := false, enLs := false, rampReq := true, step := 0 })
   let i := s.saf
   let c := s.chip
   let t := c.tick
   let timely := ∀ n, i.discSince = some n → 10 * t < 10 * n + 11 * i.tdisc
   s.saf.raised = [] ∧ ¬ (s.saf.st = .on ∧ s.saf.catB = true ∧ s.saf.monOk = true) ∧ i.up = true ∧ timely) ∧
  (let s : State := State.reset
    |> onIlk (fun i => { i with up := true, st := .precheck, step := 5, enHs := (stepEn 5).1, enLs := (stepEn 5).2, rampReq := true, dsc := false })
    |> onIlk (fun i => { i with discSince := some 100 }) |> atTick 7040100
   let u : Nat := 100
   let i := s.saf
   let c := s.chip
   let t := c.tick
   let late := i.discSince = some u ∧ i.up = true ∧ 10 * u + 9 * i.tdisc < 10 * t
   s.saf.raised = [] ∧ ¬ (s.saf.st = .on ∧ s.saf.catB = true ∧ s.saf.monOk = true) ∧ late ∧ i.discFault = false) ∧
  (let s : State := State.reset
   let u : Nat := 100
   let i := s.saf
   let c := s.chip
   let t := c.tick
   let late := i.discSince = some u ∧ i.up = true ∧ 10 * u + 9 * i.tdisc < 10 * t
   s.saf.raised = [] ∧ ¬ (s.saf.st = .on ∧ s.saf.catB = true ∧ s.saf.monOk = true) ∧
     (i.discFault = true ∨ i.discSince = none ∨ (i.discSince = some u ∧
     ¬ late))) ∧
  (let s : State := State.reset |> onIlk (fun i => { i with up := true, st := .safe, enHs := false, enLs := false, rampReq := true, step := 0 })
   let i := s.saf
   let watched := i.st = .safe ∧ (i.watchAt ≠ none ∨ i.fbFault = true)
   s.saf.raised = [] ∧ ¬ (s.saf.st = .on ∧ s.saf.catB = true ∧ s.saf.monOk = true) ∧ i.up = true ∧ ¬ watched) ∧
  (let s : State := State.reset |> onIlk (fun i => { i with up := true, st := .safe, enHs := false, enLs := false, rampReq := true, step := 0 })
    |> onIlk (fun i => { i with watchAt := some 100 })
   let i := s.saf
   let watched := i.st = .safe ∧ (i.watchAt ≠ none ∨ i.fbFault = true)
   s.saf.raised = [] ∧ ¬ (s.saf.st = .on ∧ s.saf.catB = true ∧ s.saf.monOk = true) ∧ i.up = true ∧ watched) ∧
  (let s : State := State.reset
   let i := s.saf
   let acts := i.up = true ∧ i.st ≠ .test
   s.saf.raised = [] ∧ ¬ (s.saf.st = .on ∧ s.saf.catB = true ∧ s.saf.monOk = true) ∧ ¬ acts) ∧
  (let s : State := State.reset
    |> onIlk (fun i => { i with up := true, st := .precheck, step := 3, enHs := (stepEn 3).1, enLs := (stepEn 3).2, rampReq := true, dsc := false })
    |> onIlk (fun i => { i with watchAt := some 100 }) |> atTick 1152000100
   let u : Nat := 100
   let i := s.saf
   let c := s.chip
   let t := c.tick
   let acts := i.up = true ∧ i.st ≠ .test
   let over10 := fun (n : Nat) => n + 5760000 ≤ t
   s.saf.raised = [] ∧ ¬ (s.saf.st = .on ∧ s.saf.catB = true ∧ s.saf.monOk = true) ∧ acts ∧ i.dscAt = none ∧ i.watchAt = some u ∧ over10 u ∧
     i.fbHs = false ∧ i.fbLs = false) ∧
  (let s : State := State.reset |> onIlk (fun i => { i with up := true, st := .safe, enHs := false, enLs := false, rampReq := true, step := 0 })
    |> onIlk (fun i => { i with fbLs := true }) |> onIlk (fun i => { i with watchAt := some 100 }) |> atTick 7040100
   let u : Nat := 100
   let i := s.saf
   let c := s.chip
   let t := c.tick
   let acts := i.up = true ∧ i.st ≠ .test
   let over10 := fun (n : Nat) => n + 5760000 ≤ t
   s.saf.raised = [] ∧ ¬ (s.saf.st = .on ∧ s.saf.catB = true ∧ s.saf.monOk = true) ∧ acts ∧ i.dscAt = none ∧ i.watchAt = some u ∧ over10 u ∧
     (i.fbHs = true ∨ i.fbLs = true) ∧ i.fbFault = false ∧ i.st = .safe) ∧
  (let s : State := State.reset |> onIlk (fun i => { i with up := true, st := .safe, enHs := false, enLs := false, rampReq := true, step := 0 })
   let u : Nat := 100
   let i := s.saf
   let c := s.chip
   let t := c.tick
   let acts := i.up = true ∧ i.st ≠ .test
   let over10 := fun (n : Nat) => n + 5760000 ≤ t
   s.saf.raised = [] ∧ ¬ (s.saf.st = .on ∧ s.saf.catB = true ∧ s.saf.monOk = true) ∧ acts ∧ i.dscAt = none ∧ (i.watchAt = none ∨ (i.watchAt = some u ∧
     ¬ over10 u))) ∧
  (let s : State := State.reset |> onIlk (fun i => { i with up := true, st := .safe, enHs := false, enLs := false, rampReq := true, step := 0 })
    |> onIlk (fun i => { i with dscAt := some 100, dsc := bitOf i.sel 4 && i.st == .safe && !i.sckFault }) |> atTick 128000100
   let dscFb : Bool := true
   let u : Nat := 100
   let i := s.saf
   let c := s.chip
   let t := c.tick
   let acts := i.up = true ∧ i.st ≠ .test
   let over10 := fun (n : Nat) => n + 5760000 ≤ t
   s.saf.raised = [] ∧ ¬ (s.saf.st = .on ∧ s.saf.catB = true ∧ s.saf.monOk = true) ∧ acts ∧ i.watchAt = none ∧ i.dscAt = some u ∧ over10 u ∧
     dscFb = true) ∧
  (let s : State := State.reset |> onIlk (fun i => { i with up := true, st := .safe, enHs := false, enLs := false, rampReq := true, step := 0 })
    |> onIlk (fun i => { i with dscAt := some 100, dsc := bitOf i.sel 4 && i.st == .safe && !i.sckFault }) |> atTick 4608000100
   let dscFb : Bool := false
   let u : Nat := 100
   let i := s.saf
   let c := s.chip
   let t := c.tick
   let acts := i.up = true ∧ i.st ≠ .test
   let over10 := fun (n : Nat) => n + 5760000 ≤ t
   s.saf.raised = [] ∧ ¬ (s.saf.st = .on ∧ s.saf.catB = true ∧ s.saf.monOk = true) ∧ acts ∧ i.watchAt = none ∧ i.dscAt = some u ∧ over10 u ∧
     dscFb = false ∧ i.dscFault = false ∧ i.st = .safe) ∧
  (let s : State := State.reset
    |> onIlk (fun i => { i with up := true, st := .precheck, step := 3, enHs := (stepEn 3).1, enLs := (stepEn 3).2, rampReq := true, dsc := false })
    |> onIlk (fun i => { i with watchAt := some 100 })
   let i := s.saf
   let acts := i.up = true ∧ i.st ≠ .test
   s.saf.raised = [] ∧ ¬ (s.saf.st = .on ∧ s.saf.catB = true ∧ s.saf.monOk = true) ∧ acts ∧ i.watchAt ≠ none) ∧
  (let s : State := State.reset |> onIlk (fun i => { i with up := true, st := .safe, enHs := false, enLs := false, rampReq := true, step := 0 })
   let i := s.saf
   let acts := i.up = true ∧ i.st ≠ .test
   s.saf.raised = [] ∧ ¬ (s.saf.st = .on ∧ s.saf.catB = true ∧ s.saf.monOk = true) ∧ acts ∧ i.watchAt = none ∧ i.fbFault = false) ∧
  (let s : State := State.reset
    |> onIlk (fun i => { i with up := true, st := .ramp, enHs := true, enLs := true, rampReq := true, dsc := false, step := 0, sel := 0x9A })
   let i := s.saf
   let acts := i.up = true ∧ i.st ≠ .test
   s.saf.raised = [] ∧ ¬ (s.saf.st = .on ∧ s.saf.catB = true ∧ s.saf.monOk = true) ∧ acts ∧ i.hasDsc = true ∧ i.dscFault = false) ∧
  (let s : State := State.reset |> onIlk (fun i => { i with up := true, st := .safe, enHs := false, enLs := false, rampReq := true, step := 0 })
   let i := s.saf
   let acts := i.up = true ∧ i.st ≠ .test
   s.saf.raised = [] ∧ ¬ (s.saf.st = .on ∧ s.saf.catB = true ∧ s.saf.monOk = true) ∧ acts ∧ i.hasDsc = false) := by
  refine ⟨?_, ?_, ?_, ?_, ?_, ?_, ?_, ?_, ?_, ?_, ?_, ?_, ?_, ?_, ?_, ?_, ?_, ?_, ?_⟩ <;>
    decide +kernel

theorem witness_InterlockRamp :
  (let s : State := onHk (fun h => { h with slope := some 4190000 }) (onIlk (fun i => { i with up := true, sel := 0x80, selOk := true, st := .ramp, enHs := true, enLs := true, rampReq := true, monOk := true, v0 := 4194304, demandAt := 100, validAt := 128000090, ws := List.replicate 21 4194304 }) (atTick 128000100 State.reset))
    |> onIlk (fun i => { i with up := true, st := .on, enHs := true, enLs := true, rampReq := false, dsc := false, step := 0 })
    |> onIlk (fun i => { i with chA := true })
   let a : Bool := true
   let b : Bool := false
   let i := s.saf
   let c := s.chip
   let t := c.tick
   let v := (i.ws.headD 0).natAbs
   let vDone := fun (v0 x : Nat) => 500000 * x ≤ max (10000 * v0) 10485760000
   let newA := a && i.chA
   let newB := b && i.chB
   let timely := ∀ n, i.discSince = some n → 10 * t < 10 * n + 11 * i.tdisc
   let on := i.st = .on ∧ i.monOk = true
   s.saf.raised = [] ∧ s.saf.up = true ∧ s.saf.catB = true ∧ on ∧ (newA = true ∨ newB = true) ∧ timely ∧ ¬ vDone v v) ∧
  (let s : State := onHk (fun h => { h with slope := some 4190000 }) (onIlk (fun i => { i with up := true, sel := 0x80, selOk := true, st := .ramp, enHs := true, enLs := true, rampReq := true, monOk := true, v0 := 4194304, demandAt := 100, validAt := 128000090, ws := List.replicate 21 4194304 }) (atTick 128000100 State.reset))
    |> (fun s => onIlk (fun i => { i with st := .on, rampReq := false, chA := true, chB := true, ws := [1000] }) s)
   let a : Bool := true
   let b : Bool := true
   let i := s.saf
   let c := s.chip
   let t := c.tick
   let v := (i.ws.headD 0).natAbs
   let vDone := fun (v0 x : Nat) => 500000 * x ≤ max (10000 * v0) 10485760000
   let newA := a && i.chA
   let newB := b && i.chB
   let timely := ∀ n, i.discSince = some n → 10 * t < 10 * n + 11 * i.tdisc
   let on := i.st = .on ∧ i.monOk = true
   s.saf.raised = [] ∧ s.saf.up = true ∧ s.saf.catB = true ∧ on ∧ (newA = true ∨ newB = true) ∧ timely ∧ vDone v v) ∧
  (let s : State := onHk (fun h => { h with slope := some 4190000 }) (onIlk (fun i => { i with up := true, sel := 0x80, selOk := true, st := .ramp, enHs := true, enLs := true, rampReq := true, monOk := true, v0 := 4194304, demandAt := 100, validAt := 128000090, ws := List.replicate 21 4194304 }) (atTick 128000100 State.reset))
    |> onIlk (fun i => { i with up := true, st := .on, enHs := true, enLs := true, rampReq := false, dsc := false, step := 0 })
    |> onIlk (fun i => { i with discSince := some 100 })
   let u : Nat := 100
   let i := s.saf
   let c := s.chip
   let t := c.tick
   let v := (i.ws.headD 0).natAbs
   let vDone := fun (v0 x : Nat) => 500000 * x ≤ max (10000 * v0) 10485760000
   let on := i.st = .on ∧ i.monOk = true
   let late := i.discSince = some u ∧ 10 * u + 9 * i.tdisc < 10 * t ∧ i.discFault = false
   s.saf.raised = [] ∧ s.saf.up = true ∧ s.saf.catB = true ∧ on ∧ late ∧ ¬ vDone v v) ∧
  (let s : State := onHk (fun h => { h with slope := some 4190000 }) (onIlk (fun i => { i with up := true, sel := 0x80, selOk := true, st := .ramp, enHs := true, enLs := true, rampReq := true, monOk := true, v0 := 4194304, demandAt := 100, validAt := 128000090, ws := List.replicate 21 4194304 }) (atTick 128000100 State.reset))
    |> (fun s => atTick 128000100 (onIlk (fun i => { i with st := .on, rampReq := false, chA := true, ws := [1000], discSince := some 100 }) s))
   let u : Nat := 100
   let i := s.saf
   let c := s.chip
   let t := c.tick
   let v := (i.ws.headD 0).natAbs
   let vDone := fun (v0 x : Nat) => 500000 * x ≤ max (10000 * v0) 10485760000
   let on := i.st = .on ∧ i.monOk = true
   let late := i.discSince = some u ∧ 10 * u + 9 * i.tdisc < 10 * t ∧ i.discFault = false
   s.saf.raised = [] ∧ s.saf.up = true ∧ s.saf.catB = true ∧ on ∧ late ∧ vDone v v) ∧
  (let s : State := onHk (fun h => { h with slope := some 4190000 }) (onIlk (fun i => { i with up := true, sel := 0x80, selOk := true, st := .ramp, enHs := true, enLs := true, rampReq := true, monOk := true, v0 := 4194304, demandAt := 100, validAt := 128000090, ws := List.replicate 21 4194304 }) (atTick 128000100 State.reset))
    |> (fun s => onHk (fun h => { h with slope := none }) (onIlk (fun i => { i with st := .on, rampReq := false }) s))
   let c := s.chip
   s.saf.raised = [] ∧ s.saf.up = true ∧ s.saf.catB = true ∧ c.hk.slope = none) ∧
  (let s : State := onHk (fun h => { h with slope := some 4190000 }) (onIlk (fun i => { i with up := true, sel := 0x80, selOk := true, st := .ramp, enHs := true, enLs := true, rampReq := true, monOk := true, v0 := 4194304, demandAt := 100, validAt := 128000090, ws := List.replicate 21 4194304 }) (atTick 128000100 State.reset))
   let w : Int := 4190000
   let i := s.saf
   let c := s.chip
   let t := c.tick
   let lost := i.monOk = true ∧ i.validAt + 3 * i.subTicks < t
   let value := c.hk.slope = some w
   s.saf.raised = [] ∧ s.saf.up = true ∧ s.saf.catB = true ∧ value ∧ ¬ lost) ∧
  (let s : State := onHk (fun h => { h with slope := some 4190000 }) (onIlk (fun i => { i with up := true, sel := 0x80, selOk := true, st := .ramp, enHs := true, enLs := true, rampReq := true, monOk := true, v0 := 4194304, demandAt := 100, validAt := 128000090, ws := List.replicate 21 4194304 }) (atTick 128000100 State.reset))
    |> onIlk (fun i => { i with up := true, st := .precheck, step := 1, enHs := (stepEn 1).1, enLs := (stepEn 1).2, rampReq := true, dsc := false })
   let w : Int := 4190000
   let i := s.saf
   let c := s.chip
   let t := c.tick
   let lost := i.monOk = true ∧ i.validAt + 3 * i.subTicks < t
   let value := c.hk.slope = some w
   s.saf.raised = [] ∧ s.saf.up = true ∧ s.saf.catB = true ∧ value ∧ ¬ lost ∧ i.st ≠ .ramp) ∧
  (let s : State := onHk (fun h => { h with slope := some 4190000 }) (onIlk (fun i => { i with up := true, sel := 0x80, selOk := true, st := .ramp, enHs := true, enLs := true, rampReq := true, monOk := true, v0 := 4194304, demandAt := 100, validAt := 128000090, ws := List.replicate 21 4194304 }) (atTick 128000100 State.reset))
    |> onHk (fun h => { h with slope := some 20971 })
   let w : Int := 20971
   let i := s.saf
   let c := s.chip
   let t := c.tick
   let vDone := fun (v0 x : Nat) => 500000 * x ≤ max (10000 * v0) 10485760000
   let lost := i.monOk = true ∧ i.validAt + 3 * i.subTicks < t
   let n := w.natAbs
   let value := c.hk.slope = some w
   s.saf.raised = [] ∧ s.saf.up = true ∧ s.saf.catB = true ∧ value ∧ ¬ lost ∧ i.st = .ramp ∧ vDone i.v0 n) ∧
  (let s : State := onHk (fun h => { h with slope := some 4190000 }) (onIlk (fun i => { i with up := true, sel := 0x80, selOk := true, st := .ramp, enHs := true, enLs := true, rampReq := true, monOk := true, v0 := 4194304, demandAt := 100, validAt := 128000090, ws := List.replicate 21 4194304 }) (atTick 128000100 State.reset))
    |> onHk (fun h => { h with slope := some 4278191 })
   let w : Int := 4278191
   let i := s.saf
   let c := s.chip
   let t := c.tick
   let vDone := fun (v0 x : Nat) => 500000 * x ≤ max (10000 * v0) 10485760000
   let lost := i.monOk = true ∧ i.validAt + 3 * i.subTicks < t
   let n := w.natAbs
   let above := 10000 * i.v0 + 838860800 < 10000 * n
   let value := c.hk.slope = some w
   let ramping := i.st = .ramp ∧ ¬ vDone i.v0 n
   s.saf.raised = [] ∧ s.saf.up = true ∧ s.saf.catB = true ∧ value ∧ ¬ lost ∧ ramping ∧ above) ∧
  (let s : State := onHk (fun h => { h with slope := some 4190000 }) (onIlk (fun i => { i with up := true, sel := 0x80, selOk := true, st := .ramp, enHs := true, enLs := true, rampReq := true, monOk := true, v0 := 4194304, demandAt := 100, validAt := 128000090, ws := List.replicate 21 4194304 }) (atTick 128000100 State.reset))
    |> onIlk (fun i => { i with ws := [4194304] })
   let w : Int := 4190000
   let i := s.saf
   let c := s.chip
   let t := c.tick
   let vDone := fun (v0 x : Nat) => 500000 * x ≤ max (10000 * v0) 10485760000
   let lost := i.monOk = true ∧ i.validAt + 3 * i.subTicks < t
   let run := min 20 (if i.monOk = true ∨ t ≤ i.validAt + 3 * i.subTicks then i.run + 1 else 1)
   let up := i.monOk = false ∧ run = 20
   let kept : Interlock := { i with
         ws := (w :: i.ws).take 21, run := run, validAt := t, monOk := (if up then true else i.monOk), monLost := if up then false else i.monLost }
   let n := w.natAbs
   let above := 10000 * i.v0 + 838860800 < 10000 * n
   let value := c.hk.slope = some w
   let ramping := i.st = .ramp ∧ ¬ vDone i.v0 n
   s.saf.raised = [] ∧ s.saf.up = true ∧ s.saf.catB = true ∧ value ∧ ¬ lost ∧ ramping ∧ ¬ above ∧ kept.ws[20]? = none) ∧
  (let s : State := onHk (fun h => { h with slope := some 4190000 }) (onIlk (fun i => { i with up := true, sel := 0x80, selOk := true, st := .ramp, enHs := true, enLs := true, rampReq := true, monOk := true, v0 := 4194304, demandAt := 100, validAt := 128000090, ws := List.replicate 21 4194304 }) (atTick 128000100 State.reset))
   let w : Int := 4190000
   let o : Int := 4194304
   let i := s.saf
   let c := s.chip
   let t := c.tick
   let vDone := fun (v0 x : Nat) => 500000 * x ≤ max (10000 * v0) 10485760000
   let lost := i.monOk = true ∧ i.validAt + 3 * i.subTicks < t
   let run := min 20 (if i.monOk = true ∨ t ≤ i.validAt + 3 * i.subTicks then i.run + 1 else 1)
   let up := i.monOk = false ∧ run = 20
   let kept : Interlock := { i with
         ws := (w :: i.ws).take 21, run := run, validAt := t, monOk := (if up then true else i.monOk), monLost := if up then false else i.monLost }
   let n := w.natAbs
   let above := 10000 * i.v0 + 838860800 < 10000 * n
   let fall : Int := (o.natAbs : Int) - n
   let per : Int := i.rampSec * if i.hz60 = true then 60 else 50
   let judged := i.demandAt + 128000000 ≤ t
   let outside := 2 * fall * per < i.v0 ∨ 2 * (i.v0 : Int) < fall * per
   let value := c.hk.slope = some w
   let ramping := i.st = .ramp ∧ ¬ vDone i.v0 n
   s.saf.raised = [] ∧ s.saf.up = true ∧ s.saf.catB = true ∧ value ∧ ¬ lost ∧ ramping ∧ ¬ above ∧ kept.ws[20]? = some o ∧ judged ∧ outside) ∧
  (let s : State := onHk (fun h => { h with slope := some 4190000 }) (onIlk (fun i => { i with up := true, sel := 0x80, selOk := true, st := .ramp, enHs := true, enLs := true, rampReq := true, monOk := true, v0 := 4194304, demandAt := 100, validAt := 128000090, ws := List.replicate 21 4194304 }) (atTick 128000100 State.reset))
    |> atTick 100
   let w : Int := 4190000
   let o : Int := 4194304
   let i := s.saf
   let c := s.chip
   let t := c.tick
   let vDone := fun (v0 x : Nat) => 500000 * x ≤ max (10000 * v0) 10485760000
   let lost := i.monOk = true ∧ i.validAt + 3 * i.subTicks < t
   let run := min 20 (if i.monOk = true ∨ t ≤ i.validAt + 3 * i.subTicks then i.run + 1 else 1)
   let up := i.monOk = false ∧ run = 20
   let kept : Interlock := { i with
         ws := (w :: i.ws).take 21, run := run, validAt := t, monOk := (if up then true else i.monOk), monLost := if up then false else i.monLost }
   let n := w.natAbs
   let above := 10000 * i.v0 + 838860800 < 10000 * n
   let fall : Int := (o.natAbs : Int) - n
   let per : Int := i.rampSec * if i.hz60 = true then 60 else 50
   let judged := i.demandAt + 128000000 ≤ t
   let outside := 2 * fall * per < i.v0 ∨ 2 * (i.v0 : Int) < fall * per
   let value := c.hk.slope = some w
   let ramping := i.st = .ramp ∧ ¬ vDone i.v0 n
   s.saf.raised = [] ∧ s.saf.up = true ∧ s.saf.catB = true ∧ value ∧ ¬ lost ∧ ramping ∧ ¬ above ∧ kept.ws[20]? = some o ∧ ¬ (judged ∧ outside)) ∧
  (let s : State := onHk (fun h => { h with slope := some 4190000 }) (onIlk (fun i => { i with up := true, sel := 0x80, selOk := true, st := .ramp, enHs := true, enLs := true, rampReq := true, monOk := true, v0 := 4194304, demandAt := 100, validAt := 128000090, ws := List.replicate 21 4194304 }) (atTick 128000100 State.reset))
   let i := s.saf
   let c := s.chip
   let t := c.tick
   let lost := i.monOk = true ∧ i.validAt + 3 * i.subTicks < t
   s.saf.raised = [] ∧ s.saf.up = true ∧ s.saf.catB = true ∧ ¬ lost) ∧
  (let s : State := onHk (fun h => { h with slope := some 4190000 }) (onIlk (fun i => { i with up := true, sel := 0x80, selOk := true, st := .ramp, enHs := true, enLs := true, rampReq := true, monOk := true, v0 := 4194304, demandAt := 100, validAt := 128000090, ws := List.replicate 21 4194304 }) (atTick 128000100 State.reset))
    |> onIlk (fun i => { i with up := true, st := .precheck, step := 3, enHs := (stepEn 3).1, enLs := (stepEn 3).2, rampReq := true, dsc := false })
    |> onIlk (fun i => { i with validAt := 100 })
   let i := s.saf
   let c := s.chip
   let t := c.tick
   let lost := i.monOk = true ∧ i.validAt + 3 * i.subTicks < t
   s.saf.raised = [] ∧ s.saf.up = true ∧ s.saf.catB = true ∧ lost ∧ i.st ≠ .ramp) ∧
  (let s : State := onHk (fun h => { h with slope := some 4190000 }) (onIlk (fun i => { i with up := true, sel := 0x80, selOk := true, st := .ramp, enHs := true, enLs := true, rampReq := true, monOk := true, v0 := 4194304, demandAt := 100, validAt := 128000090, ws := List.replicate 21 4194304 }) (atTick 128000100 State.reset))
    |> atTick 18432000100
   let i := s.saf
   let c := s.chip
   let t := c.tick
   let lost := i.monOk = true ∧ i.validAt + 3 * i.subTicks < t
   s.saf.raised = [] ∧ s.saf.up = true ∧ s.saf.catB = true ∧ lost ∧ i.st = .ramp) ∧
  (let s : State := onHk (fun h => { h with slope := some 4190000 }) (onIlk (fun i => { i with up := true, sel := 0x80, selOk := true, st := .ramp, enHs := true, enLs := true, rampReq := true, monOk := true, v0 := 4194304, demandAt := 100, validAt := 128000090, ws := List.replicate 21 4194304 }) (atTick 128000100 State.reset))
   let i := s.saf
   let c := s.chip
   let t := c.tick
   let limit := i.st = .ramp ∧ i.demandAt + 2000 * i.rampSec * 576000 ≤ t
   s.saf.raised = [] ∧ s.saf.up = true ∧ s.saf.catB = true ∧ ¬ limit) ∧
  (let s : State := onHk (fun h => { h with slope := some 4190000 }) (onIlk (fun i => { i with up := true, sel := 0x80, selOk := true, st := .ramp, enHs := true, enLs := true, rampReq := true, monOk := true, v0 := 4194304, demandAt := 100, validAt := 128000090, ws := List.replicate 21 4194304 }) (atTick 128000100 State.reset))
    |> atTick 18432000100
   let i := s.saf
   let c := s.chip
   let t := c.tick
   let limit := i.st = .ramp ∧ i.demandAt + 2000 * i.rampSec * 576000 ≤ t
   s.saf.raised = [] ∧ s.saf.up = true ∧ s.saf.catB = true ∧ limit) := by
  refine ⟨?_, ?_, ?_, ?_, ?_, ?_, ?_, ?_, ?_, ?_, ?_, ?_, ?_, ?_, ?_, ?_, ?_⟩ <;>
    decide +kernel

theorem witness_HelmOperations :
  (let s : State := State.reset
   let c := s.chip
   s.chip.live = true ∧ (c.mgt.queue = [] ∨ c.helmUp = false)) ∧
  (let s : State := State.reset |> helmQueue (instReq 0x82 (bytes4 4194301 ++ [1,2,3]))
   let q : HelmReq := s.chip.mgt.queue.headD (opReq 1 [])
   let r : List HelmReq := s.chip.mgt.queue.tail
   let c := s.chip
   s.chip.live = true ∧ c.mgt.queue = q :: r) ∧
  (let s : State := State.reset |> helmQueue (opReq 1 (bytes4 0x4BFFFFFC))
   let q : HelmReq := s.chip.mgt.queue.headD (opReq 1 [])
   let r : List HelmReq := s.chip.mgt.queue.tail
   let c := s.chip
   let runs := c.mgt.queue = q :: r ∧ c.helmUp = true
   s.chip.live = true ∧ runs ∧ q.op = 1 ∧ q.body.length = 4) ∧
  (let s : State := State.reset |> helmQueue (opReq 2 (bytes4 5 ++ [16]))
   let q : HelmReq := s.chip.mgt.queue.headD (opReq 1 [])
   let r : List HelmReq := s.chip.mgt.queue.tail
   let c := s.chip
   let runs := c.mgt.queue = q :: r ∧ c.helmUp = true
   s.chip.live = true ∧ runs ∧ q.op = 2) ∧
  (let s : State := State.reset |> helmQueue (opReq 3 (List.replicate 32 9))
   let q : HelmReq := s.chip.mgt.queue.headD (opReq 1 [])
   let r : List HelmReq := s.chip.mgt.queue.tail
   let c := s.chip
   let runs := c.mgt.queue = q :: r ∧ c.helmUp = true
   s.chip.live = true ∧ runs ∧ q.op = 3) ∧
  (let s : State := State.reset |> helmQueue (opReq 4 [])
   let q : HelmReq := s.chip.mgt.queue.headD (opReq 1 [])
   let r : List HelmReq := s.chip.mgt.queue.tail
   let c := s.chip
   let runs := c.mgt.queue = q :: r ∧ c.helmUp = true
   s.chip.live = true ∧ runs ∧ q.op = 4) ∧
  (let s : State := State.reset |> helmQueue (opReq 5 [])
   let q : HelmReq := s.chip.mgt.queue.headD (opReq 1 [])
   let r : List HelmReq := s.chip.mgt.queue.tail
   let c := s.chip
   let runs := c.mgt.queue = q :: r ∧ c.helmUp = true
   s.chip.live = true ∧ runs ∧ q.op = 5) ∧
  (let s : State := State.reset |> helmQueue (instReq 0x81 (bytes4 0x44000008 ++ bytes4 0xFFFFFFFF ++ bytes4 2))
   let q : HelmReq := s.chip.mgt.queue.headD (opReq 1 [])
   let r : List HelmReq := s.chip.mgt.queue.tail
   let c := s.chip
   let runs := c.mgt.queue = q :: r ∧ c.helmUp = true
   s.chip.live = true ∧ runs ∧ q.op = 0x81 ∧ q.body.length = 12) ∧
  (let s : State := State.reset |> helmQueue (instReq 0x82 (bytes4 4194301 ++ [1,2,3]))
   let q : HelmReq := s.chip.mgt.queue.headD (opReq 1 [])
   let r : List HelmReq := s.chip.mgt.queue.tail
   let c := s.chip
   let runs := c.mgt.queue = q :: r ∧ c.helmUp = true
   let f := beField q.body
   let fits := fun (size : Nat) => f 0 4 + (q.body.length - 4) ≤ size
   s.chip.live = true ∧ runs ∧ q.op = 0x82 ∧ fits 4194304) ∧
  (let s : State := State.reset |> helmQueue (instReq 0x82 (bytes4 4194302 ++ [1,2,3]))
   let q : HelmReq := s.chip.mgt.queue.headD (opReq 1 [])
   let r : List HelmReq := s.chip.mgt.queue.tail
   let c := s.chip
   let runs := c.mgt.queue = q :: r ∧ c.helmUp = true
   let f := beField q.body
   let fits := fun (size : Nat) => f 0 4 + (q.body.length - 4) ≤ size
   s.chip.live = true ∧ runs ∧ q.op = 0x82 ∧ ¬ fits 4194304) ∧
  (let s : State := State.reset |> helmQueue (instReq 0x83 (bytes4 2 ++ [1,2,3]))
   let q : HelmReq := s.chip.mgt.queue.headD (opReq 1 [])
   let r : List HelmReq := s.chip.mgt.queue.tail
   let c := s.chip
   let runs := c.mgt.queue = q :: r ∧ c.helmUp = true
   let f := beField q.body
   let fits := fun (size : Nat) => f 0 4 + (q.body.length - 4) ≤ size
   s.chip.live = true ∧ runs ∧ q.op = 0x83 ∧ fits 37748736) ∧
  (let s : State := State.reset |> helmQueue (instReq 0x83 (bytes4 37748734 ++ [1,2,3]))
   let q : HelmReq := s.chip.mgt.queue.headD (opReq 1 [])
   let r : List HelmReq := s.chip.mgt.queue.tail
   let c := s.chip
   let runs := c.mgt.queue = q :: r ∧ c.helmUp = true
   let f := beField q.body
   let fits := fun (size : Nat) => f 0 4 + (q.body.length - 4) ≤ size
   s.chip.live = true ∧ runs ∧ q.op = 0x83 ∧ ¬ fits 37748736) ∧
  (let s : State := State.reset |> helmQueue (instReq 0x85 (bytes4 2 ++ [1,2,3]))
   let q : HelmReq := s.chip.mgt.queue.headD (opReq 1 [])
   let r : List HelmReq := s.chip.mgt.queue.tail
   let c := s.chip
   let runs := c.mgt.queue = q :: r ∧ c.helmUp = true
   let f := beField q.body
   let fits := fun (size : Nat) => f 0 4 + (q.body.length - 4) ≤ size
   s.chip.live = true ∧ runs ∧ q.op = 0x85 ∧ fits 4194304) ∧
  (let s : State := State.reset |> helmQueue (instReq 0x85 (bytes4 4194302 ++ [1,2,3]))
   let q : HelmReq := s.chip.mgt.queue.headD (opReq 1 [])
   let r : List HelmReq := s.chip.mgt.queue.tail
   let c := s.chip
   let runs := c.mgt.queue = q :: r ∧ c.helmUp = true
   let f := beField q.body
   let fits := fun (size : Nat) => f 0 4 + (q.body.length - 4) ≤ size
   s.chip.live = true ∧ runs ∧ q.op = 0x85 ∧ ¬ fits 4194304) ∧
  (let s : State := State.reset |> helmQueue (opReq 0x87 (beBytes 8 0 ++ bytes4 7 ++ bytes4 3 ++ bytes4 9 ++ bytes4 1 ++ [0, 0] ++ beBytes 2 7))
   let q : HelmReq := s.chip.mgt.queue.headD (opReq 1 [])
   let r : List HelmReq := s.chip.mgt.queue.tail
   let c := s.chip
   let runs := c.mgt.queue = q :: r ∧ c.helmUp = true
   s.chip.live = true ∧ runs ∧ q.op = 0x87) ∧
  (let s : State := State.reset |> helmQueue (instReq 0x8B (List.replicate 44 7))
   let q : HelmReq := s.chip.mgt.queue.headD (opReq 1 [])
   let r : List HelmReq := s.chip.mgt.queue.tail
   let c := s.chip
   let runs := c.mgt.queue = q :: r ∧ c.helmUp = true
   s.chip.live = true ∧ runs ∧ q.op = 0x8B) ∧
  (let s : State := State.reset |> helmQueue (opReq 0x8A (beBytes 16 5 ++ beBytes 2 6 ++ beBytes 2 0xFFFF))
   let q : HelmReq := s.chip.mgt.queue.headD (opReq 1 [])
   let r : List HelmReq := s.chip.mgt.queue.tail
   let c := s.chip
   let runs := c.mgt.queue = q :: r ∧ c.helmUp = true
   s.chip.live = true ∧ runs ∧ q.op = 0x8A) ∧
  (let s : State := State.reset
   
      |> onEvt (fun e => { e with subs := [⟨0, 5, 7, 1, 50, 9, [], []⟩, ⟨1, 5, 8, 1, 50, 9, [], []⟩, ⟨2, 5, 9, 1, 50, 9, [], []⟩, ⟨3, 5, 10, 1, 50, 9, [], []⟩] })
    |> helmQueue (opReq 0x8A (beBytes 16 5 ++ beBytes 2 6 ++ beBytes 2 0xFFFF))
   let q : HelmReq := s.chip.mgt.queue.headD (opReq 1 [])
   let r : List HelmReq := s.chip.mgt.queue.tail
   let c := s.chip
   let runs := c.mgt.queue = q :: r ∧ c.helmUp = true
   let f := beField q.body
   let mine := fun (x : Subscriber) => x.ip = f 0 16 ∧ x.port = f 16 2
   let subs := c.evt.subs.filter (fun x => decide (c.tick < x.lapse))
   s.chip.live = true ∧ runs ∧ q.op = 0x8A ∧ (∀ x ∈ subs, ¬ mine x) ∧ ((∀ k, k < 4 → ∃ x ∈ subs, x.num = k))) ∧
  (let s : State := State.reset |> helmQueue (opReq 0x8A (beBytes 16 5 ++ beBytes 2 6 ++ beBytes 2 0xFFFF))
   let q : HelmReq := s.chip.mgt.queue.headD (opReq 1 [])
   let r : List HelmReq := s.chip.mgt.queue.tail
   let c := s.chip
   let runs := c.mgt.queue = q :: r ∧ c.helmUp = true
   let f := beField q.body
   let mine := fun (x : Subscriber) => x.ip = f 0 16 ∧ x.port = f 16 2
   let subs := c.evt.subs.filter (fun x => decide (c.tick < x.lapse))
   s.chip.live = true ∧ runs ∧ q.op = 0x8A ∧ (∀ x ∈ subs, ¬ mine x) ∧ (∀ x ∈ subs, x.num ≠ 0)) := by
  refine ⟨?_, ?_, ?_, ?_, ?_, ?_, ?_, ?_, ?_, ?_, ?_, ?_, ?_, ?_, ?_, ?_, ?_, ?_, ?_⟩ <;>
    decide +kernel

theorem witness_HelmAdministration :
  (let s : State := helmState |> mgrFld F.GBL_CTL_RUN_EN 1 |> helmQueue (instReq 0x84 (bytes4 250))
   let q : HelmReq := s.chip.mgt.queue.headD (opReq 1 [])
   let r : List HelmReq := s.chip.mgt.queue.tail
   let c := s.chip
   let runs := fun (op : Nat) => c.mgt.queue = q :: r ∧ c.helmUp = true ∧ q.op = op
   s.chip.live = true ∧ runs 0x84 ∧ c.run = true) ∧
  (let s : State := helmState |> helmQueue (instReq 0x84 (bytes4 37748737)) |> mgrFld F.LOG_STAT_NVM_FAIL 1
   let q : HelmReq := s.chip.mgt.queue.headD (opReq 1 [])
   let r : List HelmReq := s.chip.mgt.queue.tail
   let c := s.chip
   let runs := fun (op : Nat) => c.mgt.queue = q :: r ∧ c.helmUp = true ∧ q.op = op
   let dead := c.b F.LOG_STAT_NVM_FAIL = true
   s.chip.live = true ∧ runs 0x84 ∧ c.run = false ∧ dead) ∧
  (let s : State := helmState |> helmQueue (instReq 0x84 (bytes4 0))
   let q : HelmReq := s.chip.mgt.queue.headD (opReq 1 [])
   let r : List HelmReq := s.chip.mgt.queue.tail
   let why : Nat := 21
   let c := s.chip
   let taken : Chip := ({ c with mgt := { c.mgt with queue := r } } : Chip).setContext q.role q.fp
   let runs := fun (op : Nat) => c.mgt.queue = q :: r ∧ c.helmUp = true ∧ q.op = op
   let f := beField q.body
   let dead := c.b F.LOG_STAT_NVM_FAIL = true
   let len := f 0 4
   let trim := taken.verifyTrim c.mgt.stgTrim len
   s.chip.live = true ∧ runs 0x84 ∧ c.run = false ∧ ¬ dead ∧ trim = some why) ∧
  (let s : State := helmState |> mgrFld F.LOG_STAT_NVM_FAIL 1
   let q : HelmReq := s.chip.mgt.queue.headD (opReq 1 [])
   let r : List HelmReq := s.chip.mgt.queue.tail
   let c := s.chip
   let runs := fun (op : Nat) => c.mgt.queue = q :: r ∧ c.helmUp = true ∧ q.op = op
   let dead := c.b F.LOG_STAT_NVM_FAIL = true
   s.chip.live = true ∧ runs 0x86 ∧ dead) ∧
  (let s : State := helmState |> helmQueue (instReq 0x86 (bytes4 4194305))
   let q : HelmReq := s.chip.mgt.queue.headD (opReq 1 [])
   let r : List HelmReq := s.chip.mgt.queue.tail
   let c := s.chip
   let runs := fun (op : Nat) => c.mgt.queue = q :: r ∧ c.helmUp = true ∧ q.op = op
   let f := beField q.body
   let dead := c.b F.LOG_STAT_NVM_FAIL = true
   let len := f 0 4
   s.chip.live = true ∧ runs 0x86 ∧ ¬ dead ∧ 4194304 < len) ∧
  (let s : State := helmState |> helmQueue (instReq 0x86 (bytes4 4194304))
   let q : HelmReq := s.chip.mgt.queue.headD (opReq 1 [])
   let r : List HelmReq := s.chip.mgt.queue.tail
   let c := s.chip
   let runs := fun (op : Nat) => c.mgt.queue = q :: r ∧ c.helmUp = true ∧ q.op = op
   let f := beField q.body
   let dead := c.b F.LOG_STAT_NVM_FAIL = true
   let len := f 0 4
   let fits := ¬ dead ∧ len ≤ 4194304
   s.chip.live = true ∧ runs 0x86 ∧ fits) ∧
  (let s : State := helmState |> helmQueue (instReq 0x86 (bytes4 0))
   let q : HelmReq := s.chip.mgt.queue.headD (opReq 1 [])
   let r : List HelmReq := s.chip.mgt.queue.tail
   let why : Nat := 21
   let c := s.chip
   let taken : Chip := ({ c with mgt := { c.mgt with queue := r } } : Chip).setContext q.role q.fp
   let runs := fun (op : Nat) => c.mgt.queue = q :: r ∧ c.helmUp = true ∧ q.op = op
   let f := beField q.body
   let dead := c.b F.LOG_STAT_NVM_FAIL = true
   let len := f 0 4
   let g := sliceBytes c.mgt.stgFw 0 len
   let fits := ¬ dead ∧ len ≤ 4194304
   let fw := taken.verifyFw g len
   s.chip.live = true ∧ runs 0x86 ∧ fits ∧ fw = some why) ∧
  (let s : State := helmState |> helmQueue (instReq 0x88 (List.replicate 274 3)) |> mgrFld F.LOG_STAT_NVM_FAIL 1
   let q : HelmReq := s.chip.mgt.queue.headD (opReq 1 [])
   let r : List HelmReq := s.chip.mgt.queue.tail
   let c := s.chip
   let runs := fun (op : Nat) => c.mgt.queue = q :: r ∧ c.helmUp = true ∧ q.op = op
   let dead := c.b F.LOG_STAT_NVM_FAIL = true
   s.chip.live = true ∧ runs 0x88 ∧ dead) ∧
  (let s : State := helmState |> helmQueue (instReq 0x88 (List.replicate 274 3))
   let q : HelmReq := s.chip.mgt.queue.headD (opReq 1 [])
   let r : List HelmReq := s.chip.mgt.queue.tail
   let c := s.chip
   let taken : Chip := ({ c with mgt := { c.mgt with queue := r } } : Chip).setContext q.role q.fp
   let runs := fun (op : Nat) => c.mgt.queue = q :: r ∧ c.helmUp = true ∧ q.op = op
   let dead := c.b F.LOG_STAT_NVM_FAIL = true
   let pub := sliceBytes q.body 24 57
   let fp := fingerprint pub
   let known := ∃ y ∈ c.nvm.keys, y.fp = fp
   let cert := taken.certGood q.body = true ∧ (known ∨ c.nvm.keys.length < 32)
   s.chip.live = true ∧ runs 0x88 ∧ ¬ dead ∧ ¬ cert) ∧
  (let s : State := helmState |> helmQueue (instReq 0x89 (beBytes 8 5)) |> mgrFld F.LOG_STAT_NVM_FAIL 1
   let q : HelmReq := s.chip.mgt.queue.headD (opReq 1 [])
   let r : List HelmReq := s.chip.mgt.queue.tail
   let c := s.chip
   let runs := fun (op : Nat) => c.mgt.queue = q :: r ∧ c.helmUp = true ∧ q.op = op
   let dead := c.b F.LOG_STAT_NVM_FAIL = true
   s.chip.live = true ∧ runs 0x89 ∧ dead) ∧
  (let s : State := helmState |> helmQueue (instReq 0x89 (beBytes 8 (5 + 1)))
   let q : HelmReq := s.chip.mgt.queue.headD (opReq 1 [])
   let r : List HelmReq := s.chip.mgt.queue.tail
   let c := s.chip
   let runs := fun (op : Nat) => c.mgt.queue = q :: r ∧ c.helmUp = true ∧ q.op = op
   let f := beField q.body
   let dead := c.b F.LOG_STAT_NVM_FAIL = true
   let held := ∃ y ∈ c.nvm.keys, y.fp = f 0 8
   s.chip.live = true ∧ runs 0x89 ∧ ¬ dead ∧ ¬ held) ∧
  (let s : State := helmState |> helmQueue (instReq 0x89 (beBytes 8 5))
   let q : HelmReq := s.chip.mgt.queue.headD (opReq 1 [])
   let r : List HelmReq := s.chip.mgt.queue.tail
   let c := s.chip
   let runs := fun (op : Nat) => c.mgt.queue = q :: r ∧ c.helmUp = true ∧ q.op = op
   let f := beField q.body
   let dead := c.b F.LOG_STAT_NVM_FAIL = true
   let held := ∃ y ∈ c.nvm.keys, y.fp = f 0 8
   s.chip.live = true ∧ runs 0x89 ∧ ¬ dead ∧ held) ∧
  (let s : State := helmState |> helmQueue (instReq 0x8C [0])
   let q : HelmReq := s.chip.mgt.queue.headD (opReq 1 [])
   let r : List HelmReq := s.chip.mgt.queue.tail
   let c := s.chip
   let runs := fun (op : Nat) => c.mgt.queue = q :: r ∧ c.helmUp = true ∧ q.op = op
   let f := beField q.body
   s.chip.live = true ∧ runs 0x8C ∧ f 0 1 = 0) ∧
  (let s : State := helmState |> helmQueue (instReq 0x8C [1])
   let q : HelmReq := s.chip.mgt.queue.headD (opReq 1 [])
   let r : List HelmReq := s.chip.mgt.queue.tail
   let c := s.chip
   let runs := fun (op : Nat) => c.mgt.queue = q :: r ∧ c.helmUp = true ∧ q.op = op
   let f := beField q.body
   s.chip.live = true ∧ runs 0x8C ∧ f 0 1 ≠ 0) ∧
  (let s : State := helmState |> helmQueue (instReq 0x8D [7])
   let q : HelmReq := s.chip.mgt.queue.headD (opReq 1 [])
   let r : List HelmReq := s.chip.mgt.queue.tail
   let c := s.chip
   let runs := fun (op : Nat) => c.mgt.queue = q :: r ∧ c.helmUp = true ∧ q.op = op
   s.chip.live = true ∧ runs 0x8D) ∧
  (let s : State := helmState |> helmQueue (instReq 0x8E [1, 2])
   let q : HelmReq := s.chip.mgt.queue.headD (opReq 1 [])
   let r : List HelmReq := s.chip.mgt.queue.tail
   let c := s.chip
   let runs := fun (op : Nat) => c.mgt.queue = q :: r ∧ c.helmUp = true ∧ q.op = op
   s.chip.live = true ∧ runs 0x8E) := by
  refine ⟨?_, ?_, ?_, ?_, ?_, ?_, ?_, ?_, ?_, ?_, ?_, ?_, ?_, ?_, ?_, ?_⟩ <;>
    decide +kernel

theorem witness_EventsReported :
  (let s : State := State.reset
   let e : Nat := 78
   s.chip.live = true ∧ eventReserved e = true) ∧
  (let s : State := State.reset
   let e : Nat := 5
   s.chip.live = true ∧ eventReserved e = false) ∧
  (let s : State := State.reset
   let e : Nat := 78
   let c := s.chip
   let count := fun (m : AMap Nat) (k : Nat) => AMap.get (always 0) m k
   let n := count c.evt.since e
   let last := count c.evt.recAt e
   let due := n ≠ 0 ∧ (last = 0 ∨ last + 640000000 ≤ c.tick + 1)
   s.chip.live = true ∧ ¬ due) ∧
  (let s : State := State.reset |> onEvt (fun e => { e with since := [(48, 3), (230, 70000)] })
   let e : Nat := 48
   let c := s.chip
   let count := fun (m : AMap Nat) (k : Nat) => AMap.get (always 0) m k
   let n := count c.evt.since e
   let last := count c.evt.recAt e
   let due := n ≠ 0 ∧ (last = 0 ∨ last + 640000000 ≤ c.tick + 1)
   let room := c.log.waiting = [] ∧ c.log.queue.length < 64
   s.chip.live = true ∧ due ∧ room) ∧
  (let s : State := State.reset |> onEvt (fun e => { e with since := [(48, 3), (230, 70000)] })
    |> onLog (fun l => { l with waiting := [⟨1,2,3,4,5⟩] })
   let e : Nat := 48
   let c := s.chip
   let count := fun (m : AMap Nat) (k : Nat) => AMap.get (always 0) m k
   let n := count c.evt.since e
   let last := count c.evt.recAt e
   let due := n ≠ 0 ∧ (last = 0 ∨ last + 640000000 ≤ c.tick + 1)
   let room := c.log.waiting = [] ∧ c.log.queue.length < 64
   s.chip.live = true ∧ due ∧ ¬ room) ∧
  (let s : State := State.reset
   let e : Nat := 78
   let num : Nat := 1
   let x : Subscriber := { num := 0, ip := 5, port := 7, mask := 8, lapse := 50, seq := 9, sent := [], due := [] }
   let c := s.chip
   let count := fun (m : AMap Nat) (k : Nat) => AMap.get (always 0) m k
   let recent := (AMap.get (always []) x.sent e).filter (fun u => decide (c.tick < u + 640000000))
   let sends := count x.due e ≠ 0 ∧ recent.length < 10 ∧ c.int.coresUp = true
   let found := c.evt.subs.find? (fun y => decide (y.num = num ∧ c.tick < y.lapse))
   s.chip.live = true ∧ (found = none ∨ (found = some x ∧ ¬ sends))) ∧
  (let s : State := State.reset
    |> onEvt (fun e => { e with subs := [⟨0, 5, 7, 8, 50, 9, [(48, [100, 90])], [(48, 3)]⟩, ⟨1, 5, 8, 0xFFFF, 500, 0xFFFFFFFF, [], []⟩] })
   let e : Nat := 48
   let num : Nat := 0
   let x : Subscriber := { num := 0, ip := 5, port := 7, mask := 8, lapse := 50, seq := 9, sent := [(48, [100, 90])], due := [(48, 3)] }
   let c := s.chip
   let count := fun (m : AMap Nat) (k : Nat) => AMap.get (always 0) m k
   let recent := (AMap.get (always []) x.sent e).filter (fun u => decide (c.tick < u + 640000000))
   let sends := count x.due e ≠ 0 ∧ recent.length < 10 ∧ c.int.coresUp = true
   let found := c.evt.subs.find? (fun y => decide (y.num = num ∧ c.tick < y.lapse))
   s.chip.live = true ∧ found = some x ∧ sends) := by
  refine ⟨?_, ?_, ?_, ?_, ?_, ?_, ?_⟩ <;>
    decide +kernel

theorem witness_LogbookKept :
  (let s : State := State.reset
   let c := s.chip
   let l := c.log
   let alone := l.waiting = []
   s.chip.live = true ∧ alone ∧ l.queue.length < 64) ∧
  (let s : State := State.reset |> onLog (fun l => { l with queue := List.replicate 64 ⟨1,2,3,4,5,1,0,0,9⟩ })
   let c := s.chip
   let l := c.log
   let alone := l.waiting = []
   s.chip.live = true ∧ alone ∧ 64 ≤ l.queue.length) ∧
  (let s : State := State.reset
   let c := s.chip
   let l := c.log
   let alone := l.waiting = []
   s.chip.live = true ∧ alone ∧ l.queue = []) ∧
  (let s : State := State.reset
    |> onLog (fun l => { l with queue := List.replicate 64 ⟨1,2,3,4,5,1,0,0,9⟩, waiting := [⟨4,1,2,3,9⟩, ⟨8,1,7,3,9⟩], wrWait := 2 })
   let r : LogRec := s.chip.log.queue.headD ⟨1, 2, 3, 4, 5, 1, 0, 0, 9⟩
   let q : List LogRec := s.chip.log.queue.tail
   let c := s.chip
   let l := c.log
   let fine := c.b F.LOG_STAT_NVM_FAIL = false
   s.chip.live = true ∧ fine ∧ l.queue = r :: q) ∧
  (let s : State := State.reset |> onLog (fun l => { l with queue := List.replicate 63 ⟨1,2,3,4,5,1,0,0,9⟩ })
   let r : LogRec := s.chip.log.queue.headD ⟨1, 2, 3, 4, 5, 1, 0, 0, 9⟩
   let q : List LogRec := s.chip.log.queue.tail
   let c := s.chip
   let l := c.log
   let fine := c.b F.LOG_STAT_NVM_FAIL = false
   s.chip.live = true ∧ fine ∧ l.queue = r :: q ∧ l.tries = 0) ∧
  (let s : State := State.reset |> onLog (fun l => { l with nextLoc := 4096, tries := 1 })
    |> onLog (fun l => { l with queue := [⟨7,2,3,4,5,1,0,0,9⟩] })
   let r : LogRec := s.chip.log.queue.headD ⟨1, 2, 3, 4, 5, 1, 0, 0, 9⟩
   let q : List LogRec := s.chip.log.queue.tail
   let c := s.chip
   let l := c.log
   let fine := c.b F.LOG_STAT_NVM_FAIL = false
   s.chip.live = true ∧ fine ∧ l.queue = r :: q ∧ l.tries ≠ 0 ∧ l.failedLocs < 3) ∧
  (let s : State := State.reset
    |> onLog (fun l => { l with queue := List.replicate 64 ⟨1,2,3,4,5,1,0,0,9⟩, waiting := [⟨4,1,2,3,9⟩, ⟨8,1,7,3,9⟩], wrWait := 2 })
    |> onLog (fun l => { l with tries := 1, failedLocs := 3 })
   let r : LogRec := s.chip.log.queue.headD ⟨1, 2, 3, 4, 5, 1, 0, 0, 9⟩
   let q : List LogRec := s.chip.log.queue.tail
   let c := s.chip
   let l := c.log
   let fine := c.b F.LOG_STAT_NVM_FAIL = false
   s.chip.live = true ∧ fine ∧ l.queue = r :: q ∧ l.tries ≠ 0 ∧ 3 ≤ l.failedLocs) ∧
  (let s : State := State.reset |> mgrFld F.LOG_STAT_NVM_FAIL 1 |> onLog (fun l => { l with queue := [⟨7,2,3,4,5,1,0,0,9⟩, ⟨8,2,3,4,7,1,0,0,9⟩] })
   let r : LogRec := s.chip.log.queue.headD ⟨1, 2, 3, 4, 5, 1, 0, 0, 9⟩
   let q : List LogRec := s.chip.log.queue.tail
   let c := s.chip
   let l := c.log
   let fine := c.b F.LOG_STAT_NVM_FAIL = false
   s.chip.live = true ∧ ¬ fine ∧ l.queue = r :: q) ∧
  (let s : State := State.reset |> mgrFld F.LOG_STAT_NVM_FAIL 1
   let c := s.chip
   let fine := c.b F.LOG_STAT_NVM_FAIL = false
   s.chip.live = true ∧ ¬ fine) ∧
  (let s : State := State.reset
   let c := s.chip
   let fine := c.b F.LOG_STAT_NVM_FAIL = false
   s.chip.live = true ∧ fine) ∧
  (let s : State := State.reset
   let c := s.chip
   let l := c.log
   let counts := 0 ∉ c.pwr.brown ∧ l.opFrom + 9000000000 ≤ c.tick
   s.chip.live = true ∧ ¬ counts) ∧
  (let s : State := State.reset |> atTick 9000000005
   let c := s.chip
   let l := c.log
   let counts := 0 ∉ c.pwr.brown ∧ l.opFrom + 9000000000 ≤ c.tick
   s.chip.live = true ∧ counts) ∧
  (let s : State := State.reset
   let c := s.chip
   let link := c.b F.MGT_STAT_LINK = true
   s.chip.live = true ∧ ¬ link) ∧
  (let s : State := State.reset |> mgrFld F.MGT_STAT_LINK 1
   let c := s.chip
   let link := c.b F.MGT_STAT_LINK = true
   s.chip.live = true ∧ link) ∧
  (let s : State := State.reset |> mgrFld F.MGT_STAT_LINK 1
   let c := s.chip
   let link := c.b F.MGT_STAT_LINK = true
   s.chip.live = true ∧ link ∧ c.helmUp = true) ∧
  (let s : State := State.reset
   let up : Bool := false
   let c := s.chip
   s.chip.live = true ∧ c.b F.MGT_STAT_LINK = up) ∧
  (let s : State := State.reset |> mgrFld F.MGT_STAT_LINK 1
   let up : Bool := false
   let c := s.chip
   s.chip.live = true ∧ c.b F.MGT_STAT_LINK ≠ up) := by
  refine ⟨?_, ?_, ?_, ?_, ?_, ?_, ?_, ?_, ?_, ?_, ?_, ?_, ?_, ?_, ?_, ?_, ?_⟩ <;>
    decide +kernel

theorem witness_ManagerStart :
  (let s : State := State.reset
   let c := s.chip
   let p := c.pwr
   let brown := ∃ n ∈ p.brown, n < 9
   (p.por = false ∨ brown)) ∧
  (let s : State := State.reset |> onChip (fun c => { c with pwr := { c.pwr with por := true } })
    |> onChip (fun c => { c with pwr := { c.pwr with resetN := true } })
   let c := s.chip
   let p := c.pwr
   let brown := ∃ n ∈ p.brown, n < 9
   p.por = true ∧ ¬ brown ∧ p.resetN = true) ∧
  (let s : State := State.reset |> onChip (fun c => { c with pwr := { c.pwr with por := true } })
   let c := s.chip
   let p := c.pwr
   let brown := ∃ n ∈ p.brown, n < 9
   p.por = true ∧ ¬ brown ∧ p.resetN = false) ∧
  (let s : State := State.reset |> onChip (fun c => { c with pwr := { c.pwr with ignored := true, highSince := some 100 } })
   let c := s.chip
   let p := c.pwr
   p.ignored = true) ∧
  (let s : State := State.reset |> onChip (fun c => { c with pwr := { c.pwr with resetN := true, lowSince := some 100, stuckPol := true } })
   let c := s.chip
   let p := c.pwr
   p.ignored = false ∧ p.resetN = true) ∧
  (let s : State := State.reset |> onChip (fun c => { c with pwr := { c.pwr with por := true } })
   let c := s.chip
   let p := c.pwr
   p.ignored = false ∧ p.resetN = false ∧ p.por = true) ∧
  (let s : State := State.reset
   let c := s.chip
   let p := c.pwr
   p.ignored = false ∧ p.resetN = false ∧ p.por = false) ∧
  (let s : State := State.reset
   let c := s.chip
   let p := c.pwr
   p.ignored = false ∧ p.resetN = false) ∧
  (let s : State := State.reset |> onChip (fun c => { c with pwr := { c.pwr with por := true } })
    |> onChip (fun c => { c with pwr := { c.pwr with resetN := true } })
   let c := s.chip
   let p := c.pwr
   p.ignored = false ∧ p.resetN = true ∧ p.por = true) ∧
  (let s : State := State.reset |> onChip (fun c => { c with pwr := { c.pwr with resetN := true, lowSince := some 100, stuckPol := true } })
   let c := s.chip
   let p := c.pwr
   p.ignored = false ∧ p.resetN = true ∧ p.por = false) ∧
  (let s : State := State.reset |> onChip (fun c => { c with pwr := { c.pwr with resetN := true, lowSince := some 100, stuckPol := true } })
    |> atTick 6400000100
   let t : Nat := 100
   let c := s.chip
   let p := c.pwr
   let failed := p.lowSince = some t ∧ p.stuckPol = true ∧ p.por = false ∧ p.resetN = true ∧ t + 6400000000 ≤ c.tick
   failed) ∧
  (let s : State := State.reset
   let t : Nat := 0
   let c := s.chip
   let p := c.pwr
   let failed := p.lowSince = some t ∧ p.stuckPol = true ∧ p.por = false ∧ p.resetN = true ∧ t + 6400000000 ≤ c.tick
   (p.lowSince = none ∨ (p.lowSince = some t ∧ ¬ failed))) ∧
  (let s : State := State.reset |> onChip (fun c => { c with pwr := { c.pwr with ignored := true, highSince := some 100 } }) |> atTick 6400000100
   let t : Nat := 100
   let c := s.chip
   let p := c.pwr
   let long := p.highSince = some t ∧ p.ignored = true ∧ t + 64000000 ≤ c.tick
   long) ∧
  (let s : State := State.reset
   let t : Nat := 0
   let c := s.chip
   let p := c.pwr
   let long := p.highSince = some t ∧ p.ignored = true ∧ t + 64000000 ≤ c.tick
   (p.highSince = none ∨ (p.highSince = some t ∧ ¬ long))) := by
  refine ⟨?_, ?_, ?_, ?_, ?_, ?_, ?_, ?_, ?_, ?_, ?_, ?_, ?_, ?_⟩ <;>
    decide +kernel

theorem witness_SuppliesAndWorkers :
  (let s : State := State.reset
   let n : Nat := 11
   10 < n) ∧
  (let s : State := State.reset |> onChip (fun c => { c with pwr := { c.pwr with resetN := true, lowSince := some 100, stuckPol := true } })
   let n : Nat := 10
   let c := s.chip
   (10 < n ∨ c.live = false)) ∧
  (let s : State := State.reset
   let n : Nat := 1
   let c := s.chip
   n ≤ 10 ∧ c.live = true) ∧
  (let s : State := State.reset |> onChip (fun c => { c with pwr := { c.pwr with brown := [9, 10] } })
   let n : Nat := 9
   let c := s.chip
   let p := c.pwr
   n < 10 ∧ n ∈ p.brown) ∧
  (let s : State := State.reset
   let n : Nat := 1
   let c := s.chip
   let p := c.pwr
   let new := n < 10 ∧ n ∉ p.brown
   new ∧ n ∈ [0, 1, 2, 5, 6, 7]) ∧
  (let s : State := State.reset
   let n : Nat := 4
   let c := s.chip
   let p := c.pwr
   let new := n < 10 ∧ n ∉ p.brown
   new ∧ (n = 3 ∨ n = 4)) ∧
  (let s : State := State.reset
   let n : Nat := 8
   let c := s.chip
   let p := c.pwr
   let new := n < 10 ∧ n ∉ p.brown
   new ∧ n = 8) ∧
  (let s : State := State.reset
   let n : Nat := 9
   let c := s.chip
   let p := c.pwr
   let new := n < 10 ∧ n ∉ p.brown
   new ∧ n = 9) ∧
  (let s : State := State.reset |> onIlk (fun i => { i with up := true, st := .on, enHs := true, enLs := true, rampReq := false, fbHs := true })
   let i := s.saf
   s.Inv ∧ i.up = true) ∧
  (let s : State := State.reset
   let i := s.saf
   s.Inv ∧ i.up = false) ∧
  (let s : State := State.reset
   let n : Nat := 1
   let c := s.chip
   let p := c.pwr
   n ∉ p.brown) ∧
  (let s : State := State.reset |> onChip (fun c => { c with pwr := { c.pwr with brown := [8, 3] } })
   let n : Nat := 3
   let c := s.chip
   let p := c.pwr
   n ∈ p.brown ∧ n ≠ 9) ∧
  (let s : State := State.reset |> onChip (fun c => { c with pwr := { c.pwr with brown := [9, 10] } })
   let n : Nat := 9
   let c := s.chip
   let p := c.pwr
   n ∈ p.brown ∧ n = 9) ∧
  (let s : State := State.reset |> onChip (fun c => { c with pwr := { c.pwr with resetN := true, lowSince := some 100, stuckPol := true } })
   let c := s.chip
   c.live = false) ∧
  (let s : State := State.reset
   let c := s.chip
   c.live = true) ∧
  (let s : State := State.reset
   let k : Nat := 1024
   1024 ≤ k) ∧
  (let s : State := State.reset
   let k : Nat := 1
   k < 1024) ∧
  (let s : State := State.reset
   let k : Nat := 1
   let c := s.chip
   let x := c.worker k
   k < 1024 ∧ x.ctl.inReset = false) ∧
  (let s : State := State.reset |> onCtl 1 (fun c => { c with powered := false, inReset := true })
   let k : Nat := 1
   let c := s.chip
   let x := c.worker k
   k < 1024 ∧ x.ctl.inReset = true) ∧
  (let s : State := State.reset |> atTick 6400000100
   let k : Nat := 1
   let c := s.chip
   let x := c.worker k
   let lost := ∀ west, (x.port west).locked = false ∧ (x.port west).rx.huntFrom + 12800000 ≤ c.tick
   s.alive k ∧ lost) ∧
  (let s : State := State.reset |> onCtl 1 (fun c => { c with powered := false })
   let k : Nat := 1
   let c := s.chip
   let x := c.worker k
   let lost := ∀ west, (x.port west).locked = false ∧ (x.port west).rx.huntFrom + 12800000 ≤ c.tick
   (¬ s.alive k ∨ ¬ lost)) := by
  refine ⟨?_, ?_, ?_, ?_, ?_, ?_, ?_, ?_, ?_, ?_, ?_, ?_, ?_, ?_, ?_, ?_, ?_, ?_, ?_, ?_, ?_⟩
  · decide +kernel
  · decide +kernel
  · decide +kernel
  · decide +kernel
  · decide +kernel
  · decide +kernel
  · decide +kernel
  · decide +kernel
  · unfold State.Inv; decide +kernel
  · unfold State.Inv; decide +kernel
  · decide +kernel
  · decide +kernel
  · decide +kernel
  · decide +kernel
  · decide +kernel
  · decide +kernel
  · decide +kernel
  · decide +kernel
  · decide +kernel
  · unfold State.alive; decide +kernel
  · unfold State.alive; decide +kernel

theorem witness_DieTemperature :
  (let s : State := State.reset
   s.chip.live = true) := by
  decide +kernel

theorem witness_RegisterWrites :
  (let s : State := State.reset
   let a : Nat := 1124073736
   let z : AccSize := AccSize.byte
   s.chip.live = true ∧ inBlocks a = true ∧ (z ≠ .word ∨ a % 4 ≠ 0)) ∧
  (let s : State := State.reset
   let a : Nat := 1124073736
   let n : Nat := 13
   let r : RegSpec := { name := "EGR_LANE2", base := 1124073736, stride := 16, count := 9, reset := 0, rw := 0, w1c := 0, rwl := [] }
   let plain := a / 2 ^ 24 = 0x43 ∧ a % 4 = 0 ∧ a ≠ 0x43000000 ∧ mgrSpecAt a = some r
   s.chip.live = true ∧ plain ∧ n < 32) ∧
  (let s : State := State.reset
   let a : Nat := 1124073736
   let v : Word := 0x00000000#32
   let r : RegSpec := { name := "EGR_LANE2", base := 1124073736, stride := 16, count := 9, reset := 0, rw := 0, w1c := 0, rwl := [] }
   let c := s.chip
   let may := fun (f : RwlFld) => c.role.mayWrite f.role = true
   let bad := ∃ f ∈ r.rwl, ¬ may f ∧ bitsOf v.toNat f.hi f.lo ≠ if f.selfClear then 0 else bitsOf (c.word a).toNat f.hi f.lo
   let plain := a / 2 ^ 24 = 0x43 ∧ a % 4 = 0 ∧ a ≠ 0x43000000 ∧ mgrSpecAt a = some r
   s.chip.live = true ∧ plain ∧ ¬ bad) ∧
  (let s : State := State.reset
   let a : Nat := 1124073484
   let v : Word := 0x80000000#32
   let r : RegSpec := { name := "EGR_FAULT", base := 1124073484, stride := 4, count := 1, reset := 1048676, rw := 0, w1c := 0, rwl := [{ hi := 31, lo := 16, role := RoleCol.installer, selfClear := false }, { hi := 15, lo := 0, role := RoleCol.installer, selfClear := false }] }
   let c := s.chip
   let may := fun (f : RwlFld) => c.role.mayWrite f.role = true
   let bad := ∃ f ∈ r.rwl, ¬ may f ∧ bitsOf v.toNat f.hi f.lo ≠ if f.selfClear then 0 else bitsOf (c.word a).toNat f.hi f.lo
   let plain := a / 2 ^ 24 = 0x43 ∧ a % 4 = 0 ∧ a ≠ 0x43000000 ∧ mgrSpecAt a = some r
   let room := c.log.waiting = [] ∧ c.log.queue.length < 64
   s.chip.live = true ∧ plain ∧ bad ∧ room) ∧
  (let s : State := State.reset |> wkrFld 1 F.WK_GSTAT_FWD_ONLY 1
   let a : Nat := 1073741826
   let k : Nat := 1
   let c := s.chip
   let x := c.worker k
   let fallback := x.b F.WK_GSTAT_FWD_ONLY = true
   s.chip.live = true ∧ s.alive k ∧ fallback ∧ a ∉ [0x001, 0x003] ∧ (linkAddr a).isSome = false) ∧
  (let s : State := State.reset
   let k : Nat := 0
   let v : Word := 0xffffffff#32
   let c := s.chip
   let x := c.worker k
   s.chip.live = true ∧ v.getLsbD 31 = true ∧ x.running = false ∧ c.enableReason k ≠ 0) ∧
  (let s : State := State.reset
   let k : Nat := 1
   s.chip.live = true ∧ s.alive k) ∧
  (let s : State := State.reset
   let k : Nat := 1
   let c := s.chip
   let x := c.worker k
   let fallback := x.b F.WK_GSTAT_FWD_ONLY = true
   s.chip.live = true ∧ s.alive k ∧ ¬ fallback) := by
  refine ⟨?_, ?_, ?_, ?_, ?_, ?_, ?_, ?_⟩
  · decide +kernel
  · decide +kernel
  · decide +kernel
  · decide +kernel
  · unfold State.alive; decide +kernel
  · decide +kernel
  · unfold State.alive; decide +kernel
  · unfold State.alive; decide +kernel

theorem witness_EmptyAndReadOnly :
  (let s : State := State.reset
   let a : Nat := 1233617420
   let whole := a % 4 = 0
   s.chip.live = true ∧ whole ∧ noRegister a = true) ∧
  (let s : State := State.reset
   let a : Nat := 1074921980
   let p : Nat := 128
   let o : Nat := 508
   let whole := a % 4 = 0
   s.chip.live = true ∧ whole ∧ windowOf a = some (p, o) ∧ 0x28 ≤ o ∧ (128 ≤ p ∨ mgrSpecAt a = none)) ∧
  (let s : State := State.reset
   let a : Nat := 1073741820
   s.chip.live = true ∧ (a < 0x40000000 ∨ 0x4C000000 ≤ a)) ∧
  (let s : State := State.reset
   let a : Nat := 1207085864
   s.chip.live = true ∧ a / 2 ^ 24 = 0x47) := by
  refine ⟨?_, ?_, ?_, ?_⟩ <;>
    decide +kernel
/-! ## Signed images

A key that encodes the neutral point accepts one signature of every text: it makes signed states that the kernel can check. -/

def neutralKey : List Byte := 1 :: List.replicate 56 0
def neutralSig : List Byte := neutralKey ++ List.replicate 57 0

theorem neutral_decodes : edDecode neutralKey = some ⟨0, 1, 1⟩ := by decide +kernel

theorem neutral_multiple (fuel n : Nat) : EdPoint.mul fuel n ⟨0, 1, 1⟩ = ⟨0, 1, 1⟩ := by
  have dbl : EdPoint.add ⟨0, 1, 1⟩ ⟨0, 1, 1⟩ = ⟨0, 1, 1⟩ := by decide +kernel
  induction fuel generalizing n with
  | zero => rfl
  | succ f ih => simp only [EdPoint.mul, dbl, ih, ite_self, EdPoint.zero]

theorem neutral_verifies (ctx msg : List Byte) : edVerify neutralKey ctx msg neutralSig = true := by
  have t : neutralSig.take 57 = neutralKey := by decide +kernel
  have s : leNat (neutralSig.drop 57) = 0 := by decide +kernel
  have l : neutralSig.length = 114 := by decide +kernel
  have z : EdPoint.mul 447 0 edBase = ⟨0, 1, 1⟩ := rfl
  unfold edVerify
  simp only [s, l, t, neutral_decodes, neutral_multiple, z]
  decide +kernel

/-- The chip holds that key, with a role, under fingerprint 5. -/
def holdsKey (role : Nat) (s : State) : State := onNvm (fun n => { n with keys := [⟨role, 5, 0, neutralKey, 0, 0⟩] }) s

theorem key_found (c : Chip) (role : Nat) (rest : List KeyEnt) (hk : c.nvm.keys = ⟨role, 5, 0, neutralKey, 0, 0⟩ :: rest) : c.keyOf 5 = some (role, neutralKey) := by
  simp [Chip.keyOf, hk, Chip.keyLive]

/-- An image with its digest and the signature (R354). -/
def sealed (head : List Byte) : Image := head ++ (digest64 head ++ neutralSig)

theorem round_length (a : List Nat) (rc : Nat) : (keccakRound a rc).length = 25 := rfl

theorem lanes_length (a : List Nat) (l : List Nat) (h : a.length = 25) : (l.foldl keccakRound a).length = 25 := by
  induction l generalizing a with
  | nil => exact h
  | cons r l ih => exact ih _ (round_length a r)

theorem absorb_length (n : Nat) (a : List Nat) (m : List Byte) (h : a.length = 25) : (absorb n a m).length = 25 := by
  induction n generalizing a m with
  | zero => exact h
  | succ n ih => exact ih _ _ (lanes_length _ _ (by simp [h]))

theorem bytes_length (l : List Nat) : (l.flatMap (leBytes 8)).length = 8 * l.length := by
  induction l with
  | nil => rfl
  | cons a l ih =>
    have e : (leBytes 8 a).length = 8 := rfl
    rw [List.flatMap_cons, List.length_append, e, ih, List.length_cons]; omega

theorem digest_length (m : List Byte) : (digest64 m).length = 64 := by
  unfold digest64 shake256
  simp only [List.length_take, bytes_length, absorb_length _ _ _ List.length_replicate]
  rfl

theorem sealed_length (head : List Byte) : (sealed head).length = head.length + 178 := by
  have n : neutralSig.length = 114 := by decide +kernel
  simp only [sealed, List.length_append, digest_length, n]

/-- Where the parts of a sealed image stand. -/
theorem sealed_parts (head : List Byte) : (sealed head).length - 178 = head.length ∧ (sealed head).take head.length = head ∧
    sliceBytes (sealed head) head.length 64 = digest64 head ∧ sliceBytes (sealed head) (head.length + 64) 114 = neutralSig ∧
    (sealed head).length - 114 = head.length + 64 := by
  have sl : ∀ p x y : List Byte, sliceBytes (p ++ (x ++ y)) p.length x.length = x := by
    intro p x y
    simp [sliceBytes]
  have l : neutralSig.length = 114 := by decide +kernel
  refine ⟨by rw [sealed_length]; omega, List.take_left, ?_, ?_, by rw [sealed_length]; omega⟩
  · rw [← digest_length head]
    exact sl head (digest64 head) neutralSig
  · rw [← digest_length head, ← List.length_append, ← l]
    have e := sl (head ++ digest64 head) neutralSig []
    rwa [List.append_nil, List.append_assoc] at e

theorem seal_holds (c : Chip) (head : List Byte) (ctx : String) (allowed : Nat → Bool) (role : Nat)
    (rest : List KeyEnt) (hk : c.nvm.keys = ⟨role, 5, 0, neutralKey, 0, 0⟩ :: rest) (hr : allowed role = true) (hf : trailFp (sealed head) = 5) :
    c.sealFault (sealed head) ctx allowed = none := by
  obtain ⟨n, a, b, d, m⟩ := sealed_parts head
  unfold Chip.sealFault
  simp only [hf, key_found c role rest hk, trailDigest, trailSig, n, m, a, b, d, neutral_verifies, hr, ne_eq, not_true_eq_false, if_false, Bool.not_true, Bool.false_eq_true]

/-- A Chart that passes every check of its verification (R378), for any manager. -/
def chartHead : List Byte :=
  [65, 67, 72, 84, 0, 1, 10, 49, 0, 0, 0, 11, 0, 0, 5, 234] ++ List.replicate 8 255 ++ [0, 0, 0, 0, 0, 0, 0, 7] ++ List.replicate 33 0 ++ [1, 0,
  1, 0, 0, 0, 240, 0, 0, 1, 12, 231, 7, 7, 139, 0, 2, 0, 1, 0, 0, 2, 0, 0, 0, 0, 72, 211, 250, 71, 248, 0, 3, 0, 1, 0, 0, 2, 72, 0, 0, 0, 8, 81,
  77, 20, 49, 0, 4, 0, 1, 0, 0, 2, 80, 0, 0, 0, 8, 81, 77, 20, 49, 0, 5, 0, 1, 0, 0, 2, 88, 0, 0, 0, 112, 223, 96, 159, 22, 0, 6, 0, 1, 0, 0, 2,
  200, 0, 0, 0, 92, 88, 160, 9, 123, 0, 7, 0, 1, 0, 0, 3, 40, 0, 0, 0, 4, 227, 210, 230, 18, 0, 8, 0, 1, 0, 0, 3, 48, 0, 0, 0, 128, 64, 64, 238,
  245, 0, 9, 0, 1, 0, 0, 3, 176, 0, 0, 0, 36, 66, 26, 85, 226, 0, 10, 0, 1, 0, 0, 3, 216, 0, 0, 0, 168, 8, 199, 64, 218, 0, 11, 0, 1, 0, 0, 4,
  128, 0, 0, 0, 176, 246, 121, 228, 107] ++ List.replicate 481 0 ++ [1] ++ List.replicate 96 0 ++ [255] ++ List.replicate 126 0 ++ [1] ++
  List.replicate 216 0 ++ [3, 232, 1, 0, 0, 1] ++ List.replicate 167 0 ++ [5]

def chartN : Image := sealed chartHead

/-- A fold over a number, in a form that the kernel evaluates step by step. -/
def strictFold (f : Nat → Bool → Nat) : List Bool → Nat → Nat
  | [], n => n
  | b :: l, 0 => strictFold f l (f 0 b)
  | b :: l, n + 1 => strictFold f l (f (n + 1) b)

theorem strictFold_eq (f : Nat → Bool → Nat) (l : List Bool) (n : Nat) : strictFold f l n = l.foldl f n := by
  induction l generalizing n with
  | nil => cases n <;> rfl
  | cons b l ih => cases n <;> exact ih _

theorem chartN_crcs : crcFault chartN = none := by
  have e : ∀ i ∈ List.range 11, Nat.xor (strictFold (crcStep 32 0x1EDC6F41) (byteBits (sliceBytes chartN (secOff chartN (i + 1))
      (secLen chartN (i + 1)))) 0xFFFFFFFF) 0xFFFFFFFF = beField chartN (64 + 16 * i + 12) 4 := by decide +kernel
  have h : (List.range 11).find? (fun i => crc32c (sliceBytes chartN (secOff chartN (i + 1)) (secLen chartN (i + 1))) !=
      beField chartN (64 + 16 * i + 12) 4) = none := by
    rw [List.find?_eq_none]
    intro i hi
    have y := e i hi
    rw [strictFold_eq] at y
    rw [show crc32c (sliceBytes chartN (secOff chartN (i + 1)) (secLen chartN (i + 1))) = beField chartN (64 + 16 * i + 12) 4 from y, bne_self_eq_false]
    exact Bool.false_ne_true
  rw [crcFault, h, Option.map_none]

theorem chart_verifies (c : Chip) (hk : c.nvm.keys = [⟨2, 5, 0, neutralKey, 0, 0⟩]) : c.verifyChart chartN 1514 = none := by
  have h : c.headerFault chartN 1514 = none := by
    have a : ¬ (1514 < 426 ∨ 4194304 < 1514 ∨ beField chartN 12 4 ≠ 1514) := by decide +kernel
    have b : beField chartN 0 4 = 0x41434854 ∧ beField chartN 4 2 = 1 ∧ beField chartN 6 2 = 0x0A31 ∧ beField chartN 8 1 = 0 ∧
        beField chartN 16 8 = 2 ^ 64 - 1 := by decide +kernel
    unfold Chip.headerFault
    simp only [a, b.1, b.2.1, b.2.2.1, b.2.2.2.1, b.2.2.2.2, ne_eq, not_true_eq_false, Nat.not_lt_zero, or_self, false_and, if_false]
  have f : c.sealFault chartN "AEDURN CHART" installerOrMaker = none :=
    seal_holds c chartHead _ _ 2 [] hk rfl (by decide +kernel)
  have r : dirFault chartN = none ∧ layoutFault chartN = none ∧ countFault chartN = none ∧ zeroFault chartN = none ∧ encodingFault chartN = none := by
    decide +kernel
  unfold Chip.verifyChart
  rw [h, f, r.1, r.2.1, chartN_crcs, r.2.2.1, r.2.2.2.1, r.2.2.2.2]
  rfl

theorem chartN_length : chartN.length = 1514 := by
  have h : chartHead.length = 1336 := by decide +kernel
  rw [chartN, sealed_length, h]

theorem slice_all (l : List Byte) (n : Nat) (h : l.length = n) : sliceBytes l 0 n = l := by
  subst h; simp [sliceBytes]

/-- A manager with the good Chart staged, in slot 1 and selected for start-up, and one that fails in slot 2. -/
def chartState : State :=
  State.reset |> mgrFld F.MGT_ROLE_ROLE 2 |> mgrFld F.GBL_STG_LEN_LEN 1514 |> onMgt (fun m => { m with stgChart := chartN })
    |> onNvm (fun n => { n with primary := some 1 }) |> onChart 1 ⟨slotValid, chartN, 0⟩ |> holdsKey 2

/-- The same with a Chart that fails its verification selected first, and the good one as the fallback. -/
def fallState : State := chartState |> onNvm (fun n => { n with primary := some 2, fallback := some 1 }) |> onChart 2 ⟨slotValid, [1], 0⟩

/-- A staged Chart that verifies is stored and activated. -/
theorem witness_ChartSlots_signed :
  (let s : State := chartState
   let k : Nat := 1
   let c := s.chip
   let len := c.g F.GBL_STG_LEN_LEN
   let img := if len ≤ 4194304 then sliceBytes c.mgt.stgChart 0 len else []
   let held := (c.chart k).image
   let active := c.isActive k = true
   let dead := c.b F.LOG_STAT_NVM_FAIL = true
   let busy := c.run = true ∨ c.b F.GBL_STAT_CHECK_BUSY = true
   s.chip.live = true ∧ k < 4 ∧ s.chip.role = .installer ∧ ¬ active ∧ ¬ dead ∧ c.verifyChart img len = none ∧ ¬ busy ∧
     c.verifyChart held held.length = none) := by
  have hl : chartState.chip.g F.GBL_STG_LEN_LEN = 1514 := by decide +kernel
  have hk : chartState.chip.nvm.keys = [⟨2, 5, 0, neutralKey, 0, 0⟩] := rfl
  have hs : chartState.chip.mgt.stgChart = chartN := rfl
  have hc : (chartState.chip.chart 1).image = chartN := rfl
  refine ⟨by decide +kernel, by decide +kernel, by decide +kernel, by decide +kernel, by decide +kernel, ?_, by decide +kernel, ?_⟩
  · rw [hl, hs, if_pos (by decide), slice_all _ _ chartN_length]; exact chart_verifies _ hk
  · rw [hc, chartN_length]; exact chart_verifies _ hk

/-- A start with the selected Chart, and one that falls back. -/
theorem witness_ChartAndRun_boot :
  (let s : State := chartState
   let k : Nat := 1
   let j : Nat := 0
   let bad : List Nat := []
   let c := s.chip
   let still := c.b F.GBL_STAT_CHART_OK = true ∨ c.b F.MGT_STAT_RECOVERY = true ∨ c.int.coresUp = false ∨ ∀ n, n < 4 → (c.chart n).state ≠ slotValid
   let works := fun (n : Nat) => (c.chart n).state = slotValid ∧ c.verifyChart (c.chart n).image (c.chart n).image.length = none ∧ n ∉ bad
   s.chip.live = true ∧ k < 4 ∧ j < 4 ∧ j ≠ k ∧ ¬ still ∧ c.nvm.primary = some k ∧ works k) ∧
  (let s : State := fallState
   let k : Nat := 2
   let j : Nat := 1
   let bad : List Nat := []
   let why : Reason := (0x15, 0)
   let c := s.chip
   let still := c.b F.GBL_STAT_CHART_OK = true ∨ c.b F.MGT_STAT_RECOVERY = true ∨ c.int.coresUp = false ∨ ∀ n, n < 4 → (c.chart n).state ≠ slotValid
   let works := fun (n : Nat) => (c.chart n).state = slotValid ∧ c.verifyChart (c.chart n).image (c.chart n).image.length = none ∧ n ∉ bad
   s.chip.live = true ∧ k < 4 ∧ j < 4 ∧ j ≠ k ∧ ¬ still ∧ c.nvm.primary = some k ∧ (c.chart k).state = slotValid ∧
     c.verifyChart (c.chart k).image (c.chart k).image.length = some why ∧ c.nvm.fallback = some j ∧ works j) := by
  refine ⟨⟨by decide +kernel, by decide +kernel, by decide +kernel, by decide +kernel, by decide +kernel, by decide +kernel, by decide +kernel, ?_, by decide +kernel⟩,
    by decide +kernel, by decide +kernel, by decide +kernel, by decide +kernel, by decide +kernel, by decide +kernel, by decide +kernel, by decide +kernel,
    by decide +kernel, by decide +kernel, ?_, by decide +kernel⟩
  · have hc : (chartState.chip.chart 1).image = chartN := rfl
    rw [hc, chartN_length]; exact chart_verifies _ rfl
  · have hc : (fallState.chip.chart 1).image = chartN := rfl
    rw [hc, chartN_length]; exact chart_verifies _ rfl

/-- An empty set of trims, a small firmware image, and an operator's certificate, up to their digests (R367, R463, R476). -/
def trimHead : List Byte :=
  bytes4 0x4154524D ++ beBytes 2 1 ++ beBytes 2 0 ++ bytes4 250 ++ List.replicate 52 0 ++ beBytes 8 5
def fwHead : List Byte :=
  bytes4 0x41465749 ++ beBytes 2 0x0A31 ++ [0, 5] ++ bytes4 262 ++ bytes4 64 ++ List.replicate 48 0 ++ List.replicate 12 7 ++ beBytes 8 5
def certHead : List Byte :=
  bytes4 0x41435254 ++ beBytes 2 1 ++ [1, 0] ++ beBytes 8 (2 ^ 64 - 1) ++ beBytes 8 0 ++ neutralKey ++ List.replicate 7 0 ++ beBytes 8 5

theorem head_lengths : (sealed trimHead).length = 250 ∧ (sealed fwHead).length = 262 ∧ (sealed certHead).length = 274 := by
  have h : trimHead.length = 72 ∧ fwHead.length = 84 ∧ certHead.length = 96 := by decide +kernel
  simp only [sealed_length, h.1, h.2.1, h.2.2, and_self]

theorem trim_verifies (c : Chip) (hk : c.nvm.keys = [⟨2, 5, 0, neutralKey, 0, 0⟩]) : c.verifyTrim (sealed trimHead) 250 = none := by
  have f : c.sealFault (sealed trimHead) "AEDURN TRIM" installerOrMaker = none := seal_holds c trimHead _ _ 2 [] hk rfl (by decide +kernel)
  have b : beField (sealed trimHead) 8 4 = 250 ∧ beField (sealed trimHead) 0 4 = 0x4154524D ∧ beField (sealed trimHead) 4 2 = 1 ∧
      beField (sealed trimHead) 6 2 = 0 := by decide +kernel
  have z : trimOrder (sealed trimHead) 0 = true ∧ trimZero (sealed trimHead) 0 = true := by decide +kernel
  unfold Chip.verifyTrim
  rw [if_neg (by decide)]
  simp only [slice_all _ _ head_lengths.1, b.1, b.2.1, b.2.2.1, b.2.2.2, f, z.1, z.2]
  rfl

theorem fw_verifies (c : Chip) (hk : c.nvm.keys = [⟨3, 5, 0, neutralKey, 0, 0⟩]) (hf : c.nvm.fwFloor = 0) : c.verifyFw (sealed fwHead) 262 = none := by
  have f : c.sealFault (sealed fwHead) "AEDURN FIRMWARE" (fun r => r == 3) = none := seal_holds c fwHead _ _ 3 [] hk rfl (by decide +kernel)
  have b : beField (sealed fwHead) 8 4 = 262 ∧ beField (sealed fwHead) 0 4 = 0x41465749 ∧ beField (sealed fwHead) 4 2 = 0x0A31 ∧
      beField (sealed fwHead) 6 1 = 0 ∧ beField (sealed fwHead) 16 48 = 0 ∧ beField (sealed fwHead) 12 4 = 64 := by decide +kernel
  unfold Chip.verifyFw
  simp only [b.1, b.2.1, b.2.2.1, b.2.2.2.1, b.2.2.2.2.1, b.2.2.2.2.2, f, hf, Nat.not_lt_zero, ne_eq, not_true_eq_false, or_self, if_false]
  rfl

theorem cert_good (c : Chip) (rest : List KeyEnt) (hk : c.nvm.keys = ⟨2, 5, 0, neutralKey, 0, 0⟩ :: rest) : c.certGood (sealed certHead) = true := by
  have h : certHead.length = 96 := by decide +kernel
  obtain ⟨-, a, b, d, -⟩ := sealed_parts certHead
  rw [h] at a b d
  have f : beField (sealed certHead) 6 1 = 1 ∧ beField (sealed certHead) 8 8 = 2 ^ 64 - 1 ∧ beField (sealed certHead) 0 4 = 0x41435254 ∧
      beField (sealed certHead) 4 2 = 1 ∧ beField (sealed certHead) 7 1 = 0 ∧ beField (sealed certHead) 81 7 = 0 ∧
      beField (sealed certHead) 88 8 = 5 := by decide +kernel
  unfold Chip.certGood
  simp only [f.1, f.2.1, f.2.2.1, f.2.2.2.1, f.2.2.2.2.1, f.2.2.2.2.2.1, f.2.2.2.2.2.2, a, b, d, key_found c 2 rest hk, neutral_verifies]
  simp

/-- A trim set, a firmware image and a certificate that verify; the key of the certificate is new, or enrolled. -/
theorem witness_HelmAdministration_signed :
  (let s : State := State.reset |> holdsKey 2 |> onMgt (fun m => { m with stgTrim := sealed trimHead }) |> helmQueue (instReq 0x84 (bytes4 250))
   let q : HelmReq := instReq 0x84 (bytes4 250)
   let r : List HelmReq := [opReq 1 (bytes4 0)]
   let c := s.chip
   let taken : Chip := ({ c with mgt := { c.mgt with queue := r } } : Chip).setContext q.role q.fp
   let runs := fun (op : Nat) => c.mgt.queue = q :: r ∧ c.helmUp = true ∧ q.op = op
   let f := beField q.body
   let dead := c.b F.LOG_STAT_NVM_FAIL = true
   let len := f 0 4
   let trim := taken.verifyTrim c.mgt.stgTrim len
   s.chip.live = true ∧ runs 0x84 ∧ c.run = false ∧ ¬ dead ∧ trim = none) ∧
  (let s : State := State.reset |> holdsKey 3 |> onMgt (fun m => { m with stgFw := sealed fwHead }) |> helmQueue (instReq 0x86 (bytes4 262))
   let q : HelmReq := instReq 0x86 (bytes4 262)
   let r : List HelmReq := [opReq 1 (bytes4 0)]
   let c := s.chip
   let taken : Chip := ({ c with mgt := { c.mgt with queue := r } } : Chip).setContext q.role q.fp
   let runs := fun (op : Nat) => c.mgt.queue = q :: r ∧ c.helmUp = true ∧ q.op = op
   let f := beField q.body
   let dead := c.b F.LOG_STAT_NVM_FAIL = true
   let len := f 0 4
   let g := sliceBytes c.mgt.stgFw 0 len
   let fits := ¬ dead ∧ len ≤ 4194304
   let fw := taken.verifyFw g len
   s.chip.live = true ∧ runs 0x86 ∧ fits ∧ fw = none) ∧
  (let s : State := State.reset |> holdsKey 2 |> helmQueue (instReq 0x88 (sealed certHead))
   let q : HelmReq := instReq 0x88 (sealed certHead)
   let r : List HelmReq := [opReq 1 (bytes4 0)]
   let c := s.chip
   let taken : Chip := ({ c with mgt := { c.mgt with queue := r } } : Chip).setContext q.role q.fp
   let runs := fun (op : Nat) => c.mgt.queue = q :: r ∧ c.helmUp = true ∧ q.op = op
   let dead := c.b F.LOG_STAT_NVM_FAIL = true
   let pub := sliceBytes q.body 24 57
   let fp := fingerprint pub
   let known := ∃ y ∈ c.nvm.keys, y.fp = fp
   let cert := taken.certGood q.body = true ∧ (known ∨ c.nvm.keys.length < 32)
   s.chip.live = true ∧ runs 0x88 ∧ ¬ dead ∧ cert ∧ ¬ known) ∧
  (let s : State := State.reset |> onNvm (fun n => { n with keys := [⟨2, 5, 0, neutralKey, 0, 0⟩, ⟨1, 3243063809868395740, 5, neutralKey, 0, 3⟩] })
     |> helmQueue (instReq 0x88 (sealed certHead))
   let q : HelmReq := instReq 0x88 (sealed certHead)
   let r : List HelmReq := [opReq 1 (bytes4 0)]
   let c := s.chip
   let taken : Chip := ({ c with mgt := { c.mgt with queue := r } } : Chip).setContext q.role q.fp
   let runs := fun (op : Nat) => c.mgt.queue = q :: r ∧ c.helmUp = true ∧ q.op = op
   let dead := c.b F.LOG_STAT_NVM_FAIL = true
   let pub := sliceBytes q.body 24 57
   let fp := fingerprint pub
   let known := ∃ y ∈ c.nvm.keys, y.fp = fp
   let cert := taken.certGood q.body = true ∧ (known ∨ c.nvm.keys.length < 32)
   s.chip.live = true ∧ runs 0x88 ∧ ¬ dead ∧ cert ∧ known) := by
  have pub : sliceBytes (sealed certHead) 24 57 = neutralKey := by decide +kernel
  have print : fingerprint neutralKey = 3243063809868395740 := by decide +kernel
  refine ⟨⟨by decide +kernel, ⟨rfl, by decide +kernel, rfl⟩, by decide +kernel, by decide +kernel, ?_⟩,
    ⟨by decide +kernel, ⟨rfl, by decide +kernel, rfl⟩, by decide +kernel, ?_⟩,
    ⟨by decide +kernel, ⟨rfl, by decide +kernel, rfl⟩, by decide +kernel, ⟨?_, Or.inr (by decide +kernel)⟩, ?_⟩,
    by decide +kernel, ⟨rfl, by decide +kernel, rfl⟩, by decide +kernel, ⟨?_, Or.inr (by decide +kernel)⟩, ?_⟩
  · have n : beField (instReq 0x84 (bytes4 250)).body 0 4 = 250 := by decide +kernel
    dsimp only
    rw [n]; exact trim_verifies _ rfl
  · have n : beField (instReq 0x86 (bytes4 262)).body 0 4 = 262 := by decide +kernel
    have e : sliceBytes (sealed fwHead) 0 262 = sealed fwHead := slice_all _ _ head_lengths.2.1
    dsimp only
    rw [n]
    exact (congrArg (fun x => Chip.verifyFw _ x 262) e).trans (fw_verifies _ rfl rfl)
  · exact cert_good _ [] rfl
  · rintro ⟨y, hy, e⟩
    rw [show (instReq 0x88 (sealed certHead)).body = sealed certHead from rfl, pub, print] at e
    rw [List.mem_singleton.mp hy] at e
    revert e; decide
  · exact cert_good _ _ rfl
  · exact ⟨_, List.mem_cons_of_mem _ (List.mem_singleton.mpr rfl), by
      rw [show (instReq 0x88 (sealed certHead)).body = sealed certHead from rfl, pub, print]⟩


/-- A histogram with the same count in every bin. -/
theorem flat_hist (v : Nat) (l : List Nat) (b : Nat) (h : b ∈ l) : AMap.get (always 0) (l.map (fun b => (b, v))) b = v := by
  induction l with
  | nil => cases h
  | cons a r ih =>
    simp only [List.map_cons, AMap.get]
    by_cases e : b = a
    · rw [if_pos e]
    · rw [if_neg e]; exact ih ((List.mem_cons.mp h).resolve_left e)

theorem onWorker_worker (k : Nat) (f : Worker → Worker) (s : State) : (onWorker k f s).chip.worker k = f (s.chip.worker k) :=
  AMap.get_set_same (always Worker.init) s.chip.workers k _

theorem flat_accepted (x : Worker) (t : Nat) (cen : List Nat) (hn : x.calN = 4194304)
    (hv : bitOf (x.g F.TC_VALID_LO_CAL_VALID + 2 ^ 32 * x.g F.TC_VALID_HI_CAL_VALID) t = false)
    (he : x.cal.hist = (List.range 800).map (fun b => (b, 1311))) :
    x.rejects t ((List.range 800).map (fun b => AMap.get (always 0) x.cal.hist b)) cen = false := by
  have ha : ((List.range 800).map (fun b => AMap.get (always 0) x.cal.hist b)).any (fun k => k * 3200 < 4194304 || 4194304 < k * 200) = false := by
    rw [List.any_eq_false]
    intro k hk
    obtain ⟨b, hb, e⟩ := List.mem_map.mp hk
    rw [he, flat_hist 1311 (List.range 800) b hb] at e
    subst e; decide
  simp only [Worker.rejects, hn, hv, ha, Bool.and_false, Bool.false_and, Bool.or_false]

/-- A tile whose bins all have 1,311 hits of 2^22 takes its new tables. -/
theorem witness_Calibration_accepted :
  (let s : State := State.reset |> wkrFld 1 F.TC_STAT_CAL_BUSY 1
    |> onWorker 1 (fun x => { x with cal := { x.cal with hits := x.calN, hist := (List.range 800).map (fun b => (b, 1311)) } })
   let w : Nat := 1
   let x := s.chip.worker w
   let t := x.g F.TC_STAT_CAL_TILE
   let full := x.b F.TC_STAT_CAL_BUSY = true ∧ x.calN ≤ x.cal.hits
   let counts := (List.range 800).map (fun b => AMap.get (always 0) x.cal.hist b)
   let cen := newCentres x.calN 0 counts
   s.alive w ∧ full ∧ x.rejects t counts cen = false) := by
  refine ⟨by unfold State.alive; decide +kernel, by decide +kernel, flat_accepted _ _ _ (by decide +kernel) (by decide +kernel) ?_⟩
  rw [onWorker_worker]

/-- An unsigned read request, and a write request with a signature. -/
def askRead (target : Nat) : List Byte :=
  beBytes 2 0x484C ++ [1, 1] ++ beBytes 4 77 ++ beBytes 8 target ++ beBytes 8 0 ++ beBytes 8 0 ++ beBytes 2 4 ++ beBytes 2 0 ++ bytes4 0x40000000
def askWrite (target fp count : Nat) (sig : List Byte) : List Byte :=
  beBytes 2 0x484C ++ [1, 0x81] ++ beBytes 4 77 ++ beBytes 8 target ++ beBytes 8 fp ++ beBytes 8 count ++ beBytes 2 12 ++ beBytes 2 0 ++ wbody ++ sig

/-- Requests with a bad form, and unsigned ones sent to every manager, with room in the queue and without. -/
theorem witness_HelmRequests :
  (let s : State := State.reset
   let b : List Byte := [1, 2, 3]
   s.chip.live = true ∧ s.chip.helmForm b (HelmMsg.ofBytes b) = some 6) ∧
  (let s : State := State.reset
   let b : List Byte := askRead (2 ^ 64 - 1)
   let m := HelmMsg.ofBytes b
   let away := m.target ≠ Config.serial ∧ (m.target ≠ 2 ^ 64 - 1 ∨ m.signed = true)
   s.chip.live = true ∧ (s.chip.helmForm b m = none ∧ ¬ away) ∧ m.signed = false ∧ s.chip.mgt.queue.length < 16) ∧
  (let s : State := State.reset |> onMgt (fun m => { m with queue := List.replicate 16 (opReq 1 (bytes4 0)) })
   let b : List Byte := askRead (2 ^ 64 - 1)
   let m := HelmMsg.ofBytes b
   let away := m.target ≠ Config.serial ∧ (m.target ≠ 2 ^ 64 - 1 ∨ m.signed = true)
   s.chip.live = true ∧ (s.chip.helmForm b m = none ∧ ¬ away) ∧ m.signed = false ∧ ¬ s.chip.mgt.queue.length < 16) := by
  refine ⟨by decide +kernel, ⟨by decide +kernel, ⟨by decide +kernel, ?_⟩, by decide +kernel⟩, by decide +kernel, ⟨by decide +kernel, ?_⟩, by decide +kernel⟩ <;>
    (rintro ⟨-, h⟩; revert h; decide +kernel)

/-- The serial number is an opaque constant: a request to another manager exists whatever it is. -/
theorem witness_HelmRequests_away : ∃ b : List Byte,
    let m := HelmMsg.ofBytes b
    State.reset.chip.live = true ∧ State.reset.chip.helmForm b m = none ∧ m.target ≠ Config.serial ∧ (m.target ≠ 2 ^ 64 - 1 ∨ m.signed = true) := by
  by_cases h : Config.serial = 5
  · refine ⟨askRead 6, by decide +kernel, by decide +kernel, ?_, by decide +kernel⟩
    rw [h]; decide +kernel
  · have e : (HelmMsg.ofBytes (askRead 5)).target = 5 := by decide +kernel
    exact ⟨askRead 5, by decide +kernel, by decide +kernel, fun x => h (x ▸ e).symm.symm, by decide +kernel⟩

/-- On the manager with serial number 7: a signed request that is replayed, badly signed, not allowed to the key's role, taken
into the queue, and turned away from a full one. -/
theorem witness_HelmRequests_signed (serial : Config.serial = 7) :
  (let s : State := State.reset |> onNvm (fun n => { n with keys := [⟨1, 5, 0, neutralKey, 0, 9⟩] })
   let b : List Byte := askWrite 7 5 9 neutralSig
   let m := HelmMsg.ofBytes b
   let c := s.chip
   let away := m.target ≠ Config.serial ∧ (m.target ≠ 2 ^ 64 - 1 ∨ m.signed = true)
   let key := if m.keyfp = 0 then none else c.keyOf m.keyfp
   let fresh := c.keyCount m.keyfp < m.count
   s.chip.live = true ∧ (c.helmForm b m = none ∧ ¬ away) ∧ m.signed = true ∧ key = some (1, neutralKey) ∧ ¬ fresh) ∧
  (let s : State := State.reset |> onNvm (fun n => { n with keys := [⟨1, 5, 0, neutralKey, 0, 8⟩] })
   let b : List Byte := askWrite 7 5 9 (List.replicate 114 255)
   let m := HelmMsg.ofBytes b
   let c := s.chip
   let away := m.target ≠ Config.serial ∧ (m.target ≠ 2 ^ 64 - 1 ∨ m.signed = true)
   let key := if m.keyfp = 0 then none else c.keyOf m.keyfp
   let fresh := c.keyCount m.keyfp < m.count
   let good := edVerify neutralKey (ascii "AEDURN HELM") (digest64 (b.take (36 + m.bodyLen))) m.sig = true
   s.chip.live = true ∧ (c.helmForm b m = none ∧ ¬ away) ∧ m.signed = true ∧ key = some (1, neutralKey) ∧ fresh ∧ ¬ good) ∧
  (let s : State := State.reset |> onNvm (fun n => { n with keys := [⟨3, 5, 0, neutralKey, 0, 8⟩] })
   let b : List Byte := askWrite 7 5 9 neutralSig
   let m := HelmMsg.ofBytes b
   let c := s.chip
   let away := m.target ≠ Config.serial ∧ (m.target ≠ 2 ^ 64 - 1 ∨ m.signed = true)
   let key := if m.keyfp = 0 then none else c.keyOf m.keyfp
   let fresh := c.keyCount m.keyfp < m.count
   let good := edVerify neutralKey (ascii "AEDURN HELM") (digest64 (b.take (36 + m.bodyLen))) m.sig = true
   s.chip.live = true ∧ (c.helmForm b m = none ∧ ¬ away) ∧ m.signed = true ∧ key = some (3, neutralKey) ∧ fresh ∧ good ∧ c.helmMay m 3 = false) ∧
  (let s : State := State.reset |> onNvm (fun n => { n with keys := [⟨1, 5, 0, neutralKey, 0, 8⟩] })
   let b : List Byte := askWrite 7 5 9 neutralSig
   let m := HelmMsg.ofBytes b
   let c := s.chip
   let away := m.target ≠ Config.serial ∧ (m.target ≠ 2 ^ 64 - 1 ∨ m.signed = true)
   let key := if m.keyfp = 0 then none else c.keyOf m.keyfp
   let fresh := c.keyCount m.keyfp < m.count
   let good := edVerify neutralKey (ascii "AEDURN HELM") (digest64 (b.take (36 + m.bodyLen))) m.sig = true
   s.chip.live = true ∧ (c.helmForm b m = none ∧ ¬ away) ∧ m.signed = true ∧ key = some (1, neutralKey) ∧ fresh ∧ good ∧ c.helmMay m 1 = true ∧
     c.mgt.queue.length < 16) ∧
  (let s : State := State.reset |> onNvm (fun n => { n with keys := [⟨1, 5, 0, neutralKey, 0, 8⟩] }) |> onMgt (fun m => { m with queue := List.replicate 16 (opReq 1 (bytes4 0)) })
   let b : List Byte := askWrite 7 5 9 neutralSig
   let m := HelmMsg.ofBytes b
   let c := s.chip
   let away := m.target ≠ Config.serial ∧ (m.target ≠ 2 ^ 64 - 1 ∨ m.signed = true)
   let key := if m.keyfp = 0 then none else c.keyOf m.keyfp
   let fresh := c.keyCount m.keyfp < m.count
   let good := edVerify neutralKey (ascii "AEDURN HELM") (digest64 (b.take (36 + m.bodyLen))) m.sig = true
   s.chip.live = true ∧ (c.helmForm b m = none ∧ ¬ away) ∧ m.signed = true ∧ key = some (1, neutralKey) ∧ fresh ∧ good ∧ c.helmMay m 1 = true ∧
     ¬ c.mgt.queue.length < 16) := by
  have away : ∀ sig : List Byte, sig = List.replicate 114 255 ∨ sig = neutralSig → (HelmMsg.ofBytes (askWrite 7 5 9 sig)).target = 7 := by
    rintro sig (h | h) <;> subst h <;> decide +kernel
  have sig : (HelmMsg.ofBytes (askWrite 7 5 9 neutralSig)).sig = neutralSig := by decide +kernel
  have good : ∀ msg, edVerify neutralKey (ascii "AEDURN HELM") msg (HelmMsg.ofBytes (askWrite 7 5 9 neutralSig)).sig = true := fun msg => by
    rw [sig]; exact neutral_verifies _ _
  refine ⟨⟨by decide +kernel, ⟨by decide +kernel, fun h => h.1 ((away _ (.inr rfl)).trans serial.symm)⟩, by decide +kernel, by decide +kernel,
      by decide +kernel⟩,
    ⟨by decide +kernel, ⟨by decide +kernel, fun h => h.1 ((away _ (.inl rfl)).trans serial.symm)⟩, by decide +kernel, by decide +kernel,
      by decide +kernel, by decide +kernel⟩,
    ⟨by decide +kernel, ⟨by decide +kernel, fun h => h.1 ((away _ (.inr rfl)).trans serial.symm)⟩, by decide +kernel, by decide +kernel,
      by decide +kernel, ?_, by decide +kernel⟩,
    ⟨by decide +kernel, ⟨by decide +kernel, fun h => h.1 ((away _ (.inr rfl)).trans serial.symm)⟩, by decide +kernel, by decide +kernel,
      by decide +kernel, ?_, by decide +kernel⟩,
    ⟨by decide +kernel, ⟨by decide +kernel, fun h => h.1 ((away _ (.inr rfl)).trans serial.symm)⟩, by decide +kernel, by decide +kernel,
      by decide +kernel, ?_, by decide +kernel⟩⟩ <;>
    exact good _

/-- A request that must be signed and names no key, and one whose key the manager does not hold. -/
theorem witness_HelmRequests_unknown (serial : Config.serial = 7) :
  (let s : State := State.reset
   let b : List Byte := askWrite 7 0 9 []
   let m := HelmMsg.ofBytes b
   let away := m.target ≠ Config.serial ∧ (m.target ≠ 2 ^ 64 - 1 ∨ m.signed = true)
   let key := if m.keyfp = 0 then none else s.chip.keyOf m.keyfp
   s.chip.live = true ∧ (s.chip.helmForm b m = none ∧ ¬ away) ∧ m.signed = true ∧ key = none) ∧
  (let s : State := State.reset |> onNvm (fun n => { n with rootIx := 4 })
   let b : List Byte := askWrite 7 5 9 neutralSig
   let m := HelmMsg.ofBytes b
   let away := m.target ≠ Config.serial ∧ (m.target ≠ 2 ^ 64 - 1 ∨ m.signed = true)
   let key := if m.keyfp = 0 then none else s.chip.keyOf m.keyfp
   s.chip.live = true ∧ (s.chip.helmForm b m = none ∧ ¬ away) ∧ m.signed = true ∧ key = none) := by
  have t : (HelmMsg.ofBytes (askWrite 7 0 9 [])).target = 7 ∧ (HelmMsg.ofBytes (askWrite 7 5 9 neutralSig)).target = 7 := by decide +kernel
  exact ⟨⟨by decide +kernel, ⟨by decide +kernel, fun h => h.1 (t.1.trans serial.symm)⟩, by decide +kernel, by decide +kernel⟩,
    by decide +kernel, ⟨by decide +kernel, fun h => h.1 (t.2.trans serial.symm)⟩, by decide +kernel, by decide +kernel⟩

theorem witness_StepTakesFront :
  (let s : State := { State.reset with pending := [.optimeTick, .roleEnd] }
   s.pending = .optimeTick :: [.roleEnd]) ∧ State.reset.pending = [] := ⟨rfl, rfl⟩

/-- Interlocks in every state, as the invariant gives them, on a supply or not. -/
theorem witness_InterlockInvariant :
  (∃ t, State.reset.Inv ∧ step State.reset = .next t) ∧
  (∀ i ∈ [{ Interlock.off with up := true, st := .test }, { Interlock.off with up := true, st := .locked }, { Interlock.off with up := true, st := .safe },
      { Interlock.off with up := true, st := .precheck, step := 6, enHs := true, enLs := true, rampReq := false },
      { Interlock.off with up := true, st := .on, enHs := true, enLs := true, rampReq := false },
      { Interlock.off with up := true, st := .ramp, sel := 0x80, enHs := true, enLs := true }],
    ({ State.reset with saf := i } : State).saf.Inv = true ∧ ({ State.reset with saf := i } : State).saf.raised = []) :=
  ⟨⟨_, ⟨by decide +kernel, rfl⟩, rfl⟩, by decide +kernel⟩

theorem witness_LineCode : (mkIdle 3 0x1234 5 6 1).validHdr = true ∧ (dataB 9).validHdr = true ∧
    (⟨0, false, BitVec.allOnes 47⟩ : LineRx).desc = LineTx.init.scr := by decide +kernel

/-- Commands of each kind: one that names no word, one that completes, an input of the interlock in two states that agree
on what it sees, and one while the manager is held in reset. -/
theorem witness_CommandsAndInterlock :
  exec (.targetedTest 0x0B true) State.reset = .fault .noSuchWord ∧
  (ofInterlock .optimeTick = false ∧ ∃ t, exec .optimeTick State.reset = .next t) ∧
  (let s : State := State.reset
   let t : State := State.reset |> mgrFld F.GBL_CTL_RUN_EN 1
   ofInterlock .resetStuck = true ∧ s.saf = t.saf ∧ s.chip.tick = t.chip.tick ∧ s.chip.hk.slope = t.chip.hk.slope ∧
     ∃ u v, exec .resetStuck s = .next u ∧ exec .resetStuck t = .next v) ∧
  (let s : State := State.reset |> onChip (fun c => { c with pwr := { c.pwr with por := true } })
   ofPower .checkpoint = false ∧ ofInterlock .checkpoint = false ∧ s.chip.live = false ∧ ∃ t, exec .checkpoint s = .next t) :=
  ⟨rfl, ⟨rfl, _, rfl⟩, ⟨rfl, rfl, rfl, rfl, _, _, rfl, rfl⟩, rfl, rfl, by decide +kernel, _, rfl⟩

/-- The temperatures at which event 4 and event 5 rise or do not, and release or do not. -/
theorem witness_DieTemperature_edges :
  (∀ t ∈ [(116 : Int), 126], State.reset.chip.pwr.hot115 = false ∧ 115 < t) ∧ (∀ t ∈ [(115 : Int), 110, 109], ¬ 115 < t) ∧
  (State.reset.chip.pwr.hot125 = false ∧ (125 : Int) < 126) ∧ ¬ (125 : Int) < 125 := by decide +kernel


end Sys2Proof.Tests
end

/-!
PROOFS. What a write over the register bridge makes of a register of the SAF_ block, none of which has a writable bit (R46),
and from it the refutation of O55.
-/
namespace Sys2Proof

/-- No bit of the row is writable under any role (the code RO of R15). -/
def RegSpec.readOnly (r : RegSpec) : Prop := r.rw = 0 ∧ r.w1c = 0 ∧ r.rwl = []

theorem writeWord_readOnly {r : RegSpec} (h : r.readOnly) (role : Role) (old v : Word) : writeWord r role old v = old := by
  obtain ⟨hrw, hw1c, hrwl⟩ := h
  have hopen : openMask role r.rwl = 0 := by rw [hrwl]; rfl
  have htake : Nat.lor r.rw (openMask role r.rwl) = 0 := by rw [hrw, hopen]; rfl
  simp only [writeWord, htake, hw1c, BitVec.not_zero, BitVec.and_allOnes, BitVec.and_zero, BitVec.zero_and, BitVec.or_zero]

theorem writeRefused_readOnly {r : RegSpec} (h : r.readOnly) (role : Role) (old v : Word) :
    writeRefused role r.rwl old v = false := by
  obtain ⟨-, -, hrwl⟩ := h
  simp [writeRefused, hrwl]

/-- The words of a row lie from its base to its last one. -/
theorem RegSpec.bounds_of_covers {r : RegSpec} {a : Nat} (hs : 0 < r.stride) (h : r.covers a = true) :
    r.base ≤ a ∧ a < r.base + r.count * r.stride := by
  simp only [RegSpec.covers, Bool.and_eq_true, decide_eq_true_eq] at h
  obtain ⟨⟨hlo, -⟩, hix⟩ := h
  have := (Nat.div_lt_iff_lt_mul hs).mp hix
  omega

/-- Every row of the table with a word in the SAF_ block is read-only (R46). -/
theorem mgrSpecs_saf_readOnly : ∀ r ∈ mgrSpecs, 0 < r.stride ∧
    (0x47000000 < r.base + r.count * r.stride → r.base < 0x48000000 → r.readOnly) := by
  unfold RegSpec.readOnly
  decide +kernel

theorem windowOf_saf {a : Nat} (h : a / 2 ^ 24 = 0x47) : windowOf a = none := if_neg (by omega)

theorem inBlocks_saf {a : Nat} (h : a / 2 ^ 24 = 0x47) : inBlocks a = true := by
  simp only [inBlocks, Bool.and_eq_true, decide_eq_true_eq]
  omega

/-- A register found in the SAF_ block is read-only (R46). -/
theorem mgrSpecAt_saf_readOnly {a : Nat} {r : RegSpec} (h : a / 2 ^ 24 = 0x47) (hr : mgrSpecAt a = some r) : r.readOnly := by
  have hf : mgrSpecs.find? (fun r => r.covers a) = some r := by simpa [mgrSpecAt, windowOf_saf h, specAt] using hr
  obtain ⟨hs, hro⟩ := mgrSpecs_saf_readOnly r (List.mem_of_find?_eq_some hf)
  have hcov : r.covers a = true := List.find?_some (p := fun r : RegSpec => r.covers a) hf
  have hb := RegSpec.bounds_of_covers hs hcov
  exact hro (by omega) (by omega)

/-- A write of a register of the SAF_ block has no effect of its own: it stores the word it is given. -/
theorem Chip.regEffect_saf (c : Chip) (r : RegSpec) {a : Nat} (h : a / 2 ^ 24 = 0x47) (new v : Word) (ok : Bool) :
    c.regEffect r a new v ok = (c.setWord a new, true) := by
  have hm : c.mgtWrite a new v = c.setWord a new := by
    unfold Chip.mgtWrite
    split
    · omega
    · omega
    · omega
    · rw [if_neg (by omega), if_neg (by omega)]
  simp only [Chip.regEffect, windowOf_saf h, h, hm]

/-- The write of a read-only register keeps its word, but for the bits that hardware is said to set in the same cycle. -/
theorem Chip.specWrite_saf (c : Chip) {a : Nat} {r : RegSpec} (h : a / 2 ^ 24 = 0x47) (hr : mgrSpecAt a = some r) (v : Word) (ok : Bool) :
    c.specWrite a v ok = (c.setWord a (c.word a ||| c.hotOf a), .ok) := by
  have hro := mgrSpecAt_saf_readOnly h hr
  simp [Chip.specWrite, hr, writeWord_readOnly hro, writeRefused_readOnly hro, c.regEffect_saf r h]

theorem Chip.specWrite_unlisted (c : Chip) {a : Nat} (hr : mgrSpecAt a = none) (v : Word) (ok : Bool) :
    c.specWrite a v ok = (c, .ok) := by
  simp [Chip.specWrite, hr]

/-- A write in the SAF_ block reaches the register when it is whole, and nothing otherwise (R9). -/
theorem Chip.busWrite_saf (c : Chip) (z : AccSize) {a : Nat} (h : a / 2 ^ 24 = 0x47) (v : Word) (ok : Bool) :
    c.busWrite z a v ok = if busWhole z a then c.specWrite a v ok else (c, .ok) := by
  have htbl : a ≠ 0x44000084 := by omega
  cases hw : busWhole z a <;> simp [Chip.busWrite, inBlocks_saf h, hw, windowOf_saf h, htbl]

theorem Chip.coreWrite_of_ok {c d : Chip} {z : AccSize} {a : Nat} {v : Word} {ok : Bool} (h : c.busWrite z a v ok = (d, .ok)) :
    c.coreWrite z a v ok = { d with bus := .done } := by
  simp [Chip.coreWrite, h, BusRes.done]

theorem Chip.word_setWord (c : Chip) (a b : Nat) (v : Word) : (c.setWord a v).word b = if b = a then v else c.word b :=
  AMap.get_set _ _ _ _ _

namespace Machine

/-- A register write of a live manager is a write by the cores. -/
theorem exec_registerWrite_mgr (s : State) (h : s.chip.live = true) (z : AccSize) (a : Nat) (v : Word) (ok : Bool) :
    exec (.registerWrite .mgr z a v ok) s = .next { s with chip := s.chip.coreWrite z a v ok } :=
  State.mgr_live s (fun c => c.coreWrite z a v ok) h

/-- A write that the bus performs leaves a live manager as the bus does, with an access without error. -/
theorem managerDoes_registerWrite_of_ok {s : State} (hl : s.chip.live = true) {z : AccSize} {a : Nat} {v : Word} {ok : Bool} {d : Chip}
    (hd : s.chip.busWrite z a v ok = (d, .ok)) {P : Chip → Prop} (hP : P { d with bus := .done }) :
    s.managerDoes (.registerWrite .mgr z a v ok) P :=
  ⟨_, exec_registerWrite_mgr s hl z a v ok, ⟨rfl, rfl⟩, by rw [Chip.coreWrite_of_ok hd]; exact hP⟩

/-- What R46 gives does hold for an address of which no bit counts as set by hardware in the present cycle (R15). -/
theorem saf_write_ignored {s : State} (hl : s.chip.live = true) (z : AccSize) {a : Nat} (h : a / 2 ^ 24 = 0x47)
    (hcold : s.chip.hotOf a = 0#32) (v : Word) (ok : Bool) :
    s.managerDoes (.registerWrite .mgr z a v ok) fun d => d = { s.chip with regs := d.regs, bus := .done } ∧ ∀ b, d.word b = s.chip.word b := by
  have hbus := s.chip.busWrite_saf z h v ok
  cases hw : busWhole z a with
  | false =>
    rw [hw, if_neg Bool.false_ne_true] at hbus
    exact managerDoes_registerWrite_of_ok hl hbus ⟨rfl, fun _ => rfl⟩
  | true =>
    rw [hw, if_pos rfl] at hbus
    cases hr : mgrSpecAt a with
    | none =>
      rw [s.chip.specWrite_unlisted hr] at hbus
      exact managerDoes_registerWrite_of_ok hl hbus ⟨rfl, fun _ => rfl⟩
    | some r =>
      rw [s.chip.specWrite_saf h hr, hcold, BitVec.or_zero] at hbus
      refine managerDoes_registerWrite_of_ok hl hbus ⟨rfl, fun b => ?_⟩
      calc (s.chip.setWord a (s.chip.word a)).word b
          = if b = a then s.chip.word a else s.chip.word b := s.chip.word_setWord a b _
        _ = s.chip.word b := by by_cases hb : b = a <;> simp [hb]

/-- The state after reset, but with bit 0 of SAF_STAT counted among the bits that hardware sets in the present cycle. -/
def hotSafStat : State := { State.reset with chip := { State.reset.chip with hot := [(0x47000000, 1)] } }

/-- The bus stores the bit that counts as hardware's: SAF_STAT was 0x0040_0000 and comes out as 0x0040_0001. -/
theorem hotSafStat_write_sets_bit : hotSafStat.chip.word 0x47000000 = 0x400000 ∧
    (hotSafStat.chip.coreWrite .word 0x47000000 0 true).word 0x47000000 = 0x400001 := by
  have hw : hotSafStat.chip.word 0x47000000 = 0x400000 := by decide
  obtain ⟨r, hr⟩ : ∃ r, mgrSpecAt 0x47000000 = some r := Option.isSome_iff_exists.mp (by decide)
  have hbus := hotSafStat.chip.busWrite_saf .word (a := 0x47000000) rfl 0 true
  rw [show busWhole .word 0x47000000 = true from rfl, if_pos rfl, Chip.specWrite_saf _ rfl hr] at hbus
  refine ⟨hw, ?_⟩
  calc (hotSafStat.chip.coreWrite .word 0x47000000 0 true).word 0x47000000
      = (hotSafStat.chip.setWord 0x47000000 (hotSafStat.chip.word 0x47000000 ||| hotSafStat.chip.hotOf 0x47000000)).word 0x47000000 := by
        rw [Chip.coreWrite_of_ok hbus]; rfl
    _ = hotSafStat.chip.word 0x47000000 ||| hotSafStat.chip.hotOf 0x47000000 := by rw [Chip.word_setWord, if_pos rfl]
    _ = 0x400001 := by rw [hw]; rfl

/-- Refutes O55, in its clause on the SAF_ block: the statement is about every state, whether or not a run reaches it, and so
about one that counts a bit of SAF_STAT among those that hardware sets in the present cycle. The bus puts such a bit into the
word it stores (R15), although SAF_STAT has no W1C bit. -/
theorem not_emptyAndReadOnly : ¬ Obligations.EmptyAndReadOnly := by
  unfold Obligations.EmptyAndReadOnly
  intro h
  obtain ⟨-, -, -, saf⟩ := h hotSafStat 0x47000000 0 0 0 true .word rfl
  obtain ⟨t, ht, -, -, hword⟩ := saf rfl
  rw [exec_registerWrite_mgr hotSafStat rfl, Host.Outcome.next.injEq] at ht
  obtain ⟨before, after⟩ := hotSafStat_write_sets_bit
  have same : (hotSafStat.chip.coreWrite .word 0x47000000 0 true).word 0x47000000 = hotSafStat.chip.word 0x47000000 := by
    rw [← hword 0x47000000, ← ht]
  rw [before, after] at same
  exact absurd same (by decide)

end Machine
end Sys2Proof

/-!
PROOFS. What an event makes of the register words of the event unit (R479), and from it the settling of O53: the events of the
die temperature and their hysteresis (R510).
-/
namespace Sys2Proof

/-! ## Register words of the manager after its shared operations -/

theorem Chip.word_s (c : Chip) (f : Fld) (n b : Nat) : (c.s f n).word b = if f.reg = b then f.put (c.word b) n else c.word b := by
  by_cases h : b = f.reg
  · subst h; simp [Chip.s, Chip.word, RegFile.set, AMap.get_upd]
  · simp [Chip.s, Chip.word, RegFile.set, AMap.get_upd, h, Ne.symm h]

/-- The fields of the event unit that an event writes, in order (R479). -/
def Chip.eventFields (c : Chip) (e d : Nat) : List (Fld × Nat) :=
  let count := evtFld F.EVT_ROUTE_COUNT e
  [(evtFld F.EVT_ROUTE_PEND e, 1), (count, satTo count (c.g count) 1), (evtFld F.EVT_DETAIL_DETAIL e, d), (F.EVT_CTL_LAST, e)]

/-- Setting PEND leaves the count beside it as it was. -/
theorem Chip.count_latch_pend (c : Chip) (e : Nat) :
    (c.latch (evtFld F.EVT_ROUTE_PEND e)).g (evtFld F.EVT_ROUTE_COUNT e) = c.g (evtFld F.EVT_ROUTE_COUNT e) :=
  c.g_s_apart (evtFld F.EVT_ROUTE_PEND e) (evtFld F.EVT_ROUTE_COUNT e) 1 rfl
    (by simp [Fld.apart, evtFld, Fld.ix, F.EVT_ROUTE_PEND, F.EVT_ROUTE_COUNT])

/-- An event writes the fields of its own route and detail, and LAST, and nothing else (R479). -/
theorem Chip.puts_event (c : Chip) (e d : Nat) : c.puts (c.event e d) (c.eventFields e d) := by
  intro b
  have regs : (c.event e d).word b =
      ((((c.s (evtFld F.EVT_ROUTE_PEND e) 1).s (evtFld F.EVT_ROUTE_COUNT e)
        (satTo (evtFld F.EVT_ROUTE_COUNT e) ((c.latch (evtFld F.EVT_ROUTE_PEND e)).g (evtFld F.EVT_ROUTE_COUNT e)) 1)).s
        (evtFld F.EVT_DETAIL_DETAIL e) d).s F.EVT_CTL_LAST e).word b := rfl
  rw [regs, c.count_latch_pend]
  simp only [Chip.word_s, Chip.eventFields, putAll, List.foldl_cons, List.foldl_nil]

/-! ## The route word of an event: its PEND bit and its count -/

/-- The EVT_ROUTE word of an event. -/
def Chip.route (c : Chip) (e : Nat) : Word := c.word (0x49000000 + 4 * e)

/-- What one occurrence makes of the route of an event: PEND sets and the count advances (R479). -/
def occurred (v : Word) : Word := F.EVT_ROUTE_COUNT.put (F.EVT_ROUTE_PEND.put v 1) (satTo F.EVT_ROUTE_COUNT (F.EVT_ROUTE_COUNT.of v) 1)

theorem pend_occurred (v : Word) : F.EVT_ROUTE_PEND.of (occurred v) = 1 := by
  rw [occurred, Fld.of_put_apart F.EVT_ROUTE_COUNT F.EVT_ROUTE_PEND rfl (by decide), Fld.of_put F.EVT_ROUTE_PEND rfl]
  rfl

theorem count_occurred (v : Word) : F.EVT_ROUTE_COUNT.of (occurred v) = satTo F.EVT_ROUTE_COUNT (F.EVT_ROUTE_COUNT.of v) 1 := by
  have hfits : satTo F.EVT_ROUTE_COUNT (F.EVT_ROUTE_COUNT.of v) 1 < 2 ^ F.EVT_ROUTE_COUNT.width :=
    Nat.lt_of_le_of_lt (Nat.min_le_left _ _) (by decide)
  rw [occurred, Fld.of_put F.EVT_ROUTE_COUNT rfl, Nat.mod_eq_of_lt hfits]

theorem Chip.pend_of_route {c : Chip} {e : Nat} {v : Word} (h : c.route e = v) :
    c.pend e = decide (F.EVT_ROUTE_PEND.of v ≠ 0) := by
  rw [← h]; rfl

theorem Chip.count_of_route {c : Chip} {e : Nat} {v : Word} (h : c.route e = v) :
    c.g (evtFld F.EVT_ROUTE_COUNT e) = F.EVT_ROUTE_COUNT.of v := by
  rw [← h]; rfl

theorem Chip.route_event_same (c : Chip) {e : Nat} (he : e < 256) (d : Nat) : (c.event e d).route e = occurred (c.route e) := by
  have hdetail : 0x49000800 + 4 * e ≠ 0x49000000 + 4 * e := by omega
  have hlast : 0x49000c00 ≠ 0x49000000 + 4 * e := by omega
  refine (c.puts_event e d _).trans ?_
  simp only [Chip.eventFields, putAll, List.foldl_cons, List.foldl_nil, evtFld, Fld.ix, F.EVT_ROUTE_PEND, F.EVT_ROUTE_COUNT,
    F.EVT_DETAIL_DETAIL, F.EVT_CTL_LAST, if_true, if_neg hdetail, if_neg hlast]
  rfl

/-- An event leaves every register outside of its own route and detail, and LAST. -/
theorem Chip.word_event_other (c : Chip) {e b : Nat} (d : Nat) (hroute : b ≠ 0x49000000 + 4 * e)
    (hdetail : b ≠ 0x49000800 + 4 * e) (hlast : b ≠ 0x49000c00) : (c.event e d).word b = c.word b := by
  rw [c.puts_event e d b]
  simp only [Chip.eventFields, putAll, List.foldl_cons, List.foldl_nil, evtFld, Fld.ix, F.EVT_ROUTE_PEND, F.EVT_ROUTE_COUNT,
    F.EVT_DETAIL_DETAIL, F.EVT_CTL_LAST, if_neg hroute.symm, if_neg hdetail.symm, if_neg hlast.symm]

theorem Chip.route_event_other (c : Chip) {e k : Nat} (hk : k < 256) (hne : k ≠ e) (d : Nat) :
    (c.event e d).route k = c.route k :=
  c.word_event_other d (by omega) (by omega) (by omega)

/-- No event starts or ends a run. -/
theorem Chip.run_event (c : Chip) (e d : Nat) : (c.event e d).run = c.run := by
  have hword : (c.event e d).word F.GBL_CTL_RUN_EN.reg = c.word F.GBL_CTL_RUN_EN.reg :=
    c.word_event_other d (by simp only [F.GBL_CTL_RUN_EN]; omega) (by simp only [F.GBL_CTL_RUN_EN]; omega) (by decide)
  exact congrArg (fun v => decide (F.GBL_CTL_RUN_EN.of v ≠ 0)) hword

/-! ## An event that occurs on a condition -/

/-- An event without detail that occurs when a condition holds. -/
def Chip.eventIf (c : Chip) (p : Prop) [Decidable p] (e : Nat) : Chip := if p then c.event e 0 else c

/-- From `c` to `d` the event has occurred once if the condition held, and not otherwise, as PEND and the count show it. -/
def occursIf (p : Prop) (c d : Chip) (e : Nat) : Prop :=
  (p → d.pend e = true ∧ d.g (evtFld F.EVT_ROUTE_COUNT e) = satTo (evtFld F.EVT_ROUTE_COUNT e) (c.g (evtFld F.EVT_ROUTE_COUNT e)) 1) ∧
  (¬ p → d.pend e = c.pend e ∧ d.g (evtFld F.EVT_ROUTE_COUNT e) = c.g (evtFld F.EVT_ROUTE_COUNT e))

section
variable (c : Chip) (p : Prop) [Decidable p] {e k : Nat}

theorem Chip.eventIf_frame :
    c.eventIf p e = { c with regs := (c.eventIf p e).regs, hot := (c.eventIf p e).hot, evt := (c.eventIf p e).evt } := by
  by_cases h : p
  · simp only [Chip.eventIf, if_pos h]; exact c.event_frame e 0
  · simp only [Chip.eventIf, if_neg h]

theorem Chip.run_eventIf : (c.eventIf p e).run = c.run := by
  by_cases h : p <;> simp [Chip.eventIf, h, Chip.run_event]

theorem Chip.route_eventIf_other (hk : k < 256) (hne : k ≠ e) : (c.eventIf p e).route k = c.route k := by
  by_cases h : p <;> simp [Chip.eventIf, h, c.route_event_other hk hne]

theorem Chip.route_eventIf_same (he : e < 256) :
    (c.eventIf p e).route e = if p then occurred (c.route e) else c.route e := by
  by_cases h : p <;> simp [Chip.eventIf, h, c.route_event_same he]

theorem occursIf_of_route {c d : Chip} (h : d.route e = if p then occurred (c.route e) else c.route e) :
    occursIf p c d e := by
  constructor
  · intro hp
    rw [if_pos hp] at h
    exact ⟨by rw [Chip.pend_of_route h, pend_occurred]; rfl, (Chip.count_of_route h).trans (count_occurred _)⟩
  · intro hp
    rw [if_neg hp] at h
    exact ⟨Chip.pend_of_route h, Chip.count_of_route h⟩

end

/-! ## The die temperature (R510) -/

/-- Whether a junction at `t` counts as hot: once past `high` it does until it is below `low` (R510). -/
def hotAt (hot : Bool) (high low t : Int) : Bool := if hot then decide (low ≤ t) else decide (high < t)

theorem hotAt_iff (hot : Bool) (high low t : Int) :
    hotAt hot high low t = true ↔ (hot = false ∧ high < t) ∨ (hot = true ∧ low ≤ t) := by
  cases hot <;> simp [hotAt]

/-- A change of the power state on top of what events have changed. -/
theorem Chip.modPwr_frame {c d : Chip} (h : d = { c with regs := d.regs, hot := d.hot, evt := d.evt }) (f : Pwr → Pwr) :
    d.modPwr f = { c with regs := d.regs, hot := d.hot, evt := d.evt, pwr := f c.pwr } :=
  (congrArg (fun x => Chip.modPwr x f) h :)

/-- At a live manager the two events occur on their conditions, event 4 first, and what is remembered follows. -/
theorem Chip.dieTemp_of_live {c : Chip} (h : c.live = true) (t : Int) :
    c.dieTemp t = ((c.eventIf (c.pwr.hot115 = false ∧ 115 < t) 4).eventIf (c.pwr.hot125 = false ∧ 125 < t) 5).modPwr
      (fun p => { p with hot115 := hotAt c.pwr.hot115 115 110 t, hot125 := hotAt c.pwr.hot125 125 120 t }) := by
  cases h4 : c.pwr.hot115 <;> cases h5 : c.pwr.hot125 <;> simp [Chip.dieTemp, Chip.eventIf, hotAt, h, h4, h5]

namespace Machine

/-- The die temperature reaches the manager in any state. -/
theorem managerDoes_dieTempEvent {s : State} {t : Int} {P : Chip → Prop} (h : P (s.chip.dieTemp t)) :
    s.managerDoes (.dieTempEvent t) P :=
  ⟨_, rfl, ⟨rfl, rfl⟩, h⟩

/-- Settles O53: events 4 and 5 each occur on a condition of their own, and neither touches the route of the other. -/
theorem dieTemperature : Obligations.DieTemperature := by
  unfold Obligations.DieTemperature
  intro s temp hlive c p rises4 rises5 count once never
  let c4 := c.eventIf rises4 4
  let c5 := c4.eventIf rises5 5
  have frame4 : c4 = { c with regs := c4.regs, hot := c4.hot, evt := c4.evt } := c.eventIf_frame rises4
  have frame5 : c5 = { c4 with regs := c5.regs, hot := c5.hot, evt := c5.evt } := c4.eventIf_frame rises5
  have frame : c5 = { c with regs := c5.regs, hot := c5.hot, evt := c5.evt } :=
    frame5.trans (congrArg (fun x : Chip => { x with regs := c5.regs, hot := c5.hot, evt := c5.evt }) frame4)
  have live : c5.live = c.live := (congrArg Chip.live frame :)
  have run : c5.run = c.run := (c4.run_eventIf rises5).trans (c.run_eventIf rises4)
  obtain ⟨once4, never4⟩ : occursIf rises4 c c5 4 := occursIf_of_route rises4 <| calc
    c5.route 4 = c4.route 4 := c4.route_eventIf_other rises5 (by decide) (by decide)
    _ = _ := c.route_eventIf_same rises4 (by decide)
  obtain ⟨once5, never5⟩ : occursIf rises5 c c5 5 := occursIf_of_route rises5 <| by
    have before : c4.route 5 = c.route 5 := c.route_eventIf_other rises4 (by decide) (by decide)
    rw [← before]
    exact c4.route_eventIf_same rises5 (by decide)
  apply managerDoes_dieTempEvent
  rw [Chip.dieTemp_of_live hlive]
  exact ⟨Chip.modPwr_frame frame _, live, run, once4, never4, once5, never5, hotAt_iff .., hotAt_iff ..⟩

end Machine
end Sys2Proof
